-- ==== Sys2Proof/Word.lean ====
section
/-! DEFINITION. The word types of the Fenia module (spec/00_scope.md R5: little-endian, bit 0 least significant). -/

namespace Sys2Proof

/-- A 64-bit scalar register or address (R156). -/
abbrev Word := BitVec 64

/-- One byte of memory. -/
abbrev Byte := BitVec 8

end Sys2Proof
end

