-- ==== Sys2Proof/Names.lean ====
section
/-! DEFINITION. Names that instructions and state share: guards, causes, and the device's steps that have no encoding
(spec/95_what_each_step_holds.md), each with what it acts on, as they wait on the agenda. -/

namespace Sys2Proof

/-- The GUARD and NEG fields of a word (R202, R203). -/
structure Guard where
  neg : Bool
  idx : Fin 8
  deriving DecidableEq, Repr

/-- The guard that enables always: g7 or m7 with NEG = 0 (R203). -/
def Guard.always : Guard := ⟨false, 7⟩

/-- The cause codes (R359, Table 1 of spec/15_traps_preemption.md); the reserved codes have no name, for they are
never raised. -/
inductive Cause where
  | none
  | illegalInstruction
  | reservedField
  | privInstruction
  | cregInvalid
  | fetchMisaligned
  | atomicMisaligned
  | sysCall
  | codeObjectGone
  | callRoomFull
  | addrNoncanonical
  | nearOutOfRange
  | asidUnbound
  | pageNotValid
  | tableMalformed
  | kindInvalid
  | privDenied
  | readDenied
  | writeDenied
  | execDenied
  | keySlotEmpty
  | confidentialMismatch
  | discardedWrite
  | switchTierLost
  | asidNotQuiescent
  | switchNotOwned
  | laneRetired
  | vregUnconfigured
  | vectorWidth
  | vectorShape
  | vectorType
  | convoyConflict
  | stripSync
  | stripOverflow
  | matrixShape
  | matrixOperand
  | batonStale
  | batonDenied
  | batonArm
  | batonNotLocal
  | channelBusy
  | relayShape
  | wpOutOfRange
  | messageFault
  | positionMiss
  | positionFault
  | lateFrame
  | streamInvalid
  | dataVreg
  | dataAcc
  | dataSram
  | dataMemory
  | dataScalar
  | dataContext
  | stripDiscarded
  | machineCheck
  deriving DecidableEq, Repr

/-- The 6-bit code of a cause (R359). -/
def Cause.code : Cause → Nat
  | .none => 0x00
  | .illegalInstruction => 0x01
  | .reservedField => 0x02
  | .privInstruction => 0x03
  | .cregInvalid => 0x04
  | .fetchMisaligned => 0x05
  | .atomicMisaligned => 0x06
  | .sysCall => 0x07
  | .codeObjectGone => 0x08
  | .callRoomFull => 0x09
  | .addrNoncanonical => 0x10
  | .nearOutOfRange => 0x11
  | .asidUnbound => 0x12
  | .pageNotValid => 0x13
  | .tableMalformed => 0x14
  | .kindInvalid => 0x15
  | .privDenied => 0x16
  | .readDenied => 0x17
  | .writeDenied => 0x18
  | .execDenied => 0x19
  | .keySlotEmpty => 0x1A
  | .confidentialMismatch => 0x1B
  | .discardedWrite => 0x1C
  | .switchTierLost => 0x1D
  | .asidNotQuiescent => 0x1E
  | .switchNotOwned => 0x1F
  | .laneRetired => 0x20
  | .vregUnconfigured => 0x21
  | .vectorWidth => 0x22
  | .vectorShape => 0x23
  | .vectorType => 0x24
  | .convoyConflict => 0x25
  | .stripSync => 0x26
  | .stripOverflow => 0x27
  | .matrixShape => 0x28
  | .matrixOperand => 0x29
  | .batonStale => 0x2C
  | .batonDenied => 0x2D
  | .batonArm => 0x2E
  | .batonNotLocal => 0x2F
  | .channelBusy => 0x30
  | .relayShape => 0x31
  | .wpOutOfRange => 0x32
  | .messageFault => 0x33
  | .positionMiss => 0x34
  | .positionFault => 0x35
  | .lateFrame => 0x36
  | .streamInvalid => 0x37
  | .dataVreg => 0x38
  | .dataAcc => 0x39
  | .dataSram => 0x3A
  | .dataMemory => 0x3B
  | .dataScalar => 0x3C
  | .dataContext => 0x3D
  | .stripDiscarded => 0x3E
  | .machineCheck => 0x3F

/-- Who asked for a pre-emption (R371). -/
inductive PreemptWhy where
  | starter
  | pacer
  | kill
  deriving DecidableEq, Repr

/-- The operation of an atomic (R288, Table 5 of spec/11_memory_sync_instr.md). -/
inductive AtomOp where
  | add | min | max | minu | maxu | and | or | xor | swap | cas
  deriving DecidableEq, Repr

/-- What one module asks of another's baton (R133, R138 to R140): a coroutine's signal, error signal or barrier arrival, a
device signal, and a reference that a command takes or gives back. -/
inductive RemoteKind where
  | signal (amount : Nat)
  | err (code : Nat)
  | arrive (amount : Nat)
  | device (amount : Nat)
  | deviceErr (code : Nat)
  | hold
  | release
  deriving DecidableEq, Repr

/-- A reply block on its way to the sender of an active message (R299, R300). -/
structure AmReply where
  core   : Nat            -- the sender's core
  block  : Option Nat     -- offset of the reply block, none when NR = 1
  value  : Word
  status : Nat
  baton  : Word
  deriving DecidableEq, Repr

/-- A request that reaches a home slice (R56, R70, R411, R412). -/
structure HomeReq where
  addr  : Nat             -- system physical address, or host physical address
  host  : Bool            -- a kind-1 line
  len   : Nat
  ace   : Bool            -- through a leaf with ACE = 1
  kind  : Nat             -- 1 read, 2 write, 3 atomic, 4 relay read, 5 relay write, 6 host read, 7 host write
  coro  : Word            -- CORO of the issuer, or the host's form
  slot  : Nat
  asid  : Nat
  skew  : Nat := 0        -- BSKEW of its leaf, read as a placement in start-up mode (R25, R57)
  deriving DecidableEq, Repr

/-- A request that a module sends to a switch plane (R79, R80, R87, R94). -/
structure SwitchReq where
  plane   : Nat
  tag     : Nat           -- generation tag of the leaf or handle
  offset  : Nat           -- byte offset within the plane
  tenant  : Nat
  key     : Option Nat    -- the key's slot when the page is confidential
  write   : Bool
  data    : List Byte     -- the bytes of a store
  len     : Nat
  atomic  : Option (AtomOp × Nat × Nat)   -- an atomic's operation, operand or expected value, and replacement (R87)
  deriving DecidableEq, Repr

/-- A granule's image on its way from the primary plane to its partner (R90). -/
structure MirrorImage where
  plane   : Nat           -- the partner, which installs it
  granule : Nat           -- granule number within the plane
  seq     : Nat
  data    : List Byte
  sealed  : Option (Option (BitVec 256))   -- the key it is sealed under: `some none` is the module key
  bad     : Bool := false -- the granule was poisoned at the primary (R379)
  deriving DecidableEq, Repr

/-- A request of a host master on the Olivon link (R397, R402). -/
structure HostReq where
  master : Nat
  write  : Bool
  pa     : Nat
  len    : Nat
  data   : List Byte
  op     : Option (AtomOp × Nat × Nat) := none   -- of an atomic: its operation and operands
  got    : Option (List Byte × Bool) := none     -- once it has begun: what its lines have answered, and whether poisoned
  deriving DecidableEq, Repr

/-- A request to stop the coroutine that runs: why, and the group before which each member of its convoy stops (R372). -/
structure StopAt where
  why : PreemptWhy
  cut : List Nat
  deriving DecidableEq, Repr

/-- The same for the pacer's bound on a core (R176). -/
structure PacerStop where
  core : Nat
  cut  : List Nat
  deriving DecidableEq, Repr

/-- Two requests to one bank, by their HBM offsets: the one that waits and the one ahead of it (R63). -/
structure BankWait where
  off   : Nat
  ahead : Nat
  deriving DecidableEq, Repr

/-- A plane that is lost to this module: by its failure, or else by the loss of this module's port (R78, log 18). -/
structure PlaneLoss where
  plane  : Nat
  failed : Bool
  deriving DecidableEq, Repr

/-- A machine check of a core alone, or of the special-function unit that it shares (R1, R380). -/
structure UnitCheck where
  core : Nat
  sfu  : Bool
  deriving DecidableEq, Repr

/-- A step without an encoding, waiting on the agenda (log 3). It is `Event.toInstr` of its row of the opcode table. -/
inductive Event where
  | waitingRecordWrite (die : Nat)
  | deferredStoreFailure (core : Nat)
  | pendingDatumArrival (core cnum idx : Nat) (value : Word) (poisoned : Bool)
  | preemption (core : Nat) (why : StopAt)
  | pacerDecision (core : Nat)
  | pacerPreemption (core : PacerStop)
  | contextSpill (core cnum : Nat)
  | contextReturn (core cnum : Nat)
  | clusterWindowRequest (core : Nat)
  | activeMessageHandler (core : Nat)
  | handlerLimit (core : Nat)
  | amReplyDelivery (r : AmReply)
  | remoteSignalArrival (sender : Nat) (handle : Word) (kind : RemoteKind)
  | batonPoll (core cnum : Nat)
  | relayChunk (core ch : Nat)
  | relayBeat (core ch : Nat)
  | relayComplete (core ch : Nat)
  | relayCancelComplete (core ch : Nat)
  | translationWalk (core : Nat) (asid : Nat) (va : Word)
  | runAheadTranslation (core : Nat) (pc : Word)
  | maintenanceComplete (die idx : Nat)
  | asidRetirementComplete (asid : Nat)
  | homeSliceRequest (r : HomeReq)
  | bankConflict (d : BankWait)
  | hdcfgWrite (d : Nat) (value : Word)
  | granuleMove (d : Nat)
  | migrationComplete (d : Nat)
  | mctlWrite (value : Word)
  | switchAccess (r : SwitchReq)
  | mirrorImageInstall (r : MirrorImage)
  | failoverAccess (r : SwitchReq)
  | mergeLockLapse (plane granule : Nat)
  | planeDown (p : PlaneLoss)
  | planeUp (p gen : Nat)
  | collectiveAbortReceipt (sender group cgen : Nat)
  | starterDecision
  | starterTimedDecision
  | launchBlocking (seq : Nat)
  | dependenceFailed (seq : Nat)
  | launchCompletion (seq : Nat)
  | unloadComplete (obj : Nat)
  | ccmdOpen (die target inc : Nat)
  | ccmdResume (die target inc : Nat)
  | ccmdKill (die target inc : Nat)
  | ccmdClose (die target inc : Nat)
  | ccmdBadcmd (die : Nat)
  | machineCheck (core : UnitCheck)
  | truncationCleanup (rec : Nat)
  | cleanupComplete (rec : Nat)
  | cleanupFailed (rec : Nat) (lost : Bool) (cause : Cause)
  | hostAccess (r : HostReq)
  | hostSignal (master : Nat) (handle : Word) (amount : Nat)
  | hostsigWrite (value : Word)
  | linkLoss
  | linkReturn
  | ownClaim (x : Nat) (e n : Word)
  | ownRelease (x : Nat) (e n : Word)
  | ownHandover (x : Nat) (e n : Word)
  | leaseLapse
  | ownerScrubComplete
  | engagementScrub (req : Nat)
  | engagementScrubComplete
  | attestation (req : Nat)
  | attestationComplete
  | keyLoad (slot : Nat) (rec : Nat)
  | keyErase (slot : Nat)
  | moduleReset
  | memoryTrained
  | fabricTrained (planes : List (Nat × Nat))
  | hbmRepair (bank spare : Nat)
  | clockThrottle
  | clockRestore
  | thermalStop
  | registerWrite (pa : Nat) (value : Word)
  | vwaitRound (core cnum : Nat)
  deriving DecidableEq, Repr

end Sys2Proof
end

