-- ==== Sys2Proof/Machine/Bits.lean ====
section
/-! DEFINITION. Bit fields, sign extension and byte order (spec/00_scope.md R5, spec/07_arithmetic.md R183), on
natural numbers, so that both Lean's evaluator and its kernel compute them fast. -/

namespace Sys2Proof

/-- Bits `hi..lo` of a number, bit 0 the least significant (R5). -/
def bits (x hi lo : Nat) : Nat := x / 2 ^ lo % 2 ^ (hi + 1 - lo)

/-- Bit `i` of a number. -/
def bitAt (x i : Nat) : Bool := x / 2 ^ i % 2 == 1

/-- `Bool` as the bit 0 or 1. -/
def bit01 (b : Bool) : Nat := if b then 1 else 0

/-- `n` read as a two's-complement number of `w` bits (R183). -/
def toSigned (w n : Nat) : Int :=
  if n % 2 ^ w < 2 ^ (w - 1) then (n % 2 ^ w : Nat) else ((n % 2 ^ w : Nat) : Int) - (2 ^ w : Nat)

/-- An integer modulo `2 ^ w` (R183). -/
def wrap (w : Nat) (x : Int) : Nat := (x % (2 ^ w : Nat)).toNat

/-- The ceiling of `a / b`. -/
def ceilDiv (a b : Nat) : Nat := (a + b - 1) / b

/-- Little-endian value of a list of bytes (R5). -/
def leNat : List Byte → Nat
  | [] => 0
  | b :: bs => b.toNat + 256 * leNat bs

/-- The `n` low bytes of a number, little-endian (R5). -/
def leBytes : Nat → Nat → List Byte
  | 0, _ => []
  | n + 1, x => BitVec.ofNat 8 x :: leBytes n (x / 256)

/-- The field `hi..lo` of `x` replaced by the low bits of `v`. -/
def setBits (x hi lo v : Nat) : Nat :=
  x - bits x hi lo * 2 ^ lo + v % 2 ^ (hi + 1 - lo) * 2 ^ lo

/-- The 64-bit word of a number, modulo 2 ^ 64. -/
def w64 (n : Nat) : Word := BitVec.ofNat 64 n

/-- What an atomic writes in place of `old`, none for a CAS that fails; `x` is the operand or the expected value, `y` the
replacement; signed comparisons are of `n` bytes. -/
def atomNew (o : AtomOp) (n old x y : Nat) : Option Nat :=
  match o with
  | .add => some ((old + x) % 2 ^ (8 * n))
  | .min => some (if toSigned (8 * n) x < toSigned (8 * n) old then x else old)
  | .max => some (if toSigned (8 * n) old < toSigned (8 * n) x then x else old)
  | .minu => some (min old x)
  | .maxu => some (max old x)
  | .and => some (old &&& x)
  | .or => some (old ||| x)
  | .xor => some (old ^^^ x)
  | .swap => some x
  | .cas => if old = x then some y else none

end Sys2Proof
end

