-- ==== Sys2Proof/Config.lean ====
section
/-! DEFINITION. What one device fixes, and the free values: constants without a body, so that no proof can use a
particular value of one (the log entry that marks each is named beside it). -/

namespace Sys2Proof.Config

/-- The module's number in the pod (R157); the spec fixes none (log 6). -/
def moduleNumber : Nat := 0

/-- Cores of a cluster, clusters of a die, dies of the module (R1). -/
def coresPerCluster : Nat := 96
def clustersPerDie : Nat := 4
def dies : Nat := 16

/-- Bytes of one scratchpad way (R49). -/
def wayBytes : Nat := 32768

/-- HBM of a module in bytes (R14). -/
def hbmBytes : Nat := 2 ^ 40

/-- First byte of the firmware-reserved region, remap domain 1,020 (R15). -/
def firmwareBase : Nat := 1020 * 2 ^ 30

/-- First byte of the register space (R14). -/
def regBase : Nat := 0xFF00000000000

/-- Free value: the index of the baton record that `bnew` takes (R131, log 9). -/
opaque freeBaton : Nat → Nat

/-- Free value: what another module's baton unit replies to a `barv` (R139, log 19): 0 that it accepts the arrival, with
the target it returns, 1 that the handle is not live, 2 that it refuses. -/
opaque remoteArrival : Nat → Fin 3 × BitVec 32

/-- Free value: where a plane begins its search for a free range (R82, log 17), in 64 KiB units. -/
opaque freeRange : Nat → Nat

/-- Free value: where the starter begins its search for a die and for a core (R162, R347, log 10). -/
opaque freeDie : Nat → Nat
opaque freeCore : Nat → Nat

/-- Free value: which of the two FP32 neighbours a special function returns (R264, log 11); the first argument is
the minor of major 0x1A, the second the operand's code, so a given input gives the same result everywhere. -/
opaque specialUp : Nat → Nat → Bool

/-- Free value: whether fma of zero, infinity and a quiet NaN sets IV (R186, log 16). -/
opaque fmaNanInvalid : Bool

/-- Free value: a byte read through a key slot whose key is not the one it was written with (R27, log 14):
storage address, key used, key of the data; `none` stands for the module key (log 7). -/
opaque wrongKeyByte : Nat → Option (BitVec 256) → Option (BitVec 256) → Byte

/-- Free value: a byte of the ciphertext of a sealed switch-tier granule (R94, log 14): plane address of the byte,
key, write sequence. -/
opaque cipherByte : Nat → Option (BitVec 256) → Nat → Byte

/-- Free values: the two 32-byte seeds of the module's key-transport key (R410, log 15). -/
opaque transportSeed : List Byte
opaque transportReject : List Byte

/-- Free values: each die's management firmware and the signature it comes with, the public key against which that is
verified, and the digest of that key which is fused in the module (R407, R413, log 15). -/
opaque firmwareImage : Nat → List Byte
opaque firmwareSignature : Nat → List Byte
opaque firmwareKey : List Byte
opaque fusedDigest : List Byte

/-- Free values: the 16-byte parts of the module's identity key, the randomness with which it signs a text, and the module's
serial number (R407, R408, log 15). -/
opaque identitySeed : List Byte
opaque identityPrf : List Byte
opaque identityPublic : List Byte
opaque signRandom : List Byte → List Byte
opaque serialNumber : BitVec 64

/-- Free value: which line of a full set of the L1, and of the second-level cache, makes room for a new one: the new line
and the lines that may leave; the set in which a line of the second-level cache lies; and the bytes that a spilled context
has in the spill region (log 25). -/
opaque l1Victim : Nat → List Nat → Nat
opaque l2Victim : Nat → List Nat → Nat
opaque l2Set : Nat → Nat
opaque spillByte : Nat → Nat → Byte

/-- Free value: what another module's baton unit answers at issue of a command that names its baton (R132, log 26): 0
that the baton may be named, 1 that the handle is not live, 2 that the ASID lacks the rights. -/
opaque remoteCheck : Nat → Fin 3

/-- Free values: how the supervisor starts (R404, R413, log 2): its first instruction, its address space and
argument, the ASID table that it is given, and the bytes of HBM that firmware lays down for it. -/
opaque supervisorPc : Word
opaque supervisorAsid : BitVec 16
opaque supervisorArg : Word
opaque supervisorTable : BitVec 33
opaque bootBytes : List (Nat × Byte)

end Sys2Proof.Config
end

