-- ==== Sys2Proof/Machine/State.lean ====
section
/-! DEFINITION. The state of the Fenia module, all that the spec gives it, as plain data (INVENTORY.md lists each
piece with its rule and its reset value), the reasons for which a step stops, and the state after module reset. -/

namespace Sys2Proof.Machine

/-- Memory: pairs of a storage address and a byte, addresses strictly rising, none equal to what an unlisted
address reads as (zero, log 1). -/
abbrev Memory := List Host.Cell

/-- The contents of a vector register, at most 8,192 bytes (R158 Table 4), byte 0 in bits 7..0. -/
abbrev VReg := BitVec 65536

/-- The bits of a mask, one per element position (R159). -/
abbrev Mask := BitVec 8192

/-- What a key slot holds: `none` is the module key of slot 0, which no loaded key equals (R27, log 7). -/
abbrev KeyMat := Option (BitVec 256)

/-- An accumulator tile, 32 rows of 32 words (R1, R303). -/
abbrev Acc := BitVec 32768

/-- A VSTART register (R216, R255). -/
structure VStart where
  row  : BitVec 8
  elem : BitVec 14
  deriving DecidableEq, Repr

/-- The condition a Waiting `vwait` repeats (R292). -/
structure VWait where
  guard : Guard
  cond  : Nat
  va    : Fin 64
  vb    : Fin 64
  insn  : BitVec 32
  deriving DecidableEq, Repr

/-- Why a coroutine is Held (R173). -/
inductive HeldWhy where
  | await
  | yield
  | preempt
  | trap
  | vwait (w : VWait)
  deriving DecidableEq, Repr

/-- The states of Table 7 of spec/06_execution_model.md (R178); an Ended coroutine is no longer listed. -/
inductive CState where
  | ready
  | running
  | waiting
  | waitingVec (w : VWait)
  | parked (cause : Cause)
  | held (why : HeldWhy)
  deriving DecidableEq, Repr

/-- Where a coroutine's state is (R170, R171). -/
inductive Place where
  | files
  | callRoom
  | spill
  deriving DecidableEq, Repr

/-- Where an access goes. -/
inductive Target where
  | pad (core : Nat) (off : Nat)              -- a scratchpad of the accessing core's cluster (R10)
  | hbm (pa : Nat)
  | reg (pa : Nat)
  | host (pa : Nat)
  | pod (m : Nat) (off : Nat)                 -- another module's HBM
  | plane (p : Nat) (tag : Nat) (off : Nat)   -- the switch tier
  | zero                                      -- a discarded page (R26)
  deriving DecidableEq, Repr

/-- A translated byte address with what its leaf says about the access. -/
structure Xlat where
  target : Target
  ace    : Bool := false              -- its requests are counted (R70)
  key    : Nat := 0
  conf   : Bool := false
  skew   : Nat := 0                   -- BSKEW of a kind-0 leaf, read as a line placement in start-up mode (R25)
  deriving DecidableEq, Repr

/-- A translation held by a translation cache (R37, Table 12 of spec/01_address_spaces.md). -/
structure TlbEntry where
  asid  : Nat
  glob  : Bool
  base  : Nat                         -- first virtual address of the page, as a 56-bit number
  level : Nat
  leaf  : Nat
  deriving DecidableEq, Repr

/-- A duplex instruction, with what its result is written into (R321). -/
inductive DsForm where
  | adv (d : Fin 64)
  | trunc
  | frame (d : Fin 32)
  | play
  deriving DecidableEq, Repr

/-- One element of a store held by the strip buffer: where it was translated to and its bytes (R287, R244). -/
structure HeldStore where
  va    : Word            -- virtual address of the first byte
  data  : List Byte
  parts : List (Xlat × Nat)   -- its translations and the bytes that each takes, kept from issue (R244)
  insn  : BitVec 32
  idx   : Nat             -- sweep index, for a deferred failure
  member : Nat            -- convoy position of the store
  pages : List TlbEntry   -- the pages whose translations it keeps (R40, R244)
  deriving DecidableEq, Repr

/-- What a pending datum is written into (R373). -/
inductive PendingDst where
  | load (r : Fin 32) (n : Nat) (signed : Bool) (off len : Nat)   -- bytes of a datum of `n` bytes, which is extended
  | elem (v : Fin 64) (off len row elem : Nat)                    -- bytes of a vector register, of an element
  | stream (f : DsForm) (b : Word)                                -- a duplex operation's results
  | store (h : HeldStore)                                         -- nothing: a store that a commit has handed over (R227)
  deriving DecidableEq, Repr

/-- One element that a request asks of a message slot, by the number of the request. -/
structure SlotKey where
  id   : Nat
  core : Nat
  off  : Nat
  len  : Nat
  deriving DecidableEq, Repr

/-- A datum or reply that had not returned at a save: one part of an access (R373). -/
structure Pending where
  dst   : PendingDst
  addr  : Word
  part  : Option (Xlat × Nat)         -- of a part not yet performed: its translation and its bytes
  slot  : Option SlotKey := none      -- of a part asked of a message slot
  op    : Option (AtomOp × Nat × Nat) -- an atomic's operation and operands
  pages : List TlbEntry := []         -- the translations that it keeps (R40)
  acq   : Nat := 0                    -- the scope of its acquire
  coro  : Word                        -- CORO, ASID and engagement slot of the issuer
  asid  : Nat
  eslot : Nat
  index : Nat := 0                    -- sweep index
  insn  : BitVec 32 := 0              -- the word of a `vatom`, whose failures are counted (R291)
  deriving DecidableEq, Repr

/-- What a message slot answers for one element (R180): the core, offset and bytes that it was asked for, and what it
read there or the cause for which it refused. -/
structure SlotReply where
  core  : Nat
  off   : Nat
  len   : Nat
  data  : List Byte
  cause : Option Cause
  deriving DecidableEq, Repr

/-- What a core's instruction has asked of message slots and of homes, and what has come back (R180, R227). -/
structure Flight where
  id      : Nat := 0                  -- number of its latest request
  pend    : List Pending := []        -- the parts of a scalar load's, atomic's or duplex instruction's datum
  held    : Bool := false             -- what has been sent cannot be sent again: posted stores, an atomic's elements
  asked   : Nat := 0                  -- elements that stand in a message slot's queue
  done    : Nat := 0                  -- elements in other cores' scratchpads that have been served or posted
  replies : List SlotReply := []
  xlats   : List (List (Xlat × Nat)) := []   -- translations of the elements of a store or atomic, kept from its issue
  pages   : List TlbEntry := []       -- the pages that they used (R40)
  deriving DecidableEq, Repr

/-- A failure met by a store at its destination, or in a pending datum, not yet taken (R373, R418). -/
structure Deferred where
  cause : Cause
  index : Nat
  addr  : Word
  insn  : BitVec 32
  member : Nat                        -- convoy position of the store (R365)
  store : Bool                        -- of a store: the record has DEF = 1
  aux   : Option Nat := none          -- of a `vatom` that a save has stopped: the elements that failed (R291)
  deriving DecidableEq, Repr

/-- An open strip (R243-R245, R287): its entries in use and the stores it holds, oldest first. -/
structure Strip where
  entries : Nat
  held    : List HeldStore
  shown   : List (Nat × Byte)         -- bytes that a fence has shown to the scalar unit (R127), latest first
  deriving DecidableEq, Repr

/-- The convoy in progress (R210, R273): pc of its first member, the word of each member, the position of the member
being executed, whether a member is one that is not interrupted (R275), and whether one works on elements of two widths: a
later member then needs more of a row than the groups of the same elements (R273). -/
structure Convoy where
  start   : Word
  members : List (BitVec 32)
  at_     : Nat
  whole   : Bool
  rows    : Bool
  deriving DecidableEq, Repr

/-- An uncorrectable bit of a register structure (R377, R378, R380). -/
inductive EccMark where
  | vreg (v : Fin 64) (byte : Nat) (readback : Bool)
  | mask (m : Fin 8) (bit : Nat) (readback : Bool)
  | acc (a : Fin 4) (row col : Nat) (readback : Bool)
  | sreg (r : Fin 32)
  | guard (g : Fin 8)
  | strip (i : Nat)                   -- an entry of the strip buffer, by the number of its store (R379)
  deriving DecidableEq, Repr

/-- A coroutine's state (R156, Table 1 of spec/06_execution_model.md), in the register files or saved. -/
structure Coro where
  cnum      : BitVec 10
  priv      : Bool
  asid      : BitVec 16
  inc       : BitVec 16
  launch    : Nat                     -- sequence number of its launch
  obj       : Option Nat              -- code object of its launch
  s         : Vector Word 32
  g         : BitVec 7
  pc        : Word
  vl        : BitVec 14
  rc        : BitVec 8
  vstride   : Word
  rstride   : Word
  vtype     : BitVec 4
  nreg      : BitVec 2
  wmax      : BitVec 2
  mshape    : BitVec 23
  vstart    : Vector VStart 4
  vcarry    : Word
  fflags    : BitVec 6
  frm       : BitVec 3
  lc        : Vector (BitVec 32) 4
  prio      : BitVec 5
  ceil      : BitVec 5
  stripBase : Word
  errV      : Bool
  errLane   : BitVec 5
  errRow    : BitVec 8
  errElem   : BitVec 14
  msegEn    : Bool
  msegToff  : BitVec 18
  msegNseg  : BitVec 16
  msegCur   : BitVec 16
  v         : Vector VReg 64
  m         : Vector Mask 7
  acc       : Vector Acc 4
  armed     : Option (Word × BitVec 32)
  woken     : Bool                    -- its wait has been met; the resumption clears it (R136)
  tags      : List (BitVec 16 × BitVec 8)
  strip     : Option Strip
  convoy    : Option Convoy
  -- bookkeeping of the core for this coroutine
  state     : CState
  place     : Place
  bytes     : Nat                     -- size of the saved context (R169)
  hasVec    : Bool                    -- the saved context holds a vector register or mask (R161)
  lostVec   : Bool                    -- LANE_RETIRED met: vector state reads zero at resumption (R161)
  passed    : Nat                     -- p of R175
  lastRun   : Nat                     -- stamp of its last selection, creation or save (R174)
  since     : Nat                     -- stamp of its suspension (R171)
  pending   : List Pending
  flight    : Option Flight           -- the instruction at `pc` waits for replies
  spillAt   : List Nat                -- blocks of the spill region that the saved context fills (R67)
  deferred  : Option Deferred
  ecc       : List EccMark
  badCtx    : Bool                    -- the saved context is uncorrectable (R380)
  killed    : Bool                    -- a kill waits for the end of its convoy (R275, R369)
  deriving DecidableEq, Repr

/-- What the register files of a core hold. -/
inductive Live where
  | idle                              -- no coroutine
  | running
  | held                              -- a Held coroutine (R173)
  deriving DecidableEq, Repr

/-- A relay shape record (R149): extents and strides of dimensions 1 to 3. -/
structure RShape where
  e0 : Nat
  e1 : Nat
  e2 : Nat
  e3 : Nat
  ss : Word × Word × Word
  ds : Word × Word × Word
  deriving DecidableEq, Repr

/-- A relay command in flight (R145-R147). -/
structure RelayCmd where
  src    : Word
  dst    : Word
  len    : Nat
  shape  : Option RShape
  baton  : Word
  asid   : BitVec 16
  slot   : Nat                        -- engagement slot of the issuer (R28, R145)
  priv   : Bool
  coro   : Word                       -- CORO of the issuer
  inc    : BitVec 16
  budget : Nat                        -- bytes left of the chunk being carried (R144)
  deriving DecidableEq, Repr

/-- States of a copy channel (R153). -/
inductive ChanState where
  | idle
  | inFlight
  | cancelling
  deriving DecidableEq, Repr

/-- A copy channel (R152 Table 11, R118, R119). -/
structure Chan where
  state  : ChanState
  can    : Bool
  shp    : Bool
  cause  : Cause
  done   : Nat
  wp     : Word
  dst    : Word
  contig : Bool
  cmd    : Option RelayCmd
  deriving DecidableEq, Repr

/-- An entry of the position translation buffer (R317, R318). -/
structure PtbEntry where
  asid   : BitVec 16
  stream : BitVec 16
  page   : BitVec 32
  base   : Word
  stamp  : Nat
  deriving DecidableEq, Repr

/-- A position-miss handler in progress (R319). -/
structure PxRun where
  saved  : Vector Word 32             -- the coroutine's own scalar registers; s24-s31 are restored
  pc     : Word                       -- of the pxl
  stream : BitVec 16
  page   : BitVec 32
  count  : Nat
  last   : Option Word                -- pc of a counted instruction that may be waiting
  insn   : BitVec 32                  -- word of the pxl
  deriving DecidableEq, Repr

/-- An active message (R298). -/
structure AMsg where
  sender  : Nat                       -- sender's core
  coro    : Word                      -- sender's CORO
  asid    : BitVec 16
  eslot   : Nat                       -- sender's engagement slot (R179)
  handler : Nat
  block   : Option Nat
  baton   : Word
  args    : List Word
  deriving DecidableEq, Repr

/-- An element that a cluster-window store brings to a message slot: where, what, and how a failure is reported. -/
structure SlotStore where
  off    : Nat
  data   : List Byte
  va     : Word
  idx    : Nat                        -- sweep index
  insn   : BitVec 32
  member : Nat                        -- convoy position of the store
  deriving DecidableEq, Repr

/-- An element that a cluster-window load or atomic asks of a message slot. -/
structure SlotAccess where
  core : Nat
  off  : Nat
  len  : Nat
  op   : Option (AtomOp × Nat × Nat)
  deriving DecidableEq, Repr

/-- A request in a message slot's queue, of up to 32 elements of one instruction, or a message (R180). -/
inductive SlotReq where
  | store (sender cnum inc : Nat) (els : List SlotStore)
  | access (sender cnum inc id : Nat) (els : List SlotAccess)
  | message (m : AMsg)
  deriving DecidableEq, Repr

/-- The message slot's handler in progress (R299): what the register files held before it, and its message. -/
structure SlotRun where
  saved : Coro
  live  : Live
  msg   : AMsg
  count : Nat
  last  : Option Word                 -- pc of a counted instruction that may be waiting
  deriving DecidableEq, Repr

/-- What a trap reports. `here` keeps the program counter as it stands: SYS_CALL, a `vatom` that failed while
applying its elements and a deferred store failure (R361). -/
structure Trap where
  cause    : Cause
  icause   : Cause := .none
  index    : Nat := 0
  addr     : Word := 0
  insn     : Option (BitVec 32) := none
  deferred : Bool := false
  here     : Bool := false
  aux      : Option Nat := none
  err      : Option Word := none      -- the error report of a data error (R378)
  member   : Option Nat := none       -- the position that a word would have taken in a convoy (R210, R365)
  deriving DecidableEq, Repr

/-- What the core does once the stores of its coroutine that stand in message slots' queues have been applied: a suspension
comes after them (R106). -/
inductive Drain where
  | trap (t : Trap)
  | preempt (why : PreemptWhy)
  deriving DecidableEq, Repr

/-- A core (R1, R50, R161, R170, R297, R317). -/
structure Core where
  id        : Nat                     -- die × 384 + cluster × 96 + core
  run       : Coro
  live      : Live
  coros     : List Coro               -- saved contexts, by coroutine number
  incs      : List (Nat × BitVec 16)
  lanemask  : BitVec 4
  spways    : Nat
  spillBase : BitVec 31
  spillEn   : Bool
  chans     : Vector Chan 8
  ptb       : List PtbEntry
  shadow    : Vector Word 8
  px        : Option PxRun
  pxLast    : Option (BitVec 16 × BitVec 32)   -- key of the miss whose pxl a pxret issues again (R319)
  handlers  : Vector (Option (BitVec 16 × Word)) 16
  queue     : List SlotReq
  slot      : Option SlotRun
  tlb       : List TlbEntry
  fetchTlb  : List TlbEntry           -- the fetch translation cache: leaves with X = 1 (R48)
  cut       : Option (List Nat × PreemptWhy)   -- groups that each member of the convoy still processes (R371, R372)
  drain     : Option Drain            -- the coroutine is to be saved once its posted stores are applied (R106)
  orphans   : List Pending            -- atomics of killed coroutines that are still to be performed (R369)
  regs      : List Word               -- batons the core is registered with (R137)
  inService : Bool
  touched   : BitVec 64               -- engagement slots (R405)
  first     : Option Nat              -- coroutine the next decision selects (R174)
  insn      : BitVec 32               -- the instruction word being executed (R365 INSN)
  deriving DecidableEq, Repr

/-- A fault record before it is written (R365). -/
structure Record where
  words : List Word
  deriving DecidableEq, Repr

/-- The fault queue of a die (R363, R364). -/
structure FaultQueue where
  en      : Bool
  base    : BitVec 40
  log     : BitVec 5
  lost    : BitVec 16
  head    : BitVec 32
  tail    : BitVec 32
  baton   : Word
  waiting : List Record
  deriving DecidableEq, Repr

/-- A baton record (R128-R143). -/
structure Baton where
  live    : Bool
  gen     : BitVec 24
  count   : BitVec 32
  err     : BitVec 8
  scope   : Fin 8
  opn     : Bool
  cl      : Bool
  bar     : Bool
  plog    : Nat
  group   : BitVec 16
  cgen    : BitVec 8
  owner   : BitVec 16
  creator : Option (Nat × Nat)        -- core and coroutine whose collective set holds the tag
  holds   : Nat                       -- producer references (R133)
  hostSig : Bool                      -- has received a host signal (R400)
  deriving DecidableEq, Repr

/-- A remap domain (R58, R61-R66). -/
structure Domain where
  thresh : BitVec 32
  oldok  : Bool
  mig    : Bool
  ie     : Bool
  nver   : BitVec 4
  ver    : BitVec 4
  func   : BitVec 3
  nfunc  : BitVec 3                   -- function a running migration moves to
  ofunc  : BitVec 3
  count  : BitVec 32
  moved  : Nat                        -- granules moved by the running migration (R65)
  gone   : Bool                       -- a spare domain withdrawn by a repair (R62)
  deriving DecidableEq, Repr

/-- The memory control registers other than the domains' (R58). -/
structure MemRegs where
  lpin0    : BitVec 10
  lpin1    : BitVec 10
  lset0    : Word
  lset1    : Word
  hevBaton : Word
  acBase   : BitVec 36
  acHBase  : BitVec 36
  acHLim   : BitVec 36
  acThresh : BitVec 16
  acRing   : BitVec 37
  acHead   : BitVec 32
  acTail   : BitVec 32
  acLost   : BitVec 32
  stmode   : Bool
  hevPend  : BitVec 1024
  pcmap    : List (Nat × BitVec 10)
  deriving DecidableEq, Repr

/-- State of a copy of an allocation (Table 3 of spec/03_switch_tier.md). -/
inductive AllocState where
  | live
  | mirrored
  | primaryOnly
  | partnerOnly
  | lost
  deriving DecidableEq, Repr

/-- An allocation (R81-R84, Table 3 of spec/03_switch_tier.md). -/
structure Alloc where
  plane  : Nat
  tag    : Nat
  base   : Nat                        -- in 64 KiB units
  units  : Nat
  aseq   : Nat
  tenant : Nat
  mirror : Bool
  state  : AllocState
  left   : Bool                       -- the partner serves it while the primary still lists it (R92)
  waits  : Option Nat                 -- the failed plane a Lost allocation waits for
  deriving DecidableEq, Repr

/-- A switch plane (R77, R80, R83, R85, R90, R94, R95). -/
structure Plane where
  up      : Bool                      -- in service at the plane itself
  gen     : BitVec 32
  aseq    : Nat
  quotas  : List (Nat × Nat)          -- per tenant, in 64 KiB units
  seqs    : List (Nat × Nat)          -- write sequence per granule
  written : List Nat                  -- granules written since their zeroing
  seals   : List (Nat × (KeyMat × Nat))   -- key a granule is sealed under, and the plane of its nonce (R94)
  locks   : List (Nat × SwitchReq)    -- granules locked for a merge, with the store that holds the lock
  held    : List (Bool × SwitchReq)   -- accesses held back by a lock, in order of arrival; failover ones marked
  deriving DecidableEq, Repr

/-- The switch-tier registers (R96). -/
structure SwRegs where
  tid   : List (Nat × (Bool × BitVec 16))
  baton : Word
  up    : BitVec 18
  chg   : BitVec 18
  gen   : List (Nat × BitVec 32)
  deriving DecidableEq, Repr

/-- A starter queue's configuration (R344). -/
structure QCfg where
  depth : BitVec 8
  free  : Bool
  en    : Bool
  deriving DecidableEq, Repr

/-- Where a queue record stands (R345-R357). -/
inductive RecState where
  | queued
  | running
  | unloading
  deriving DecidableEq, Repr

/-- A queue record the starter has accepted (R341-R351). -/
structure QRec where
  seq      : Nat
  type     : Nat
  queue    : Nat
  prio     : Nat
  flags    : Nat
  code     : Nat
  asid     : BitVec 16
  entry    : Nat
  levels   : List (Nat × Nat)         -- kind and count of each present level, outermost first
  pc       : Word                     -- first instruction of its coroutines
  arg      : Word
  deps     : List (Word × BitVec 32)
  sbaton   : Word
  amount   : Nat
  cbaton   : Word
  cwaddr   : Word
  tag      : Word
  state    : RecState
  passed   : Nat
  heldFor  : Nat                      -- consecutive decisions held (R348)
  blocking : Bool
  ncoro    : Nat                      -- coroutines created, spawned ones included
  alive    : Nat                      -- of them, not yet ended
  killed   : Bool
  fflags   : BitVec 6
  deriving DecidableEq, Repr

/-- A code object (R354-R357). -/
structure CodeObj where
  num     : Nat
  pending : Bool                      -- unload pending
  image   : Word
  size    : Nat
  entries : List (Word × List (Nat × Nat))   -- start address and default levels of each entry
  holders : List Nat                  -- queues that hold it
  closed  : List Nat                  -- queues with an accepted unload (R356)
  deriving DecidableEq, Repr

/-- The starter (R343-R352). -/
structure Starter where
  jno     : Nat                       -- last journal number
  queues  : List (Nat × QCfg)
  stcap   : BitVec 6
  slBase  : BitVec 40
  slLog   : BitVec 5
  slHead  : Word
  recs    : List QRec                 -- accepted and not completed, by sequence number
  objs    : List CodeObj
  lastQ   : List (Nat × Nat)          -- queue that last dispatched at each E
  deriving DecidableEq, Repr

/-- The coroutine-control block of a die (R366, R367). -/
structure Ccb where
  target : Option Nat                 -- CLUS, CORE and CNUM of the open window
  status : BitVec 8
  deriving DecidableEq, Repr

/-- A range monitor (R396, R411). -/
structure Monitor where
  en    : Bool
  wr    : Bool
  rd    : Bool
  stall : Bool
  base  : BitVec 40
  limit : BitVec 40
  deriving DecidableEq, Repr

/-- What runs behind SCRSTAT.BUSY (R405, R409). -/
inductive ScrubJob where
  | scrub (slot : Nat) (erase : Bool) (dest : Nat) (ranges : List Word)
  | attest (dest : Nat) (nonce : List Byte)
  deriving DecidableEq, Repr

/-- The system registers (R396). -/
structure SysRegs where
  ownV      : Bool
  ownMaster : BitVec 2
  ownLv     : Bool
  ownLast   : BitVec 2
  ownGen    : BitVec 16
  reload    : BitVec 32
  left      : BitVec 32
  hsdrop    : BitVec 8
  bootfail  : Bool
  scrub     : Bool
  link      : Bool
  fabtr     : Bool
  memtr     : Bool
  mhz       : BitVec 12
  svc       : BitVec 2
  sysBaton  : Word
  job       : Option ScrubJob
  scrSeq    : BitVec 32
  scrStatus : BitVec 8
  monBase   : BitVec 40
  monLog    : BitVec 5
  monHead   : BitVec 32
  monTail   : BitVec 32
  monLost   : BitVec 32
  pwrcap    : BitVec 16
  repChan   : BitVec 10
  repCount  : BitVec 8
  monitors  : List (Nat × Monitor)
  deriving DecidableEq, Repr

/-- An outstanding maintenance operation (R39, R40, R43, R36). -/
inductive MaintKind where
  | va (addr : Word) (asid : Nat)
  | asid (asid : Nat)
  | glob
  | retire (asid : Nat)
  deriving DecidableEq, Repr

structure Maint where
  kind  : MaintKind
  baton : Word
  deriving DecidableEq, Repr

/-- How far a clean-up has come (R336, R338): it waits for its turn; pages detached; the invalidation; the tag of a slot of
the primary or the mirror ring, read before or after the copy; beats copied; its parts have ended, or one has failed. -/
inductive CleanStage where
  | queued
  | detach (k : Nat)
  | positions
  | tag (mirror again : Bool)
  | copy (mirror : Bool) (beat : Nat)
  | ended
  | failed
  deriving DecidableEq, Repr

/-- A duplex clean-up, queued or running (R322, R336-R338). -/
structure Cleanup where
  record : Nat                        -- system physical address of the stream record
  va     : Word                       -- its virtual address
  key    : Nat                        -- key slot of its page
  cursor : Nat
  oldG   : Nat                        -- GCUR before the truncation
  baton  : Word
  asid   : BitVec 16
  slot   : Nat                        -- engagement slot of the truncating coroutine
  priv   : Bool
  coro   : Word
  inc    : BitVec 16
  stage  : CleanStage
  rec_   : Nat                        -- the record's bytes as its start has read them
  deriving DecidableEq, Repr

/-- A message the module has sent on the fabric to other modules (R139, R154). -/
inductive FabricMsg where
  | signal (handle : Word) (kind : RemoteKind)
  | reply (sender : Nat) (handle : Word) (refused : Option Cause) (target : BitVec 32)   -- of a barrier arrival
  | abort (to_ plane : Nat) (group : BitVec 16) (cgen : BitVec 8)
  deriving DecidableEq, Repr

/-- What the module answers a host request on the Olivon link with (R397, R401, R402). -/
structure LinkReply where
  master   : Nat
  error    : Bool                     -- an error completion
  poisoned : Bool
  data     : List Byte
  deriving DecidableEq, Repr

/-- Which of the waiting agents moves next (log 3). -/
inductive Turn where
  | core                              -- the core in focus
  | event (k : Nat)                   -- the k-th entry of the agenda
  | focus (core : Nat)                -- another core comes into focus
  | input (e : Event)                 -- a step from outside the module, or one whose time has come (log 3, 12)
  deriving DecidableEq, Repr

/-- Whose turn it is where no schedule says: background work, the next busy core, or the core in focus (log 3). -/
inductive Phase where
  | background
  | focus
  | core
  deriving DecidableEq, Repr

/-- A line of a core's L1 data cache (R49, R113 to R116). -/
structure L1Line where
  core  : Nat
  line  : Nat                         -- storage address ÷ 64
  way   : Nat
  x     : Xlat                        -- the translation of its last access: key and counting (R27, R70)
  coro  : Word                        -- of that access, as its write-back names them
  asid  : Nat
  slot  : Nat
  data  : BitVec 512
  have_ : BitVec 64                   -- bytes held
  dirty : BitVec 64                   -- bytes stored and not written back
  owned : BitVec 16                   -- words registered at the home slice
  bad   : BitVec 16                   -- words with an uncorrectable error (R379)
  deriving DecidableEq, Repr

/-- A line of the second-level cache (R56, R57, R69): its contents are those of memory, and `under` keeps what HBM
holds beneath a dirty one, with the keys of its blocks (R405). -/
structure L2Line where
  line  : Nat                         -- storage address ÷ 128
  slice : Nat
  way   : Nat
  slot  : Nat                         -- engagement slot it was filled under
  kept  : Bool                        -- retained (R69)
  under : Option (List Byte × List (Nat × KeyMat))
  deriving DecidableEq, Repr

/-- A pointer entry held by a die's walk cache (Table 12 of spec/01_address_spaces.md): the level of the entry, the
virtual address above that level's offset, and where the next table lies. -/
structure WalkEntry where
  die   : Nat
  asid  : Nat
  level : Nat
  upper : Nat                         -- virtual address ÷ the bytes that an entry of the level covers
  next  : Nat
  deriving DecidableEq, Repr

/-- The caches (R48, R49, R56). -/
structure Caches where
  l1     : List L1Line
  l2     : List L2Line
  walks  : List WalkEntry
  asids  : List (Nat × Nat × Nat)     -- per die: ASID and its entry, bound
  relays : List (Nat × TlbEntry)      -- translation caches of the relay engines, by cluster × 8 + engine
  deriving DecidableEq, Repr

/-- A relay engine at work (R144): its number, cluster × 8 + engine, and the channel whose chunk it carries. -/
structure Engine where
  id   : Nat
  core : Nat
  ch   : Nat
  deriving DecidableEq, Repr

/-- The module, with the pod's switch planes as it meets them. -/
structure State where
  mem      : Memory
  poison   : List Nat                 -- poisoned 64-byte halves, by storage address ÷ 64 (R379)
  padPoison : List Nat                -- poisoned 4-byte words of scratchpads, by storage address ÷ 4 (R379)
  sealKeys : List (Nat × KeyMat)       -- key that each 16-byte block was last written under (R27)
  core     : Core                     -- the core in focus
  others   : List Core                -- other cores that have left their reset state
  asidBase : BitVec 33
  asidEn   : Bool
  fq       : Vector FaultQueue 16
  batons   : List (Nat × Baton)       -- key: die × 2^18 + index
  memRegs  : MemRegs
  domains  : List (Nat × Domain)
  planes   : Vector Plane 18
  allocs   : List Alloc
  swRegs   : SwRegs
  lastGrant : Option Nat
  starter  : Starter
  ccb      : Vector Ccb 16
  sys      : SysRegs
  keys     : List (Nat × BitVec 256)  -- keys held in slots 1 to 63; slot 0 holds the module key (R27)
  maint    : List (Nat × Maint)       -- outstanding operations with their die
  cleanups : List Cleanup
  hostOut  : List Word                -- values sent to the owner master (R399)
  linkOut  : List LinkReply           -- answers to the requests of host masters
  fabric   : List FabricMsg
  aborts   : List (Nat × Nat × Nat)   -- collective aborts acted on: sender, GROUP, CGEN
  hostDirty : List (Nat × Byte)       -- kind-1 bytes written while the link is down (R400)
  peers    : List (Nat × List (Nat × KeyMat))   -- other modules of the pod and the keys in their slots (log 6)
  caches   : Caches
  engines  : List Engine              -- relay engines that carry a chunk (R144)
  lastChan : List (Nat × Nat)         -- per cluster, the channel served last: core × 8 + channel
  agenda   : List Event
  sched    : List Turn
  phase    : Phase                    -- whose turn it is where no schedule says (log 3)
  fresh    : Nat
  stamp    : Nat
  stopped  : Bool
  deriving DecidableEq, Repr

/-- Why a step stops with a fault. -/
inductive Fault where
  /-- Raised by `step` alone, once the module has stopped at 115 °C (R416); safe. -/
  | moduleStopped
  deriving DecidableEq, Repr

/-- Why a step is refused. -/
inductive Refusal where
  /-- An instruction without a meaning yet, by its mnemonic, raised by its arm of `exec`; safe. -/
  | notModelled (mnemonic : String)
  deriving DecidableEq, Repr

/-- Outcome of a step or a meaning. -/
abbrev Res := Host.Outcome State Fault Refusal

/-- The register-file contents of a core on which no coroutine has run: the values of R163 with every argument
zero (log 4). -/
def Coro.blank : Coro where
  cnum := 0
  priv := false
  asid := 0
  inc := 0
  launch := 0
  obj := none
  s := Vector.replicate 32 0
  g := 0
  pc := 0
  vl := 512
  rc := 1
  vstride := 0
  rstride := 0
  vtype := 6
  nreg := 2
  wmax := 2
  mshape := 0
  vstart := Vector.replicate 4 ⟨0, 0⟩
  vcarry := 0
  fflags := 0
  frm := 0
  lc := Vector.replicate 4 0
  prio := 0
  ceil := 0
  stripBase := 0
  errV := false
  errLane := 0
  errRow := 0
  errElem := 0
  msegEn := false
  msegToff := 0
  msegNseg := 0
  msegCur := 0
  v := Vector.replicate 64 0
  m := Vector.replicate 7 0
  acc := Vector.replicate 4 0
  armed := none
  woken := false
  tags := []
  strip := none
  convoy := none
  state := .running
  place := .files
  bytes := 0
  hasVec := false
  lostVec := false
  passed := 0
  lastRun := 0
  since := 0
  pending := []
  flight := none
  spillAt := []
  deferred := none
  ecc := []
  badCtx := false
  killed := false

/-- A copy channel that has carried no command (R152). -/
def Chan.reset : Chan := ⟨.idle, false, false, .none, 0, 0, 0, true, none⟩

/-- A core after module reset. -/
def Core.reset (id : Nat) : Core where
  id := id
  run := Coro.blank
  live := .idle
  coros := []
  incs := []
  lanemask := 0xF
  spways := 0
  spillBase := 0
  spillEn := false
  chans := Vector.replicate 8 Chan.reset
  ptb := []
  shadow := Vector.replicate 8 0
  px := none
  pxLast := none
  handlers := Vector.replicate 16 none
  queue := []
  slot := none
  tlb := []
  fetchTlb := []
  cut := none
  drain := none
  orphans := []
  regs := []
  inService := true
  touched := 0
  first := none
  insn := 0

/-- A remap domain after module reset (R58): the spare domains carry the linear function. -/
def Domain.reset (d : Nat) : Domain where
  thresh := 0xFFFFFFFF
  oldok := false
  mig := false
  ie := false
  nver := 0
  ver := 0
  func := if 1021 ≤ d then 2 else 0
  nfunc := 0
  ofunc := 0
  count := 0
  moved := 0
  gone := false

def MemRegs.reset : MemRegs where
  lpin0 := 0
  lpin1 := 0
  lset0 := 0
  lset1 := 0
  hevBaton := 0
  acBase := 0
  acHBase := 0
  acHLim := 0
  acThresh := 0
  acRing := 0
  acHead := 0
  acTail := 0
  acLost := 0
  stmode := true
  hevPend := 0
  pcmap := []

def Plane.reset : Plane := ⟨true, 0, 0, [], [], [], [], [], []⟩

def Starter.reset : Starter := ⟨0, [], 1, 0, 8, 0, [], [], []⟩

/-- The system registers after module reset (R396 Table 2), before firmware has been verified. -/
def SysRegs.reset : SysRegs where
  ownV := false
  ownMaster := 0
  ownLv := false
  ownLast := 0
  ownGen := 0
  reload := 0x10000
  left := 0
  hsdrop := 0
  bootfail := false
  scrub := false
  link := false
  fabtr := false
  memtr := false
  mhz := 400
  svc := 0
  sysBaton := 0
  job := none
  scrSeq := 0
  scrStatus := 0
  monBase := 0
  monLog := 8
  monHead := 0
  monTail := 0
  monLost := 0
  pwrcap := 3600
  repChan := 0
  repCount := 0
  monitors := []

def FaultQueue.reset : FaultQueue := ⟨false, 0, 6, 0, 0, 0, 0, []⟩

def SwRegs.reset : SwRegs := ⟨[], 0, 0, 0, []⟩

/-- The module right after reset: every register at the reset value of its field map, memory with nothing listed, no
coroutine (R413; log 2 says how a program comes to run). -/
def State.reset : State where
  mem := []
  poison := []
  padPoison := []
  sealKeys := []
  core := Core.reset 0
  others := []
  asidBase := 0
  asidEn := false
  fq := Vector.replicate 16 FaultQueue.reset
  batons := []
  memRegs := MemRegs.reset
  domains := []
  planes := Vector.replicate 18 Plane.reset
  allocs := []
  swRegs := SwRegs.reset
  lastGrant := none
  starter := Starter.reset
  ccb := Vector.replicate 16 ⟨none, 0⟩
  sys := SysRegs.reset
  keys := []
  maint := []
  cleanups := []
  hostOut := []
  linkOut := []
  fabric := []
  aborts := []
  hostDirty := []
  peers := []
  caches := ⟨[], [], [], [], []⟩
  engines := []
  lastChan := []
  agenda := []
  sched := []
  phase := .background
  fresh := 0
  stamp := 0
  stopped := false

end Sys2Proof.Machine
end

