-- ==== Sys2Proof/Machine/Mem.lean ====
section
/-! DEFINITION. Memory as one sparse list in canonical form: addresses strictly rising, no entry equal to what an
unlisted address reads as, which is zero (log 1). Storage addresses are natural numbers: HBM at its system physical
address (R14), host memory, other modules' HBM, the switch planes and the scratchpads above it. -/

namespace Sys2Proof.Machine

/-- What an unlisted address reads as (log 1). -/
def Memory.unlisted : Byte := 0

/-- The byte at a storage address. -/
def Memory.get : Memory → Nat → Byte
  | [], _ => Memory.unlisted
  | c :: cs, a => if a < c.1 then Memory.unlisted else if a = c.1 then c.2 else Memory.get cs a

/-- `m` with one byte stored; storing what an unlisted address reads as removes the entry. -/
def Memory.set : Memory → Nat → Byte → Memory
  | [], a, b => if b = Memory.unlisted then [] else [(a, b)]
  | c :: cs, a, b =>
    if a < c.1 then (if b = Memory.unlisted then c :: cs else (a, b) :: c :: cs)
    else if a = c.1 then (if b = Memory.unlisted then cs else (a, b) :: cs)
    else c :: Memory.set cs a b

/-- Whether every entry lies at or above `lo`, addresses rise strictly and no entry is zero. -/
def Memory.wfFrom : Nat → Memory → Bool
  | _, [] => true
  | lo, c :: cs => decide (lo ≤ c.1) && c.2 != Memory.unlisted && Memory.wfFrom (c.1 + 1) cs

/-- The canonical form. -/
def Memory.wf (m : Memory) : Bool := Memory.wfFrom 0 m

/-- `n` bytes from address `a` on. -/
def Memory.read (m : Memory) (a : Nat) : Nat → List Byte
  | 0 => []
  | n + 1 => m.get a :: Memory.read m (a + 1) n

/-- Bytes stored from address `a` on. -/
def Memory.write (m : Memory) (a : Nat) : List Byte → Memory
  | [] => m
  | b :: bs => Memory.write (m.set a b) (a + 1) bs

/-- Every byte from `lo` up to but not including `hi` back to zero. -/
def Memory.erase (m : Memory) (lo hi : Nat) : Memory := m.filter (fun c => c.1 < lo || hi ≤ c.1)

/-- Entries of bytes from address `a` on. -/
def Memory.listing (a : Nat) : List Byte → Memory
  | [] => []
  | b :: bs => if b = Memory.unlisted then Memory.listing (a + 1) bs else (a, b) :: Memory.listing (a + 1) bs

/-- A long run of bytes stored from address `a` on. -/
def Memory.splice (m : Memory) (a : Nat) (bs : List Byte) : Memory :=
  m.filter (fun c => c.1 < a) ++ Memory.listing a bs ++ m.filter (fun c => a + bs.length ≤ c.1)

/-- A little-endian number of `n` bytes (R5). -/
def Memory.readNat (m : Memory) (a n : Nat) : Nat := leNat (m.read a n)

/-! Where the storages lie (the model's numbering). -/

/-- Host physical address 0. -/
def hostStore : Nat := 2 ^ 60
/-- HBM offset 0 of module `m` of the pod. -/
def podStore (m : Nat) : Nat := 2 ^ 61 + m * 2 ^ 40
/-- Offset 0 of switch plane `p`. -/
def planeStore (p : Nat) : Nat := 2 ^ 62 + p * 2 ^ 42
/-- Offset 0 of the scratchpad of a core (R49). -/
def padStore (core : Nat) : Nat := 2 ^ 63 + core * 2 ^ 18

/-- Storage address of the byte at system physical address `pa` of this module's HBM. -/
def hbmStore (pa : Nat) : Nat := pa

end Sys2Proof.Machine
end

