-- ==== Sys2Proof/Machine/Caches.lean ====
section
/-! DEFINITION. The caches as data (spec/02_memory_hierarchy.md R49, R56, R57, R69, spec/04_consistency.md R113 to R116): home
slices, the lines of the second-level cache, and the bytes, words and ways of an L1 line. -/

namespace Sys2Proof.Machine

/-! ## Home slices (R56, R57) -/

/-- Home slice of a line by the normal hash (R56). -/
def homeSlice (pa : Nat) : Nat :=
  bits pa 16 7 ^^^ bits pa 26 17 ^^^ bits pa 36 27 ^^^ bits pa 46 37 ^^^ bits pa 51 47

/-- Set bits among the low `n` bits. -/
def popLow : Nat → Nat → Nat
  | 0, _ => 0
  | n + 1, x => x % 2 + popLow n (x / 2)

/-- Position of set bit number `n` of a mask, from position `p` on. -/
def nthBit : Nat → Nat → Nat → Nat → Nat
  | 0, p, _, _ => p
  | fuel + 1, p, m, n =>
    if m % 2 = 0 then nthBit fuel (p + 1) (m / 2) n
    else if n = 0 then p else nthBit fuel (p + 1) (m / 2) (n - 1)

/-- The slice of a subset spread: the home die of the hash, and a set bit of the mask (R57). -/
def subsetSlice (mask h : Nat) : Nat :=
  if mask = 0 then h else h / 64 * 64 + nthBit 64 0 mask (h % 64 % popLow 64 mask)

/-- The slice in which a line is allocated, for an agent of die `die` through a leaf whose BSKEW is `skew` (R25, R57). -/
def MemRegs.placeSlice (r : MemRegs) (skew die pa : Nat) : Nat :=
  let h := homeSlice pa
  if !r.stmode then h
  else match skew with
    | 1 => r.lpin0.toNat
    | 2 => r.lpin1.toNat
    | 3 => subsetSlice r.lset0.toNat h
    | 4 => subsetSlice r.lset1.toNat h
    | 5 => die * 64 + h % 64
    | _ => h

/-! ## The second-level cache (R56, R69) -/

/-- Sets of a slice: 12 MiB in 16 ways of 128-byte lines (R56). -/
def l2SetOf (line : Nat) : Nat := Config.l2Set line % 6144

def Caches.l2Line (c : Caches) (line : Nat) : Option L2Line := c.l2.find? (·.line == line)

/-- Lines that share a slice and a set. -/
def Caches.l2Mates (c : Caches) (slice line : Nat) : List L2Line :=
  c.l2.filter (fun l => l.slice == slice && l2SetOf l.line == l2SetOf line)

/-- Whether a set may retain one more line (R69). -/
def mayKeep (mates : List L2Line) : Bool := (mates.filter (·.kept)).length < 4

/-- The line that leaves a full set: a retained one only when no other is there (R69). -/
def l2Victim (line : Nat) (mates : List L2Line) : Option L2Line :=
  let plain := mates.filter (!·.kept)
  let pool := if plain.isEmpty then mates else plain
  pool[Config.l2Victim line (pool.map (·.line)) % pool.length]?

/-- A line that is not there is allocated in its slice, in a free way or in the victim's (R56, R69). -/
def Caches.l2Alloc (c : Caches) (line slice slot : Nat) (keep : Bool) : Caches :=
  match c.l2Line line with
  | some l =>
    if keep && !l.kept && mayKeep (c.l2Mates l.slice line) then
      { c with l2 := c.l2.map (fun x => if x.line == line then { x with kept := true } else x) }
    else c
  | none =>
    let mates := c.l2Mates slice line
    let new (way : Nat) : L2Line := ⟨line, slice, way, slot, keep && mayKeep mates, none⟩
    match (List.range 16).find? (fun w => !mates.any (·.way == w)) with
    | some w => { c with l2 := new w :: c.l2 }
    | none => match l2Victim line mates with
      | none => c
      | some v => { c with l2 := new v.way :: c.l2.filter (·.line != v.line) }

/-! ## The L1 (R49, R113 to R116) -/

/-- Bits of `n` bytes from byte `i` of a line. -/
def byteMask (i n : Nat) : BitVec 64 := BitVec.ofNat 64 ((2 ^ n - 1) * 2 ^ i)

/-- Whether a line of 64 bytes lies among `n` bytes from a storage address on, in part; and the bytes of it that do. -/
def lineIn (line a n : Nat) : Bool := decide (a < line * 64 + 64) && decide (line * 64 < a + n)
def lineMask (line a n : Nat) : BitVec 64 :=
  byteMask (a - line * 64) (min (a + n) (line * 64 + 64) - max a (line * 64))

/-- The bytes of the words that a mask of a line's 16 words names. -/
def wordBytes (m : BitVec 16) : BitVec 64 :=
  (List.range 16).foldl (fun b w => if m.getLsbD w then b ||| byteMask (4 * w) 4 else b) 0

/-- The words that some byte of a mask lies in. -/
def wordsOf (m : BitVec 64) : BitVec 16 :=
  (List.range 16).foldl (fun b w => if m &&& byteMask (4 * w) 4 = 0 then b else b ||| (1#16 <<< w)) 0

/-- The words that lie wholly in a mask. -/
def wholeWords (m : BitVec 64) : BitVec 16 :=
  (List.range 16).foldl (fun b w => if m &&& byteMask (4 * w) 4 = byteMask (4 * w) 4 then b ||| (1#16 <<< w) else b) 0

def L1Line.byte (l : L1Line) (i : Nat) : Byte := l.data.extractLsb' (8 * i) 8

/-- `n` bytes from byte `i` on. -/
def L1Line.get (l : L1Line) (i n : Nat) : List Byte := (List.range n).map (fun k => l.byte (i + k))

/-- Whether the line holds all of `n` bytes from byte `i` on. -/
def L1Line.holds (l : L1Line) (i n : Nat) : Bool := l.have_ &&& byteMask i n == byteMask i n

/-- Whether a dirty word among those bytes is uncorrectable (R379). -/
def L1Line.spoiled (l : L1Line) (i n : Nat) : Bool := wordsOf (byteMask i n) &&& l.bad != 0

/-- Bytes put in place. -/
def L1Line.put (l : L1Line) (i : Nat) (bs : List Byte) : L1Line :=
  let m := BitVec.ofNat 512 ((2 ^ (8 * bs.length) - 1) * 2 ^ (8 * i))
  { l with data := (l.data &&& ~~~m) ||| BitVec.ofNat 512 (leNat bs * 2 ^ (8 * i)), have_ := l.have_ ||| byteMask i bs.length }

/-- The bytes that an acquire keeps: the dirty ones, and the words registered to the core (R116). What else is held of a dirty
word may be older than what its home holds, and leaves (R110, log 35). -/
def L1Line.kept (l : L1Line) : BitVec 64 := l.have_ &&& (l.dirty ||| wordBytes l.owned)

/-- The bytes of the line's home, but for those: what the line holds clean is read again with the rest (R112). -/
def L1Line.fill (l : L1Line) (home : List Byte) : L1Line :=
  let bs := (List.range 64).map (fun i => if l.kept.getLsbD i then l.byte i else home.getD i 0)
  { l with data := BitVec.ofNat 512 (leNat bs), have_ := BitVec.ofNat 64 (2 ^ 64 - 1) }

/-- A store's bytes: they are dirty, and words written whole are good again (R113, R379). -/
def L1Line.store (l : L1Line) (i : Nat) (bs : List Byte) : L1Line :=
  let m := byteMask i bs.length
  let l1 := l.put i bs
  { l1 with dirty := l1.dirty ||| m, bad := l1.bad &&& ~~~ wholeWords m }

/-- Dirty words that are not registered. -/
def L1Line.loose (l : L1Line) : BitVec 16 := wordsOf l.dirty &&& ~~~ l.owned

/-- Some words leave the line. -/
def L1Line.drop (l : L1Line) (ws : BitVec 16) : L1Line :=
  let m := ~~~ wordBytes ws
  { l with have_ := l.have_ &&& m, dirty := l.dirty &&& m, owned := l.owned &&& ~~~ ws, bad := l.bad &&& ~~~ ws }

/-- What an acquire does not keep leaves (R116). -/
def L1Line.acquired (l : L1Line) : L1Line := { l with have_ := l.kept }

/-- Words are registered to the core: of each only the dirty bytes stay, for the others may be older than what its home holds
(R110, R113, log 35). -/
def L1Line.register (l : L1Line) (ws : BitVec 16) : L1Line :=
  { l with owned := l.owned ||| ws, have_ := l.have_ &&& (l.dirty ||| ~~~ wordBytes ws) }

/-- Runs of set bytes of a mask: where each begins, and its bytes. -/
def L1Line.runs (l : L1Line) (m : BitVec 64) : List (Nat × List Byte) :=
  (List.range 64).foldr (fun i rs =>
    if !m.getLsbD i then rs
    else match rs with
      | (k, bs) :: rest => if k = i + 1 then (i, l.byte i :: bs) :: rest else (i, [l.byte i]) :: rs
      | [] => [(i, [l.byte i])]) []

/-- The lines of the L1s changed, those that hold nothing left out. -/
def Caches.mapL1 (c : Caches) (f : L1Line → L1Line) : Caches :=
  { c with l1 := (c.l1.map f).filter (fun l => l.have_ != 0) }

/-- Words registered to cores that `p` selects, among `n` bytes at a home, leave their L1s: the home has taken them (R115). -/
def Caches.revoke (c : Caches) (p : Nat → Bool) (store n : Nat) : Caches :=
  c.mapL1 (fun l => if lineIn l.line store n && p l.core then l.drop (wordsOf (lineMask l.line store n) &&& l.owned) else l)

/-- The same of some words of one line. -/
def Caches.revokeWords (c : Caches) (p : Nat → Bool) (line : Nat) (ws : BitVec 16) : Caches :=
  c.mapL1 (fun l => if l.line == line && p l.core then l.drop (ws &&& l.owned) else l)

def Caches.l1Line (c : Caches) (core line : Nat) : Option L1Line := c.l1.find? (fun l => l.core == core && l.line == line)

/-- A line put in place of the one it continues, or joined. -/
def Caches.setL1 (c : Caches) (l : L1Line) : Caches :=
  { c with l1 := l :: c.l1.filter (fun x => !(x.core == l.core && x.line == l.line)) }

def Caches.dropL1 (c : Caches) (core line : Nat) : Caches :=
  { c with l1 := c.l1.filter (fun x => !(x.core == core && x.line == line)) }

/-- The lines of a core's set: line number mod 512 (log 25). -/
def Caches.l1Mates (c : Caches) (core line : Nat) : List L1Line :=
  c.l1.filter (fun l => l.core == core && l.line % 512 == line % 512)

/-- The way that a new line takes, with the line that it puts out: the lowest way of the L1 that is free, or the
victim's (R49). -/
def Caches.l1Way (c : Caches) (core spways line : Nat) : Nat × Option L1Line :=
  let mates := c.l1Mates core line
  match (List.range 8).find? (fun w => spways ≤ w && !mates.any (·.way == w)) with
  | some w => (w, none)
  | none => match mates[Config.l1Victim line (mates.map (·.line)) % mates.length]? with
    | none => (spways, none)
    | some v => (v.way, some v)

end Sys2Proof.Machine
end

