-- ==== Sys2Proof/Machine/Ops.lean ====
section
/-! DEFINITION. The named operations that every meaning shares: registers and guards, the focus on one core, baton
signals, fault records, the placing of contexts, taking a trap and returning from one. -/

namespace Sys2Proof.Machine

/-! ## Registers of the coroutine in the register files (R156) -/

/-- s0 reads zero (R156). -/
def Coro.getS (c : Coro) (r : Fin 32) : Word := if r = 0 then 0 else c.s[r]

/-- A write to s0 is discarded (R225). -/
def Coro.setS (c : Coro) (r : Fin 32) (v : Word) : Coro := if r = 0 then c else { c with s := c.s.set r v }

/-- g7 reads true (R156). -/
def Coro.getG (c : Coro) (i : Fin 8) : Bool := i = 7 || c.g.getLsbD i

/-- g7 is never written. -/
def Coro.setG (c : Coro) (i : Fin 8) (b : Bool) : Coro :=
  if i = 7 then c else { c with g := (c.g &&& ~~~ (1#7 <<< i.val)) ||| ((if b then 1#7 else 0#7) <<< i.val) }

/-- A loaded value of `n` bytes, zero-extended, or sign-extended (R276). -/
def zextBytes (bs : List Byte) : Word := w64 (leNat bs)
def sextBytes (n : Nat) (bs : List Byte) : Word := BitVec.ofInt 64 (toSigned (8 * n) (leNat bs))
def extBytes (n : Nat) (signed : Bool) (bs : List Byte) : Word := if signed then sextBytes n bs else zextBytes bs

/-- The low `n` bytes of a register, as a store writes them. -/
def lowBytes (n : Nat) (v : Word) : List Byte := leBytes n v.toNat

/-- Bytes from byte `o` of a register on, `n` of them, as a number. -/
def VReg.get (x : VReg) (o n : Nat) : Nat := x.toNat / 2 ^ (8 * o) % 2 ^ (8 * n)

/-- Those bytes replaced. -/
def VReg.put (x : VReg) (o n v : Nat) : VReg := BitVec.ofNat 65536 (setBits x.toNat (8 * (o + n) - 1) (8 * o) v)

/-- Whether a class S guard enables its instruction (R203). -/
def Coro.guardOn (c : Coro) (g : Guard) : Bool := c.getG g.idx != g.neg

/-- The coroutine in the register files of the core in focus, changed. -/
def State.modCore (s : State) (f : Core → Core) : State := { s with core := f s.core }
def State.modRun (s : State) (f : Coro → Coro) : State := { s with core := { s.core with run := f s.core.run } }

def State.getS (s : State) (r : Fin 32) : Word := s.core.run.getS r
def State.setS (s : State) (r : Fin 32) (v : Word) : State := s.modRun (·.setS r v)
def State.setG (s : State) (i : Fin 8) (b : Bool) : State := s.modRun (·.setG i b)
def State.setPc (s : State) (v : Word) : State := s.modRun (fun c => { c with pc := v })

/-- The program counter moves to the next word (R201). -/
def State.advance (s : State) : State := s.setPc (s.core.run.pc + 4)

/-- A class S instruction whose guard is false changes nothing but the program counter (R204). -/
def State.guarded (s : State) (g : Guard) (f : State → State) : State :=
  if s.core.run.guardOn g then f s else s.advance

/-- A guard or mask pair as R230 writes it: `d[2..0]` receives `b`, and `d[5..3]`, when it differs, its complement. -/
def pairLo (d : Fin 64) : Fin 8 := ⟨d.val % 8, Nat.mod_lt _ (by decide)⟩
def pairHi (d : Fin 64) : Fin 8 := ⟨d.val / 8, by have := d.isLt; omega⟩
def Coro.setGPair (c : Coro) (d : Fin 64) (b : Bool) : Coro :=
  if pairLo d = pairHi d then c.setG (pairLo d) b else (c.setG (pairLo d) b).setG (pairHi d) (!b)
def State.setGPair (s : State) (d : Fin 64) (b : Bool) : State :=
  if pairLo d = pairHi d then s.setG (pairLo d) b else (s.setG (pairLo d) b).setG (pairHi d) (!b)

/-! ## The vector configuration (R158, R159, R161) -/

/-- A, the lane groups in service. -/
def Core.lanes (c : Core) : Nat := popLow 4 c.lanemask.toNat

/-- n, the vector registers named. -/
def Coro.nregs (c : Coro) : Nat := 2 ^ (c.nreg.toNat + 3)

/-- WB, the declared width in bytes. -/
def Coro.wb (c : Coro) : Nat := 2 ^ c.wmax.toNat

/-- RGROUPS, element groups of 128 bytes per register, with `lanes` lane groups in service. -/
def Coro.rgroups (c : Coro) (lanes : Nat) : Nat := 128 * lanes / c.nregs

/-- VLMAX. -/
def Coro.vlmax (c : Coro) (lanes : Nat) : Nat := c.rgroups lanes * 128 / c.wb

/-- GPR, element groups per row. -/
def Coro.gpr (c : Coro) : Nat := ceilDiv (c.vl.toNat * c.wb) 128

/-- Position of the instruction in its convoy: which VSTART register it uses (R255). -/
def Coro.pos (c : Coro) : Fin 4 :=
  match c.convoy with
  | none => 0
  | some v => ⟨v.at_ % 4, Nat.mod_lt _ (by decide)⟩

/-- Sweep index of element (r, e) (R365 INDEX). -/
def Coro.sweepIndex (c : Coro) (r e : Nat) : Nat := r * c.vl.toNat + e

/-! ## Cores -/

/-- CORO (R157, Table 2). -/
def coroWord (core : Nat) (c : Coro) : Word :=
  w64 (Config.moduleNumber * 2 ^ 54 + core / 384 * 2 ^ 50 + core / 96 % 4 * 2 ^ 48 + core % 96 * 2 ^ 41 +
    c.cnum.toNat * 2 ^ 31 + bit01 c.priv * 2 ^ 30 + c.asid.toNat)

/-- The die of a core. -/
def dieOf (core : Nat) : Nat := core / 384

/-- The core numbered `id`. -/
def State.coreAt (s : State) (id : Nat) : Core :=
  if s.core.id = id then s.core else (s.others.find? (·.id = id)).getD (Core.reset id)

/-- The core numbered `id` comes into focus; the one that was in focus joins the others. -/
def State.focus (s : State) (id : Nat) : State :=
  if s.core.id = id then s
  else { s with core := s.coreAt id, others := s.core :: s.others.filter (·.id != id) }

/-- A step of the core numbered `id`, whichever core is in focus. -/
def State.onCore (s : State) (id : Nat) (f : State → State) : State := (f (s.focus id)).focus s.core.id

/-- Every core that has left its reset state. -/
def State.cores (s : State) : List Core := s.core :: s.others

/-- Every core changed. -/
def State.mapCores (s : State) (f : Core → Core) : State := { s with core := f s.core, others := s.others.map f }

/-- Every coroutine of a core that exists: the saved ones, and the one in the register files. -/
def Core.allCoros (c : Core) : List Coro :=
  match c.live, c.slot with
  | .idle, none => c.coros
  | _, none => c.run :: c.coros
  | _, some r => match r.live with
    | .idle => c.coros
    | _ => r.saved :: c.coros

/-- The coroutine in the register files, wherever a message handler has put it aside. -/
def Core.current (c : Core) : Option Coro :=
  match c.slot with
  | some r => if r.live = .idle then none else some r.saved
  | none => if c.live = .idle then none else some c.run

/-- That coroutine changed. -/
def Core.modCurrent (c : Core) (f : Coro → Coro) : Core :=
  match c.slot with
  | some r => { c with slot := some { r with saved := f r.saved } }
  | none => { c with run := f c.run }

/-- Every coroutine that exists on a core changed, wherever it is. -/
def Core.mapCoros (c : Core) (f : Coro → Coro) : Core :=
  let c1 := { c with coros := c.coros.map f }
  if c.current.isSome then c1.modCurrent f else c1

/-- What the register files hold, apart from a message handler. -/
def Core.liveness (c : Core) : Live :=
  match c.slot with
  | some r => r.live
  | none => c.live

def Core.setLiveness (c : Core) (l : Live) : Core :=
  match c.slot with
  | some r => { c with slot := some { r with live := l } }
  | none => { c with live := l }

/-- A step joins the agenda (log 3). -/
def State.push (s : State) (i : Event) : State := { s with agenda := s.agenda ++ [i] }

/-- The core makes a pacer decision (R174). -/
def State.askPacer (s : State) : State := s.push (.pacerDecision s.core.id)

/-! ## Bytes the device itself reads and writes in HBM -/

/-- What a loaded key slot holds. -/
def State.keyMat (s : State) (slot : Nat) : KeyMat :=
  if slot = 0 then none else (s.keys.find? (·.1 = slot)).map (·.2)

/-- Whether an address lies in the spill region of a core that spills (R68). -/
def State.inSpillRegion (s : State) (pa : Nat) : Bool :=
  s.cores.any (fun c => c.spillEn && c.spillBase.toNat * 2 ^ 21 ≤ pa && pa < c.spillBase.toNat * 2 ^ 21 + 2 ^ 21)

/-- Bytes of HBM stored by the device under the module key, at their home: the words of them that a core has registered leave
its L1 (R115), the poison of every 64-byte half they cover whole is cleared (R379), and the blocks are no longer sealed under
another key (R27). None reaches a spill region (R68, log 27). -/
def State.storeHbm (s : State) (pa : Nat) (bs : List Byte) : State :=
  if s.inSpillRegion pa || s.inSpillRegion (pa + bs.length - 1) then s
  else { s with
    mem := s.mem.write pa bs
    poison := s.poison.filter (fun h => !(decide (pa ≤ 64 * h) && decide (64 * h + 64 ≤ pa + bs.length)))
    sealKeys := s.sealKeys.filter (fun k => !(decide (pa < k.1 * 16 + 16) && decide (k.1 * 16 < pa + bs.length)))
    caches := s.caches.revoke (fun _ => true) pa bs.length }

/-- A 64-bit word of HBM, as a walker reads it. DESIGN CHOICE (log 28): R38 is silent on the key under which it reads, and it
takes the plain bytes, whatever key they were written under. -/
def State.hbmWord (s : State) (pa : Nat) : Nat := s.mem.readNat pa 8

/-! ## Batons (spec/05_batons_relay.md) -/

def handleModule (h : Word) : Nat := bits h.toNat 63 54
def handleDie (h : Word) : Nat := bits h.toNat 53 50
def handleIndex (h : Word) : Nat := bits h.toNat 49 32
def handleGen (h : Word) : Nat := bits h.toNat 31 8
/-- Key of the record a handle names: die and index. -/
def handleKey (h : Word) : Nat := bits h.toNat 53 32
/-- The handle of a record (R128, Table 1). -/
def handleOf (key gen : Nat) : Word := w64 (Config.moduleNumber * 2 ^ 54 + key * 2 ^ 32 + gen * 2 ^ 8)

/-- A Free record after module reset (R131). -/
def Baton.free : Baton := ⟨false, 1, 0, 0, 0, false, false, false, 0, 0, 0, 0, none, 0, false⟩

def State.baton (s : State) (key : Nat) : Baton :=
  ((s.batons.find? (·.1 = key)).map (·.2)).getD Baton.free

def State.setBaton (s : State) (key : Nat) (b : Baton) : State :=
  { s with batons := (key, b) :: s.batons.filter (·.1 != key) }

/-- Whether a module is a member of the pod. -/
def State.isMember (s : State) (m : Nat) : Bool := m == Config.moduleNumber || s.peers.any (·.1 == m)

/-- Whether a handle of this module is live (R130). -/
def State.liveHere (s : State) (h : Word) : Bool :=
  handleModule h == Config.moduleNumber && handleIndex h != 0 && h.toNat % 256 == 0 &&
    (s.baton (handleKey h)).live && (s.baton (handleKey h)).gen.toNat == handleGen h

/-- `(COUNT - t) mod 2^32 < 2^31` (R134). -/
def satisfied (count t : BitVec 32) : Bool := (count - t).toNat < 2 ^ 31

/-- Whether a coroutine's armed wait on `h` is satisfied by the baton (R134, R140). -/
def Coro.waitMet (c : Coro) (h : Word) (b : Baton) : Bool :=
  match c.armed with
  | none => false
  | some (a, t) => a == h && (b.err != 0 || satisfied b.count t)

/-- A registration stays while a coroutine of the core waits on its baton (R137). -/
def Core.trimRegs (c : Core) : Core :=
  let waits (h : Word) (k : Coro) : Bool :=
    (k.state == CState.waiting || k.state == CState.held .await) && (k.armed.map (·.1)) == some h
  { c with regs := c.regs.filter (fun h => c.allCoros.any (waits h)) }

/-- The waiters of `c` that `p` accepts wake: Waiting becomes Ready, and a Held `await` continues (R173, R178). -/
def Core.wake (c : Core) (p : Coro → Bool) : Core :=
  let up (k : Coro) : Coro := if k.state == .waiting && p k then { k with state := .ready, woken := true } else k
  let c1 := { c with coros := c.coros.map up }
  let c2 := match c1.current with
    | some k =>
      if k.state == CState.held .await && p k then
        (c1.modCurrent (fun k => { k with state := .running, armed := none })).setLiveness .running
      else c1
    | none => c1
  c2.trimRegs

/-- An acquire drops the clean words of a core's L1 that are not registered to it (R116). -/
def State.acquireCore (s : State) (core : Nat) : State :=
  { s with caches := s.caches.mapL1 (fun l => if l.core == core then l.acquired else l) }

/-- What an acquire of a scope does once its read is performed: at `.co` and `.core` nothing (R116). -/
def State.acquire (s : State) (scope : Nat) : State := if 2 ≤ scope then s.acquireCore s.core.id else s

/-- The scope of a baton, as releases and acquires at it have; another module's is taken as `.pod` (R121, R122). -/
def State.batonScope (s : State) (h : Word) : Nat :=
  if handleModule h = Config.moduleNumber then (s.baton (handleKey h)).scope.val else 6

/-- Whether the register files of a core hold an `await` that goes on when `p` accepts its coroutine. -/
def Core.heldWakes (c : Core) (p : Coro → Bool) : Bool :=
  match c.current with
  | none => false
  | some k => k.state == CState.held .await && p k

/-- Waiters wake on every core; an idle core at which one becomes Ready makes a decision (R174). The resumption of an `await`
that is Held is an acquire at its baton's scope, which from `.clus` on drops clean words (R116, R122). -/
def State.wakeAll (s : State) (scope : Nat) (p : Core → Coro → Bool) : State :=
  let woken (c : Core) : Bool := c.liveness == .idle && c.coros.any (fun k => k.state == .waiting && p c k)
  let held := (s.cores.filter (fun c => c.heldWakes (p c))).map (·.id)
  let s0 := if 2 ≤ scope then held.foldl State.acquireCore s else s
  let s1 := s0.mapCores (fun c => c.wake (p c))
  { s1 with agenda := s1.agenda ++ (s.cores.filter woken).map (fun c => Event.pacerDecision c.id) }

/-- The starter acts on every update of a dependence baton: a dependence met calls for a decision, and a baton's
error fails the record (R345, R346). -/
def State.notifyStarter (s : State) (h : Word) (b : Baton) : State :=
  let waits (r : QRec) : Bool := r.state == .queued && r.deps.any (fun d => d.1 == h)
  let met (r : QRec) : Bool := r.state == .queued && r.deps.any (fun d => d.1 == h && satisfied b.count d.2)
  if b.err != 0 then
    { s with agenda := s.agenda ++ (s.starter.recs.filter waits).map (fun r => Event.dependenceFailed r.seq) }
  else if s.starter.recs.any met then s.push .starterDecision
  else s

/-- A signal of this module's baton `h`, live, by `amount`: COUNT grows and satisfied registered waiters wake
(R134, R138). An amount of 0 changes and wakes nothing. -/
def State.signalLocal (s : State) (h : Word) (amount : Nat) : State :=
  if amount = 0 then s
  else
    let b := s.baton (handleKey h)
    let b' := { b with count := b.count + BitVec.ofNat 32 amount }
    ((s.setBaton (handleKey h) b').wakeAll b.scope.val (fun c k => c.regs.contains h && k.waitMet h b')).notifyStarter h b'

/-- An error signal (R140): the first error is kept, and every registered waiter wakes. -/
def State.errLocal (s : State) (h : Word) (code : Nat) : State :=
  let b := s.baton (handleKey h)
  if b.err != 0 then s
  else
    let b' := { b with err := BitVec.ofNat 8 code }
    ((s.setBaton (handleKey h) b').wakeAll b.scope.val (fun c k => c.regs.contains h && k.waitMet h b')).notifyStarter h b'

/-- A message to the baton unit of another module (R139). -/
def State.sendRemote (s : State) (h : Word) (k : RemoteKind) : State := { s with fabric := s.fabric ++ [.signal h k] }

/-- A signal that the device produces for a completion baton: 0 names none, a dead handle is dropped, and another
module's baton is signalled over the fabric (R132, R139). -/
def State.deviceSignal (s : State) (h : Word) (amount : Nat) : State :=
  if h = 0 then s
  else if handleModule h = Config.moduleNumber then (if s.liveHere h then s.signalLocal h amount else s)
  else s.sendRemote h (.device amount)

/-- An error signal that the device produces for a completion baton. -/
def State.deviceErr (s : State) (h : Word) (code : Nat) : State :=
  if h = 0 then s
  else if handleModule h = Config.moduleNumber then (if s.liveHere h then s.errLocal h code else s)
  else s.sendRemote h (.deviceErr code)

/-- A signal of a baton that a register names. FQBATON and SYSBATON name one of this module, and any other handle is dropped;
HEVBATON and SWLBATON may name any OPEN baton, and another module of the pod is told over the fabric, as by a coroutine's
signal: its baton unit takes an OPEN baton's alone (R132, R139). -/
def State.registerSignal (s : State) (h : Word) (needOpen : Bool) : State :=
  if needOpen && handleModule h != Config.moduleNumber then
    (if s.isMember (handleModule h) && handleIndex h != 0 && h.toNat % 256 == 0 then s.sendRemote h (.signal 1) else s)
  else if s.liveHere h && (!needOpen || (s.baton (handleKey h)).opn) then s.signalLocal h 1 else s

/-- A producer reference on a completion baton of this module changed (R133). -/
def State.modHolds (s : State) (h : Word) (f : Nat → Nat) : State :=
  if s.liveHere h then
    s.setBaton (handleKey h) { s.baton (handleKey h) with holds := f (s.baton (handleKey h)).holds }
  else s

/-- A producer reference is taken, or given back; another module's baton unit is asked over the fabric (R133). -/
def State.holdBaton (s : State) (h : Word) : State :=
  if h = 0 || handleModule h = Config.moduleNumber then s.modHolds h (· + 1) else s.sendRemote h .hold
def State.releaseBaton (s : State) (h : Word) : State :=
  if h = 0 || handleModule h = Config.moduleNumber then s.modHolds h (· - 1) else s.sendRemote h .release

/-! ## The fault queue (R363 to R365) -/

def State.fqAt (s : State) (die : Nat) : FaultQueue := (s.fq[die % 16]?).getD FaultQueue.reset
def State.setFq (s : State) (die : Nat) (q : FaultQueue) : State := { s with fq := s.fq.setIfInBounds (die % 16) q }

/-- Whether a record can be written (R364). -/
def FaultQueue.writable (q : FaultQueue) : Bool := q.en && decide ((q.head - q.tail).toNat < 2 ^ q.log.toNat)

/-- The 64 bytes of a record. -/
def recordBytes (r : Record) : List Byte := (r.words.take 8).flatMap (fun w => leBytes 8 w.toNat)

/-- A record is written, FQHEAD.COUNT advances and FQBATON is signalled (R364). -/
def State.writeRecord (s : State) (die : Nat) (r : Record) : State :=
  let q := s.fqAt die
  let s1 := s.storeHbm (q.base.toNat * 4096 + 64 * (q.head.toNat % 2 ^ q.log.toNat)) (recordBytes r)
  (s1.setFq die { q with head := q.head + 1 }).registerSignal q.baton false

/-- A record is appended. A TRAP record that cannot be written waits behind those already waiting; any other is
dropped and counted in LOST (R364). -/
def State.appendRecord (s : State) (die : Nat) (trap : Bool) (r : Record) : State :=
  let q := s.fqAt die
  if q.writable && (q.waiting.isEmpty || !trap) then s.writeRecord die r
  else if trap then
    (s.setFq die { q with waiting := q.waiting ++ [r] }).push (.waitingRecordWrite die)
  else s.setFq die { q with lost := if q.lost = 0xFFFF then q.lost else q.lost + 1 }

/-- Word 0 of a record (R365, Table 3). -/
def recordWord0 (kind cause icause member inc chan : Nat) (deferred : Bool) : Word :=
  w64 (kind + cause * 2 ^ 8 + icause * 2 ^ 16 + member * 2 ^ 24 + bit01 deferred * 2 ^ 27 + inc * 2 ^ 32 +
    chan * 2 ^ 48)

/-- An advisory or notice record (R365, Table 4). -/
def advisory (kind cause icause inc chan : Nat) (coro pc index addr aux : Word) : Record :=
  ⟨[recordWord0 kind cause icause 0 inc chan false, coro, pc, index, addr, 0, 0, aux]⟩

/-! ## Contexts (R165, R168 to R173) -/

/-- VLMAX bits of a mask in bytes, 64 at a time: MB of R169. -/
def Coro.maskBytes (c : Coro) (lanes : Nat) : Nat := 64 * ceilDiv (c.vlmax lanes) 512

/-- Bytes of a strip image (R374). -/
def Coro.stripBytes (c : Coro) : Nat :=
  match c.strip with
  | none => 0
  | some st => 64 + 128 * st.entries

/-- C of R169 with `l` vector registers, `m` masks and `t` tiles. -/
def Coro.contextBytes (c : Coro) (lanes l m t : Nat) : Nat :=
  512 + l * (c.rgroups lanes * 128) + m * c.maskBytes lanes + t * 4096 + c.stripBytes

/-- Accumulator tiles that #keep names (R165). -/
def keepTiles (keep : Nat) : Nat :=
  match keep / 16 with
  | 0 => 0
  | 1 => 1
  | 2 => 2
  | _ => 4

/-- The elements of a vector that an index test keeps, the others replaced. -/
def keepAt {α : Type} {n : Nat} (x : Vector α n) (z : α) (p : Nat → Bool) : Vector α n :=
  x.mapIdx (fun i a => if p i then a else z)

/-- The context that `await` and `yield` save: registers outside the live set read zero after resumption (R165,
R168). -/
def Coro.trimLive (c : Coro) (lanes : Nat) (live : Word) (keep : Nat) : Coro :=
  let n := c.nregs
  let l := popLow n live.toNat
  let m := popLow 4 keep
  let t := keepTiles keep
  { c with
    v := keepAt c.v 0 (fun i => i < n && live.getLsbD i)
    m := keepAt c.m 0 (fun i => i < 4 && bitAt keep i)
    acc := keepAt c.acc 0 (· < t)
    hasVec := l != 0 || m != 0
    bytes := c.contextBytes lanes l m t }

/-- A full context: every vector register named, m0 to m6 and all four tiles (R169). -/
def Coro.fullContext (c : Coro) (lanes : Nat) : Coro :=
  { c with hasVec := true, bytes := c.contextBytes lanes c.nregs 7 4 }

/-- A new context: the fixed 512 bytes (R178). -/
def Coro.smallContext (c : Coro) : Coro := { c with hasVec := false, bytes := 512 }

/-- Blocks of 512 bytes that a context takes (R170). -/
def Coro.blocks (c : Coro) : Nat := ceilDiv c.bytes 512

def sumBlocks (l : List Coro) : Nat := (l.map Coro.blocks).sum

def Core.inRoom (c : Core) : List Coro := c.coros.filter (·.place == .callRoom)
def Core.inSpill (c : Core) : List Coro := c.coros.filter (·.place == .spill)

/-- Whether the call room takes a context of `b` blocks (R170). -/
def Core.roomFits (c : Core) (b : Nat) : Bool := c.inRoom.length < 48 && sumBlocks c.inRoom + b ≤ 256

/-- Whether the spill region takes a context of `b` blocks (R67, R170). -/
def Core.spillFits (c : Core) (b : Nat) : Bool := c.spillEn && sumBlocks c.inSpill + b ≤ 4096

/-- Effective priority E (R175). -/
def Coro.effPrio (c : Coro) : Nat := min 31 (c.prio.toNat + c.passed / 4096)

/-- The class of a context in the order of R171: parked, waiting, ready. -/
def Coro.spillClass (c : Coro) : Nat :=
  match c.state with
  | .parked _ => 0
  | .waiting => 1
  | .waitingVec _ => 1
  | _ => 2

/-- Whether context `a` moves to the spill region before context `b` (R171). -/
def spillsBefore (a b : Coro) : Bool :=
  if a.spillClass != b.spillClass then a.spillClass < b.spillClass
  else if a.spillClass == 1 && a.since != b.since then a.since < b.since
  else if a.spillClass == 2 && a.effPrio != b.effPrio then a.effPrio < b.effPrio
  else if a.spillClass == 2 && a.lastRun != b.lastRun then b.lastRun < a.lastRun
  else a.cnum.toNat < b.cnum.toNat

/-- The context that `spillsBefore` puts first, of a list. -/
def firstSpill : List Coro → Option Coro
  | [] => none
  | c :: cs => match firstSpill cs with
    | none => some c
    | some d => some (if spillsBefore c d then c else d)

/-- The lowest `n` free blocks of the spill region, from block `i` on (log 27). -/
def freeBlocks (used : List Nat) : Nat → Nat → Nat → List Nat
  | 0, _, _ => []
  | _, 0, _ => []
  | fuel + 1, n + 1, i =>
    if used.contains i then freeBlocks used fuel (n + 1) (i + 1) else i :: freeBlocks used fuel n (i + 1)

/-- A context in the spill region, with the blocks that it takes there (R67). -/
def Core.intoSpill (c : Core) (k : Coro) : Coro :=
  { k with place := .spill, spillAt := freeBlocks (c.coros.flatMap (·.spillAt)) 4096 k.blocks 0 }

/-- A saved context moved to the spill region, or back to the call room. -/
def Core.movePlace (c : Core) (cnum : BitVec 10) (p : Place) : Core :=
  { c with coros := c.coros.map (fun k =>
      if k.cnum != cnum then k
      else if p == .spill then c.intoSpill k
      else { k with place := p, spillAt := [] }) }

/-- The moves of R171: contexts of `cand` leave the call room in order until `b` blocks fit; none of them when no
sequence makes room. -/
def Core.makeRoom : Nat → List Coro → Core → Nat → Option Core
  | 0, _, c, b => if c.roomFits b then some c else none
  | n + 1, cand, c, b =>
    if c.roomFits b then some c
    else match firstSpill cand with
      | none => none
      | some k =>
        let rest := cand.filter (fun x => x.cnum != k.cnum)
        if c.spillFits k.blocks then Core.makeRoom n rest (c.movePlace k.cnum .spill) b
        else Core.makeRoom n rest c b

/-- The core with the context `k` placed in the call room, or else in the spill region (R171). -/
def Core.placeContext (c : Core) (k : Coro) : Option Core :=
  match Core.makeRoom c.coros.length c.inRoom c k.blocks with
  | some c' => some { c' with coros := c'.coros ++ [{ k with place := .callRoom }] }
  | none =>
    if c.spillFits k.blocks then some { c with coros := c.coros ++ [c.intoSpill k] } else none

/-- The context `k` is written into its blocks of the core's spill region, under its engagement slot's key, and its lines
are retained (R67, R69); its layout is a free value (log 27). -/
def State.writeSpill (s : State) (base : Nat) (k : Coro) : State :=
  let slot := bits (s.mem.readNat (s.asidBase.toNat * 2 ^ 19 + 8 * k.asid.toNat) 8) 63 58
  k.spillAt.foldl (fun t b =>
    let a := base + 512 * b
    { t with
      mem := t.mem.splice a ((List.range 512).map (fun i => Config.spillByte (k.cnum.toNat + 1024 * k.inc.toNat) (512 * b + i)))
      poison := t.poison.filter (fun h => !(decide (a ≤ 64 * h) && decide (64 * h + 64 ≤ a + 512)))
      sealKeys := ((List.range 32).map (fun i => (a / 16 + i, t.keyMat slot))) ++
        t.sealKeys.filter (fun x => !(decide (a / 16 ≤ x.1) && decide (x.1 < a / 16 + 32)))
      caches := (List.range 4).foldl (fun c i =>
        c.l2Alloc (a / 128 + i) (t.memRegs.placeSlice 0 (dieOf t.core.id) (a + 128 * i)) slot true) t.caches }) s

/-- The contexts of the core in focus that have moved to the spill region since its contexts were `old` are written
there. -/
def State.writeSpills (s : State) (old : List Coro) : State :=
  let moved := s.core.coros.filter (fun k =>
    k.place == .spill && !old.any (fun x => x.cnum == k.cnum && x.inc == k.inc && x.place == .spill))
  moved.foldl (fun t k => t.writeSpill (s.core.spillBase.toNat * 2 ^ 21) k) s

/-- The register files hold no coroutine. -/
def Core.vacate (c : Core) : Core :=
  { (c.modCurrent (fun _ => Coro.blank)).setLiveness .idle with pxLast := none, cut := none, drain := none }

/-- Where a target's byte lies in the model's storage. -/
def Target.storage : Target → Option Nat
  | .pad core off => some (padStore core + off)
  | .hbm pa => some (hbmStore pa)
  | .host pa => some (hostStore + pa)
  | .pod m off => some (podStore m + off)
  | .plane p _ off => some (planeStore p + off)
  | .reg _ => none
  | .zero => none

/-- Bytes at their places. -/
def placeBytes (bs : List Byte) : List (Xlat × Nat) → List (Nat × Byte)
  | [] => []
  | (x, n) :: ps =>
    let rest := placeBytes (bs.drop n) ps
    match x.target.storage with
    | none => rest
    | some a => (bs.take n).mapIdx (fun i b => (a + i, b)) ++ rest

/-- Every held byte, latest first. -/
def Strip.heldBytes (st : Strip) : List (Nat × Byte) :=
  st.held.foldl (fun l h => (placeBytes h.data h.parts).reverse ++ l) []

/-- The scalar unit sees every byte that an open strip holds, after a fence or a suspension (R106, R127). -/
def Coro.showStrip (c : Coro) : Coro :=
  match c.strip with
  | none => c
  | some st => { c with strip := some { st with shown := st.heldBytes } }

/-- Data that have not come join the pending ones, those not yet performed ahead of those asked of a message slot. -/
def Coro.addPending (c : Coro) (ps : List Pending) : Coro :=
  let all := c.pending ++ ps
  { c with pending := all.filter (·.part.isSome) ++ all.filter (·.part.isNone) }

/-- A datum written into its register (R277, R373): of a scalar load, the bytes that have come, extended. -/
def Coro.takeDatum (c : Coro) (d : PendingDst) (value : Word) : Coro :=
  match d with
  | .load r n signed off len =>
    let old := lowBytes n (c.getS r)
    c.setS r (extBytes n signed (old.take off ++ leBytes len value.toNat ++ old.drop (off + len)))
  | .elem v off len _ _ => { c with v := c.v.set v (VReg.put c.v[v] off len (value.toNat % 2 ^ (8 * len))) }
  | .stream _ _ => c
  | .store _ => c

/-- An access's failure is kept for the next restore. Of a `vatom`, the failure of the earliest element is, with the number of
those that failed (R291, R373). -/
def Coro.failDatum (c : Coro) (p : Pending) (e : Cause) : Coro :=
  let mine := p.op.isSome && p.insn != 0
  let new : Deferred := ⟨e, p.index, p.addr, p.insn, 0, false, if mine then some 1 else none⟩
  match c.deferred with
  | none => { c with deferred := some new }
  | some d => match d.aux with
    | none => c
    | some n =>
      if !mine then c
      else { c with deferred := some { (if p.index < d.index then new else d) with aux := some (n + 1) } }

/-- The parts of a datum at a save: what message slots have answered of them, in order, is written, and the others are
pending. -/
def Coro.settleParts (c : Coro) (rs : List SlotReply) : List Pending → Coro
  | [] => c
  | p :: ps =>
    match p.slot.bind (fun k => rs.find? (fun r => r.core == k.core && r.off == k.off && r.len == k.len)) with
    | none => Coro.settleParts (c.addPending [p]) rs ps
    | some r => Coro.settleParts (match r.cause with
      | some e => c.failDatum p e
      | none => c.takeDatum p.dst (w64 (leNat r.data))) (rs.erase r) ps

/-- The instruction that waits for a reply at a save: a scalar access, or a `vatom`, has been issued, what it waits for is
pending, and the program counter is past it; any other is abandoned (R227, R372, R373). -/
def Coro.settle (c : Coro) : Coro :=
  match c.flight with
  | none => c
  | some f =>
    if f.pend.isEmpty then { c with flight := none }
    else ({ c with flight := none, pc := c.pc + 4, vstart := c.vstart.set 0 (if f.pend.any (·.insn != 0) then ⟨0, 0⟩ else c.vstart[0]) }
      ).settleParts f.replies f.pend

/-- What a saved coroutine's pending data still wait for is asked for, a step for each (R373). -/
def State.askPending (s : State) (core : Nat) (ps : List Pending) : State :=
  (ps.filter (·.part.isSome)).foldl (fun t p =>
    t.push (.pendingDatumArrival core (bits p.coro.toNat 40 31) 0 0 false)) s

/-- The coroutine `k`, prepared for its save, leaves the register files of the core in focus in state `st`, or stays
Held there, with every register's contents, when its context fits nowhere (R165, R171, R173). A save ends the convoy in
progress (R210). -/
def State.saveContext (s : State) (k : Coro) (st : CState) (why : HeldWhy) : State :=
  let k1 := { k.settle.showStrip with
    state := st, convoy := none, since := s.stamp, lastRun := s.stamp, place := .callRoom }
  let s1 := { s.askPending s.core.id (match k.flight with
    | none => []
    | some f => f.pend) with stamp := s.stamp + 1 }
  let c0 := { s1.core with pxLast := none, cut := none, drain := none }
  match c0.placeContext k1 with
  | some c => ({ s1 with core := c.vacate }.writeSpills s.core.coros).askPacer
  | none =>
    let kept (x : Coro) : Coro :=
      { k1 with v := x.v, m := x.m, acc := x.acc, state := .held why, place := .files }
    let s2 := { s1 with core := (c0.modCurrent kept).setLiveness .held }
    s2.appendRecord (dieOf s2.core.id) false
      (advisory 3 Cause.callRoomFull.code 0 k.inc.toNat 0 (coroWord s2.core.id k) k.pc 0 0 0)

/-! ## Traps (R361) -/

/-- The row after the last that a class V word works on: RC, or the M of MSHAPE for one that works by accumulator rows
(R275, R307). -/
def Coro.endRow (c : Coro) (word : BitVec 32) : Nat :=
  if 0x30 ≤ word.toNat / 2 ^ 26 && word.toNat / 2 ^ 26 ≤ 0x32 then bits c.mshape.toNat 5 0 else c.rc.toNat

/-- Members of a convoy that completed before position `n` stop as at a pre-emption: nothing remains to be done of them
(R275, R307). -/
def Coro.stopMembers (c : Coro) (words : List (BitVec 32)) (n : Nat) : Coro :=
  { c with vstart := c.vstart.mapIdx (fun i v =>
      if i < n then ⟨BitVec.ofNat 8 (c.endRow (words.getD i 0)), 0⟩ else v) }

/-- The convoy position of the instruction that traps (R365 MEMBER). -/
def Coro.member (c : Coro) : Nat :=
  match c.convoy with
  | none => 0
  | some v => v.at_

/-- The coroutine at a trap: its program counter is that of the first member of the convoy, and the members before it stop
as at a pre-emption (R361); `cut` says that they have stopped already. -/
def Coro.atTrap (c : Coro) (here : Bool) (cut : Bool := false) : Coro :=
  match c.convoy with
  | none => c
  | some v =>
    if here then c
    else if cut then { c with pc := v.start }
    else { c.stopMembers v.members v.at_ with pc := v.start }

/-- The ERR word of a record (R365, Table 3). -/
def Coro.errWord (c : Coro) : Word :=
  w64 (bit01 c.errV * 2 ^ 63 + c.errLane.toNat * 2 ^ 32 + c.errRow.toNat * 2 ^ 16 + c.errElem.toNat)

/-- The TRAP record of coroutine `c`, stopped, on core `core` (R365). -/
def trapRecord (core : Nat) (c : Coro) (member : Nat) (insn : BitVec 32) (t : Trap) : Record :=
  let aux : Nat := match t.aux with
    | some n => n
    | none => if c.strip.isSome || t.cause = .stripDiscarded then c.stripBase.toNat else 0
  ⟨[recordWord0 1 t.cause.code t.icause.code member c.inc.toNat 0 t.deferred, coroWord core c, c.pc, w64 t.index,
    t.addr, w64 insn.toNat, t.err.getD c.errWord, w64 aux]⟩

/-- A trap is taken (R361): the convoy stops, a full context is saved, the coroutine is Parked or Held, and its
record is appended to the fault queue of its die. -/
def State.takeTrap (s : State) (t : Trap) : State :=
  let c := s.core.run
  let k := c.atTrap t.here s.core.cut.isSome
  let s1 := s.saveContext (k.fullContext s.core.lanes) (.parked t.cause) .trap
  s1.appendRecord (dieOf s.core.id) true
    (trapRecord s.core.id k.settle (if t.here then 0 else t.member.getD (if t.deferred then 0 else c.member)) (t.insn.getD s.core.insn) t)

/-- Whether a store of the coroutine of the core in focus waits in a message slot's queue (R98, R105). -/
def State.posted (s : State) : Bool :=
  let c := s.core.run
  s.cores.any (fun k => k.queue.any (fun r => match r with
    | .store sender cnum inc _ => sender == s.core.id && cnum == c.cnum.toNat && inc == c.inc.toNat
    | _ => false))

/-- A trap is taken once the coroutine's posted stores have been applied: the core issues nothing meanwhile (R106, R371). -/
def State.trapDrained (s : State) (t : Trap) : State :=
  if s.posted then s.modCore (fun c => { c with drain := some (.trap t) }) else s.takeTrap t

/-! ## Modes in which a cause does not trap (R362) -/

/-- The position-miss handler ends: the shadow bank keeps its values, and the coroutine has its own s24 to s31 and
the program counter of its `pxl` again (R319). -/
def State.leavePx (s : State) (p : PxRun) : State :=
  match s.core.current with
  | none => s.modCore (fun c => { c with px := none })
  | some r =>
    let back (k : Coro) : Coro :=
      { k with pc := p.pc, s := k.s.mapIdx (fun i v => if i < 24 then v else (p.saved[i]?).getD 0) }
    s.modCore (fun c => { c.modCurrent back with px := none, shadow := Vector.ofFn (fun i : Fin 8 => r.s[i.val + 24]) })

/-- The request being handled in the message slot ends with a reply (R299, R300). -/
def State.endRequest (s : State) (r : SlotRun) (status : Nat) (value : Word) : State :=
  let s1 := { s with core := { s.core with run := r.saved, live := r.live, slot := none } }
  s1.push (.amReplyDelivery ⟨r.msg.sender, r.msg.block, value, status, r.msg.baton⟩)

/-- The instruction at the program counter waits for no reply any more. -/
def State.landed (s : State) : State :=
  match s.core.run.flight with
  | none => s
  | some _ => s.modRun (fun c => { c with flight := none })

/-- An instruction raises a cause: in the message slot it ends the request, in a position-miss handler it abandons
the handler, and otherwise it traps (R361, R362). -/
def State.raiseTrap (s0 : State) (t : Trap) : State :=
  let s := s0.landed
  match s.core.slot with
  | some r => s.endRequest r (if t.cause = .nearOutOfRange then 0x11 else 0x33) 0
  | none => match s.core.px with
    | some p => (s.leavePx p).trapDrained
        { cause := .positionFault, icause := t.cause, addr := t.addr, insn := some p.insn }
    | none => s.trapDrained t

/-- A cause without a faulting address. -/
def State.raise (s : State) (c : Cause) : State := s.raiseTrap { cause := c }

/-- A cause met at an address, by the element of sweep index `index`. -/
def State.raiseAt (s : State) (c : Cause) (index : Nat) (addr : Word) : State :=
  s.raiseTrap { cause := c, index := index, addr := addr }

/-- Whether a cause reports uncorrectable data (R376). -/
def isDataCause : Cause → Bool
  | .dataVreg => true
  | .dataAcc => true
  | .dataSram => true
  | .dataMemory => true
  | .dataScalar => true
  | _ => false

/-- An uncorrectable data error met while a strip is open is STRIP_DISCARDED with the data cause inside (R376). -/
def Trap.inStrip (t : Trap) (strip : Option Strip) : Trap :=
  if isDataCause t.cause && strip.isSome then { t with cause := .stripDiscarded, icause := t.cause } else t

/-- The strip that a trap leaves open. -/
def Trap.keeps (t : Trap) (strip : Option Strip) : Option Strip := if t.cause = .stripDiscarded then none else strip

/-- An uncorrectable data error traps, and discards an open strip. -/
def State.raiseDataTrap (s : State) (t : Trap) : State :=
  let t1 := t.inStrip s.core.run.strip
  (s.modRun (fun k => { k with strip := t1.keeps k.strip })).raiseTrap t1

def State.raiseData (s : State) (c : Cause) (index : Nat) (addr : Word) : State :=
  s.raiseDataTrap { cause := c, index := index, addr := addr }

/-- A cause met by an access: a data error may discard the strip. -/
def State.raiseAccess (s : State) (c : Cause) (index : Nat) (addr : Word) : State :=
  if isDataCause c then s.raiseData c index addr else s.raiseAt c index addr

/-! ## Returning from a trap (R168, R367) -/

/-- A saved context of the core in focus is restored into the register files and runs (R168, R178). The zeroing of
the registers outside the saved set was made at the save. -/
def State.restore (s : State) (k : Coro) : State :=
  let c := { s.core with coros := s.core.coros.filter (·.cnum != k.cnum) }
  let run := { k with
    state := .running
    place := .files
    passed := 0
    lastRun := s.stamp
    spillAt := []
    armed := if k.woken then none else k.armed
    woken := false }
  { s with stamp := s.stamp + 1, core := (c.modCurrent (fun _ => run)).setLiveness .running }

/-- A Parked coroutine becomes Ready (R178): the return from a trap. With `lost`, it continues with its vector
state reading zero (R161). An idle core makes a decision (R174). -/
def State.unpark (s : State) (cnum : BitVec 10) : State :=
  let zero (k : Coro) : Coro :=
    if k.state == .parked .laneRetired && k.lostVec then
      { k with v := Vector.replicate 64 0, m := Vector.replicate 7 0, hasVec := false, lostVec := false }
    else k
  let up (k : Coro) : Coro := if k.cnum == cnum then { zero k with state := .ready } else k
  let s1 := s.modCore (fun c => { c with coros := c.coros.map up })
  if s.core.liveness == .idle then s1.askPacer else s1

/-- The guard against an unprivileged coroutine (R208). -/
def State.privileged (s : State) (f : State → State) : State :=
  if s.core.run.priv then f s else s.raise .privInstruction

/-- An operation refused inside an open strip (R127). -/
def State.noStrip (s : State) (f : State → State) : State :=
  if s.core.run.strip.isSome then s.raise .stripSync else f s

end Sys2Proof.Machine
end

