-- ==== Sys2Proof/Machine/Translate.lean ====
section
/-! DEFINITION. Address spaces and translation (spec/01_address_spaces.md): the canonical test, the near window, the
walk of a page table and the checks of Table 8 in their order. -/

namespace Sys2Proof.Machine

/-- What an access needs (R22). -/
inductive Access where
  | read
  | write
  | atomic
  | fetch
  deriving DecidableEq, Repr

/-- Whether an access reads, and whether it writes. -/
def Access.reads : Access → Bool
  | .read => true
  | .atomic => true
  | _ => false
def Access.writes : Access → Bool
  | .write => true
  | .atomic => true
  | _ => false

/-- On whose behalf an access is made: its address space and privilege, the core whose near window it sees, if any
(R417), the engagement slot that it is checked against (R28), and the relay engine that carries it, if one does (R48). -/
structure Who where
  asid   : BitVec 16
  priv   : Bool
  core   : Option Nat
  slot   : Nat
  engine : Option Nat := none
  deriving DecidableEq, Repr

/-! ## Virtual addresses -/

/-- The canonical test (R9). -/
def canonical (a : Word) : Bool := a.toNat < 2 ^ 55 || 2 ^ 64 - 2 ^ 55 ≤ a.toNat

/-- First address of the near window (R10). -/
def nearBase : Nat := 0xFFFFFFFFFC000000

def isNear (a : Word) : Bool := nearBase ≤ a.toNat

/-- The core and the offset that a near-window address reaches from core `core`; none in the reserved range (R10). -/
def nearTarget (core : Nat) (a : Word) : Option (Nat × Nat) :=
  let o := a.toNat - nearBase
  if o < 96 * 2 ^ 18 then some (core / 96 * 96 + o / 2 ^ 18, o % 2 ^ 18)
  else if 2 ^ 26 - 2 ^ 18 ≤ o then some (core, o - (2 ^ 26 - 2 ^ 18))
  else none

/-- S, the scratchpad size of a core (R11, R49). -/
def Core.padBytes (c : Core) : Nat := c.spways * Config.wayBytes

/-! ## The ASID table (R33) -/

/-- Address of an ASID's entry; a base outside HBM, or in the firmware-reserved region, is taken as it stands (log 28). -/
def State.asidEntryAddr (s : State) (asid : Nat) : Nat := s.asidBase.toNat * 2 ^ 19 + 8 * asid

/-- The entry as memory holds it: a walk that begins sees every store to the table (R33). In a core's spill region it cannot be
reached, and stands for no binding (R68, log 27). -/
def State.asidEntry (s : State) (asid : Nat) : Nat :=
  if s.inSpillRegion (s.asidEntryAddr asid) then 0 else s.hbmWord (s.asidEntryAddr asid)

/-- Whether what a die's ASID cache holds of an ASID is what its entry holds now: only then does its walk cache skip levels
(R33, R48). -/
def State.asidFresh (s : State) (die : Option Nat) (asid : Nat) : Bool :=
  s.caches.asids.any (fun e => some e.1 == die && e.2.1 == asid && e.2.2 == s.asidEntry asid)

/-- The engagement slot of an address space (R28). -/
def State.slotOf (s : State) (asid : Nat) : Nat := bits (s.asidEntry asid) 63 58

/-- Whether a table may lie at this address: in this module's HBM outside the firmware-reserved region (R15, R20). -/
def tablePlace (pa : Nat) : Bool := pa < Config.hbmBytes && pa / 2 ^ 30 != 1020

/-! ## Remap domains as the walk sees them (R24, R62) -/

def State.domain (s : State) (d : Nat) : Domain := ((s.domains.find? (·.1 = d)).map (·.2)).getD (Domain.reset d)
def State.setDomain (s : State) (d : Nat) (x : Domain) : State :=
  { s with domains := (d, x) :: s.domains.filter (·.1 != d) }

/-- Whether one domain accepts a leaf's BSKEW (R24, R66). -/
def Domain.accepts (x : Domain) (f : Nat) : Bool := f == x.func.toNat || (x.oldok && f == x.ofunc.toNat)

/-- Whether every one of `n` domains from `d` on accepts it. -/
def State.acceptsFrom (s : State) (f : Nat) (d : Nat) : Nat → Bool
  | 0 => true
  | n + 1 => (s.domain d).accepts f && State.acceptsFrom s f (d + 1) n

/-! ## The walk (R20 to R24, R30) -/

/-- Index bits of the virtual address at a level (Table 4). -/
def levelIndex (va level : Nat) : Nat := va / 2 ^ (16 + 10 * level) % 1024

/-- Bytes that a leaf of a level maps (Table 4). -/
def leafBytes (level : Nat) : Nat := 2 ^ (16 + 10 * level)

/-- The leaf's frame field and its kind. -/
def leafFrame (leaf : Nat) : Nat := bits leaf 51 16
def leafKind (leaf : Nat) : Nat := bits leaf 15 13

/-- Whether a kind-0 leaf's frame lies in HBM, in the register space. -/
def frameInHbm (leaf : Nat) : Bool := leafFrame leaf < 2 ^ 24
def frameInRegs (leaf : Nat) : Bool := 0xFF0000000 ≤ leafFrame leaf

/-- Check 5 on a leaf of a level: its reserved bits, its frame's alignment, BSKEW and R19. In start-up mode every BSKEW is
accepted, the reserved values with the normal hash (R25, log 28). -/
def State.leafFormed (s : State) (leaf level : Nat) : Bool :=
  level != 3 && bits leaf 12 7 == 0 && leafFrame leaf % 2 ^ (10 * level) == 0 &&
    (leafKind leaf != 0 ||
      (!(frameInRegs leaf && !bitAt leaf 5) &&
        (!frameInHbm leaf || s.memRegs.stmode ||
          (bits leaf 57 55 < 3 &&
            s.acceptsFrom (bits leaf 57 55) (leafFrame leaf / 2 ^ 14) (max 1 (leafBytes level / 2 ^ 30))))))

/-- Check 5 on a pointer: its reserved bits, and where the next table lies. -/
def pointerFormed (e : Nat) : Bool := bits e 63 52 == 0 && bits e 12 2 == 0 && tablePlace (bits e 51 13 * 2 ^ 13)

/-- The entry of a table for an address; the walker reads plain bytes, whatever key they were written under (log 28). A
table in a core's spill region cannot be reached (R68, log 27). -/
def State.tableEntry (s : State) (table level va : Nat) : Except Cause Nat :=
  let a := table + 8 * levelIndex va level
  if s.inSpillRegion a then .error .readDenied else .ok (s.hbmWord a)

/-- The walk from a table of level `n` down: the leaf and its level, or the first failing entry's cause (R30). -/
def State.walkFrom (s : State) (va table : Nat) : Nat → Except Cause (Nat × Nat)
  | 0 => match s.tableEntry table 0 va with
    | .error c => .error c
    | .ok e =>
      if !bitAt e 0 then .error .pageNotValid
      else if bitAt e 1 && s.leafFormed e 0 then .ok (e, 0)
      else .error .tableMalformed
  | n + 1 => match s.tableEntry table (n + 1) va with
    | .error c => .error c
    | .ok e =>
      if !bitAt e 0 then .error .pageNotValid
      else if bitAt e 1 then (if s.leafFormed e (n + 1) then .ok (e, n + 1) else .error .tableMalformed)
      else if pointerFormed e then State.walkFrom s va (bits e 51 13 * 2 ^ 13) n
      else .error .tableMalformed

/-- Where a die's walk cache says that the next table lies, below the entry of a level (Table 12). -/
def State.walkHit (s : State) (die : Option Nat) (asid va level : Nat) : Option Nat :=
  if !s.asidFresh die asid then none
  else (s.caches.walks.find? (fun w => some w.die == die && w.asid == asid && w.level == level &&
    w.upper == va / leafBytes level)).map (·.next)

/-- The walk of an address space's table: checks 3 to 5 (R30, R33); a hit in the die's walk cache skips the upper levels
(R38, R48). -/
def State.walk (s : State) (die : Option Nat) (asid va : Nat) : Except Cause (Nat × Nat) :=
  let e := s.asidEntry asid
  if !s.asidEn then .error .asidUnbound
  else if s.inSpillRegion (s.asidEntryAddr asid) then .error .readDenied
  else if e % 4 != 1 then .error .asidUnbound
  else match s.walkHit die asid va 1, s.walkHit die asid va 2, s.walkHit die asid va 3 with
    | some t, _, _ => s.walkFrom va t 0
    | none, some t, _ => s.walkFrom va t 1
    | none, none, some t => s.walkFrom va t 2
    | none, none, none =>
      if !tablePlace (bits e 51 13 * 2 ^ 13) then .error .tableMalformed
      else s.walkFrom va (bits e 51 13 * 2 ^ 13) 3

/-- A translation cache's entry for an address (R32, R37). -/
def TlbEntry.covers (t : TlbEntry) (asid va : Nat) : Bool :=
  (t.glob || t.asid == asid) && t.base ≤ va && va < t.base + leafBytes t.level

/-- The entry that serves an access: of the relay engine's cache, of the fetch cache and then the core's, or of the core's
(R48). -/
def State.tlbHit (s : State) (who : Who) (acc : Access) (va : Nat) : Option TlbEntry :=
  match who.engine with
  | some g => ((s.caches.relays.filter (·.1 == g)).map (·.2)).find? (·.covers who.asid.toNat va)
  | none =>
    if who.core.isNone then none
    else if acc == .fetch then
      (s.core.fetchTlb.find? (·.covers who.asid.toNat va)).orElse (fun _ => s.core.tlb.find? (·.covers who.asid.toNat va))
    else s.core.tlb.find? (·.covers who.asid.toNat va)

/-- The leaf for an address: from a translation cache, else by a walk (R37, R48). -/
def State.leafFor (s : State) (who : Who) (acc : Access) (va : Nat) : Except Cause (Nat × Nat) :=
  match s.tlbHit who acc va with
  | some t => if s.asidEn then .ok (t.leaf, t.level) else .error .asidUnbound
  | none => s.walk (who.core.map dieOf) who.asid.toNat va

/-! ## Checks on the leaf (R30, Table 8, checks 6 to 13) -/

/-- Whether an HBM address of this module is populated and open to translation (R14, R15, R62). -/
def State.hbmOpen (s : State) (pa : Nat) : Bool :=
  pa < Config.hbmBytes && pa / 2 ^ 30 != 1020 && !(s.domain (pa / 2 ^ 30)).gone

/-- Where a leaf sends an address, or none where check 6 refuses it (R14 to R18, R29); it refuses the firmware-reserved
region of another module too (log 28), and until
the fabric is trained it refuses kinds 2 and 3 (R413). -/
def State.leafTarget (s : State) (leaf level va : Nat) : Option Target :=
  let off := leafFrame leaf * 2 ^ 16 + va % leafBytes level
  match leafKind leaf with
  | 0 =>
    if off < Config.hbmBytes then (if s.hbmOpen off then some (.hbm off) else none)
    else if Config.regBase ≤ off then some (.reg off)
    else none
  | 1 => if bitAt leaf 54 then none else some (.host off)
  | 2 =>
    let m := bits (leafFrame leaf) 35 26
    let o := off % 2 ^ 40
    if !s.sys.fabtr || bits (leafFrame leaf) 25 24 != 0 || !s.isMember m then none
    else if m = Config.moduleNumber then (if s.hbmOpen o then some (.hbm o) else none)
    else if o / 2 ^ 30 = 1020 then none
    else some (.pod m o)
  | 3 =>
    let p := bits (leafFrame leaf) 35 31
    if !s.sys.fabtr || 18 ≤ p then none else some (.plane p (bits (leafFrame leaf) 30 26) (off % 2 ^ 42))
  | _ => none

/-- Whether a key slot of this module holds a key (R410). -/
def State.keyLoaded (s : State) (k : Nat) : Bool := k == 0 || s.keys.any (·.1 == k)

/-- The key in a slot of another module; its slot 0 holds a module key (R27, log 6). -/
def State.peerKey (s : State) (m key : Nat) : Option KeyMat :=
  match s.peers.find? (·.1 == m) with
  | none => none
  | some p => match p.2.find? (·.1 == key) with
    | some k => some k.2
    | none => if key = 0 then some none else none

/-- Whether the key that check 10 asks for is loaded (R27, R94). -/
def State.keyThere (s : State) (t : Target) (key : Nat) (conf : Bool) : Bool :=
  match t with
  | .hbm _ => s.keyLoaded key
  | .pod m _ => s.keyLoaded key && (s.peerKey m key).isSome
  | .plane _ _ _ => !conf || s.keyLoaded key
  | _ => true

/-- Whether the two modules' keys for a confidential page of another module's HBM differ, so that a tag fails (R27). -/
def State.keysDiffer (s : State) (t : Target) (key : Nat) (conf : Bool) : Bool :=
  match t with
  | .pod m _ => conf && s.peerKey m key != some (s.keyMat key)
  | _ => false

/-- The pod tenant of an engagement slot (R79, R96). -/
def State.tenantOf (s : State) (slot : Nat) : Option Nat :=
  match s.swRegs.tid.find? (·.1 = slot) with
  | some (_, (true, t)) => some t.toNat
  | _ => none

/-- Checks 6 to 13 of Table 8 on a leaf, in order; `reg8` says that the access is an aligned 8-byte scalar load or
store, which alone may reach the register space (R55). A fetch from a spill region meets READ_DENIED, after EXEC_DENIED
(R68, log 27). ACE is ignored on leaves of kinds 2 and 3 (R70). -/
def State.checkLeaf (s : State) (who : Who) (acc : Access) (reg8 : Bool) (leaf level va : Nat) : Except Cause Xlat :=
  let conf := bitAt leaf 54
  let key := bits leaf 63 58
  match s.leafTarget leaf level va with
  | none => .error .kindInvalid
  | some t =>
    let isReg := match t with
      | .reg _ => true
      | _ => false
    let isPlane := match t with
      | .plane _ _ _ => true
      | _ => false
    let spill := match t with
      | .hbm pa => s.inSpillRegion pa
      | _ => false
    if isReg && !reg8 then .error .kindInvalid
    else if isPlane && conf && acc == .atomic then .error .kindInvalid
    else if bitAt leaf 5 && !who.priv then .error .privDenied
    else if acc.reads && (!bitAt leaf 2 || (spill && acc == .read)) then .error .readDenied
    else if acc.writes && (!bitAt leaf 3 || spill) then .error .writeDenied
    else if acc == .fetch && (!bitAt leaf 4 || bitAt leaf 53) then .error .execDenied
    else if acc == .fetch && spill then .error .readDenied
    else if !s.keyThere t key conf then .error .keySlotEmpty
    else if conf && key != who.slot then .error .confidentialMismatch
    else if bitAt leaf 53 && acc.writes then .error .discardedWrite
    else if isPlane && (s.tenantOf who.slot).isNone then .error .switchNotOwned
    else if s.keysDiffer t key conf && !bitAt leaf 53 then .error .keySlotEmpty
    else .ok
      { target := if bitAt leaf 53 then .zero else t
        ace := bitAt leaf 52 && leafKind leaf < 2
        key := key
        conf := conf
        skew := if leafKind leaf = 0 then bits leaf 57 55 else 0 }

/-- Checks 1 to 13 of Table 8 for one address (R9, R11, R30). A near-window access needs no translation; an offset
at or beyond S is refused here for the core's own scratchpad, and by the target's message slot for another's. -/
def State.translate (s : State) (who : Who) (acc : Access) (reg8 : Bool) (a : Word) : Except Cause Xlat :=
  if !canonical a then .error .addrNoncanonical
  else if isNear a then
    match who.core with
    | none => .error .nearOutOfRange
    | some me =>
      match nearTarget me a with
      | none => .error .nearOutOfRange
      | some (k, off) =>
        if acc == .fetch then .error .nearOutOfRange
        else if k = me && (s.coreAt me).padBytes ≤ off then .error .nearOutOfRange
        else .ok { target := .pad k off }
  else
    let va := a.toNat % 2 ^ 56
    match s.leafFor who acc va with
    | .error c => .error c
    | .ok (leaf, level) => s.checkLeaf who acc reg8 leaf level va

/-- The engagement slot of what runs on the core in focus: a handler's is its message's (R28, R179). -/
def State.mySlot (s : State) : Nat :=
  match s.core.slot with
  | some r => r.msg.eslot
  | none => s.slotOf s.core.run.asid.toNat

/-- The coroutine, or handler, of the core in focus as an accessor. -/
def State.me (s : State) : Who := { asid := s.core.run.asid, priv := s.core.run.priv, core := some s.core.id, slot := s.mySlot }

/-- An agent that is not a core, as an accessor (R417). -/
def State.agent (s : State) (asid : BitVec 16) (priv : Bool) : Who :=
  { asid := asid, priv := priv, core := none, slot := s.slotOf asid.toNat }

end Sys2Proof.Machine
end

