-- ==== Sys2Proof/Machine/Tier.lean ====
section
/-! DEFINITION. The switch memory tier (spec/03_switch_tier.md): planes, allocations, quotas, accesses with failover,
mirroring and confidential granules. -/

namespace Sys2Proof.Machine

/-- The partner of a plane, plane XOR 1 (R76). -/
def partnerOf (p : Nat) : Nat := if p % 2 = 0 then p + 1 else p - 1

def State.plane (s : State) (p : Nat) : Plane := (s.planes[p]?).getD Plane.reset
def State.setPlane (s : State) (p : Nat) (x : Plane) : State := { s with planes := s.planes.setIfInBounds p x }

/-- Whether the module regards a plane as up (R78). -/
def State.regardsUp (s : State) (p : Nat) : Bool := s.swRegs.up.getLsbD p

/-- The allocation as changed, found by plane and sequence number. -/
def State.setAlloc (s : State) (a : Alloc) : State :=
  { s with allocs := s.allocs.map (fun b => if b.plane == a.plane && b.aseq == a.aseq && b.tag == a.tag then a else b) }

/-- Whether an allocation's range holds a byte offset. -/
def Alloc.covers (a : Alloc) (off : Nat) : Bool := a.base ≤ off / 2 ^ 16 && off / 2 ^ 16 < a.base + a.units

/-- Whether the primary holds a copy, and whether the partner does (Table 3). -/
def Alloc.onPrimary (a : Alloc) : Bool := a.state == .live || a.state == .mirrored || a.state == .primaryOnly
def Alloc.onPartner (a : Alloc) : Bool := a.state == .mirrored || a.state == .partnerOnly

/-- Whether the primary's table lists an allocation: one that it serves, or one that the partner serves since a failover
access of a module that regards the primary as down (R92). -/
def Alloc.listed (a : Alloc) : Bool := a.onPrimary || a.left

/-- Whether plane `p` holds the range of an allocation. -/
def Alloc.holds (a : Alloc) (p : Nat) : Bool :=
  (a.plane == p && a.listed) || (partnerOf a.plane == p && a.onPartner)

/-- Units a tenant uses on a plane (R85). -/
def State.usage (s : State) (p tenant : Nat) : Nat :=
  ((s.allocs.filter (fun a => a.holds p && a.tenant == tenant)).map (·.units)).sum

/-- A tenant's quota on a plane: zero until one is set (R85). -/
def State.quota (s : State) (p tenant : Nat) : Nat :=
  (((s.plane p).quotas.find? (·.1 = tenant)).map (·.2)).getD 0

/-! ## Granules (R83, R90, R94) -/

def Plane.seq (x : Plane) (g : Nat) : Nat := ((x.seqs.find? (·.1 = g)).map (·.2)).getD 0
def Plane.setSeq (x : Plane) (g v : Nat) : Plane := { x with seqs := (g, v) :: x.seqs.filter (·.1 != g) }
/-- The key that a granule is sealed under, and the plane whose offset and sequence made its nonce (R94). -/
def Plane.sealOf (x : Plane) (g : Nat) : Option (KeyMat × Nat) := (x.seals.find? (·.1 = g)).map (·.2)
def Plane.setSeal (x : Plane) (g : Nat) (k : Option (KeyMat × Nat)) : Plane :=
  { x with seals := match k with
    | none => x.seals.filter (·.1 != g)
    | some v => (g, v) :: x.seals.filter (·.1 != g) }
def Plane.markWritten (x : Plane) (g : Nat) : Plane :=
  if x.written.contains g then x else { x with written := g :: x.written }

/-- The 64 bytes of a granule as a request sees them: in clear, the stored ciphertext of a sealed granule (log 14);
with a key, the decrypted bytes, or none where the integrity check fails (R94). -/
def State.granuleView (s : State) (p g : Nat) (key : Option KeyMat) : Option (List Byte) :=
  let x := s.plane p
  let stored := s.mem.read (planeStore p + 64 * g) 64
  match key, x.sealOf g with
  | none, none => some stored
  | none, some (k, q) => some ((List.range 64).map (fun i => Config.cipherByte (planeStore q + 64 * g + i) k (x.seq g)))
  | some k, some (k', _) => if k = k' then some stored else none
  | some _, none => if x.written.contains g then none else some stored

/-- A granule written whole: its sequence becomes `seq` and it is sealed, or not, as `sealed` says; its poison goes where
`good` says that the bytes written cover it (R379). -/
def State.putGranule (s : State) (p g : Nat) (bs : List Byte) (sealed : Option (KeyMat × Nat)) (seq : Nat) (good : Bool) :
    State :=
  let x := (((s.plane p).setSeq g seq).setSeal g sealed).markWritten g
  { s.setPlane p x with
    mem := s.mem.write (planeStore p + 64 * g) bs
    poison := if good then s.poison.filter (· != planeStore p / 64 + g) else s.poison }

/-- Whether a granule is poisoned at a plane (R379). -/
def State.granuleBad (s : State) (p g : Nat) : Bool := s.poison.contains (planeStore p / 64 + g)

/-- The partner installs an image whose sequence is above its own; it is the ciphertext that the primary sealed (R90, R94), and
`bad` says that the granule was poisoned there, which the image carries on (R379, log 87). -/
def State.installImage (s : State) (p g seq : Nat) (bs : List Byte) (key : Option KeyMat) (bad : Bool) : State :=
  if (s.plane p).seq g < seq then
    let s1 := s.putGranule p g bs (key.map (fun k => (k, partnerOf p))) seq true
    if bad then { s1 with poison := (planeStore p / 64 + g) :: s1.poison } else s1
  else s

/-- Images still on their way to plane `q` arrive: no module of theirs has failed (R91). -/
def State.settleImages (s : State) (q : Nat) : State :=
  let mine (e : Event) : Bool := match e with
    | .mirrorImageInstall m => m.plane == q
    | _ => false
  let install (t : State) (e : Event) : State := match e with
    | .mirrorImageInstall m =>
      if t.allocs.any (fun a => a.plane == partnerOf q && a.onPartner && a.covers (64 * m.granule)) then
        t.installImage q m.granule m.seq m.data m.sealed m.bad
      else t
    | _ => t
  (s.agenda.filter mine).foldl install { s with agenda := s.agenda.filter (fun e => !mine e) }

/-- One granule's part of an access at plane `p`: `n` bytes from byte `o` of granule `g`; `f` gives the bytes to
write from the old ones. A store of the whole granule reads nothing, and is sent as ciphertext if it is sealed (R95). The
granule's image goes to plane `mirror` when there is one (R90). Poison that is read raises DATA_MEMORY; a smaller store writes
its bytes, and the granule stays poisoned (R379). -/
def State.granuleDo (s : State) (p g o n : Nat) (reads : Bool) (key : Option KeyMat) (mirror : Option Nat)
    (f : List Byte → Option (List Byte)) : Except Cause (List Byte × State) :=
  let whole := o == 0 && n == 64
  let view := if whole && !reads then some [] else s.granuleView p g key
  if reads && s.granuleBad p g then .error .dataMemory
  else match view with
  | none => .error .keySlotEmpty
  | some view =>
    let old := (view.drop o).take n
    match f old with
    | none => .ok (old, s)
    | some new =>
      let img := view.take o ++ new ++ view.drop (o + n)
      let seq := ((s.plane p).seq g + 1) % 2 ^ 48
      let s1 := s.putGranule p g img (key.map (fun k => (k, p))) seq whole
      match mirror with
      | none => .ok (old, s1)
      | some q => .ok (old, s1.installImage q g seq img key (s1.granuleBad p g))

/-! ## Accesses (R80, R87 to R92) -/

/-- Why an access does not complete now: a cause, met once its request has done at its home what it does there, or it waits
and is tried again. -/
inductive Stop where
  | cause (c : Cause) (s : State)
  | wait
  deriving DecidableEq, Repr

/-- Whether a plane holds accesses to a granule back, for a merge under way (R95). -/
def State.granuleLocked (s : State) (p off : Nat) : Bool := (s.plane p).locks.any (·.1 == off / 64)

/-- An access at the plane that serves it, once the granule is free (R95). -/
def State.granuleTurn (s : State) (p off n : Nat) (reads : Bool) (key : Option KeyMat) (mirror : Option Nat)
    (f : List Byte → Option (List Byte)) : Except Stop (List Byte × State) :=
  if s.granuleLocked p off then .error .wait
  else match s.granuleDo p (off / 64) (off % 64) n reads key mirror f with
    | .error c => .error (.cause c s)
    | .ok r => .ok r

/-- From the first failover access on, the partner serves an allocation; the primary, where it is still in service, keeps
its table's entry and refuses accesses with SWITCH_TIER_LOST, so that their modules send them to the partner (R92). -/
def Alloc.failsOver (a : Alloc) (primaryUp : Bool) : Alloc :=
  if a.state == .mirrored then { a with state := .partnerOnly, left := primaryUp } else a

/-- An access that fails over to the partner (R92). One through a leaf that names the partner plane itself finds no live
allocation there. DESIGN CHOICE (log 23): another tenant's access to a mirror record raises SWITCH_NOT_OWNED. -/
def State.failover (s : State) (p tag off n tenant : Nat) (reads : Bool) (key : Option KeyMat)
    (f : List Byte → Option (List Byte)) : Except Stop (List Byte × State) :=
  let q := partnerOf p
  if s.allocs.any (fun a => partnerOf a.plane == p && a.mirror && a.covers off) &&
      !s.allocs.any (fun a => a.plane == p && a.covers off) then .error (.cause .switchNotOwned s)
  else if !(s.regardsUp q && (s.plane q).up) then .error (.cause .switchTierLost s)
  else match s.allocs.find? (fun a => a.plane == p && a.tag == tag && a.onPartner && a.covers off) with
    | none => .error (.cause .switchTierLost s)
    | some a =>
      if a.tenant != tenant then .error (.cause .switchNotOwned s)
      else ((s.settleImages q).setAlloc (a.failsOver (s.plane p).up)).granuleTurn q off n reads key none f

/-- An access of this module to a plane, within one granule: the generation check, the ownership check, and failover
where the plane is down or refuses the tag, or the partner serves the allocation (R18, R80, R92). DESIGN CHOICE (log 88): while
only this module's port to the partner is lost, the image still reaches the partner in the same step; R90 does not say how it
travels then. -/
def State.planeDo (s : State) (p tag off n tenant : Nat) (reads : Bool) (key : Option KeyMat)
    (f : List Byte → Option (List Byte)) : Except Stop (List Byte × State) :=
  let x := s.plane p
  if !(s.regardsUp p && x.up) || x.gen.toNat % 32 != tag then s.failover p tag off n tenant reads key f
  else match s.allocs.find? (fun a => a.plane == p && a.listed && a.covers off) with
    | none => .error (.cause .switchNotOwned s)
    | some a =>
      if a.tenant != tenant then .error (.cause .switchNotOwned s)
      else if a.left then s.failover p tag off n tenant reads key f
      else s.granuleTurn p off n reads key (if a.state == .mirrored then some (partnerOf p) else none) f

/-! ## Allocation (R81 to R86) -/

def statusWord (code : Nat) : Word := w64 code

/-- The handle of an allocation (R81, Table 1). -/
def Alloc.handle (a : Alloc) : Word :=
  w64 (bit01 a.mirror * 2 ^ 63 + a.plane * 2 ^ 58 + a.tag * 2 ^ 53 + a.base * 2 ^ 27 + a.aseq * 2 ^ 8)

/-- `a` rounded up to a multiple of `n`. -/
def alignUp (n a : Nat) : Nat := (a + n - 1) / n * n

/-- Alignment of an allocation in 64 KiB units (R82). -/
def allocAlign (units : Nat) : Nat := if 2 ^ 20 ≤ units then 2 ^ 20 else if 2 ^ 10 ≤ units then 2 ^ 10 else 1

/-- Whether a range of units is free on plane `p`. -/
def State.rangeFree (s : State) (p base units : Nat) : Bool :=
  base + units ≤ 2 ^ 26 && s.allocs.all (fun a => !a.holds p || a.base + a.units ≤ base || base + units ≤ a.base)

/-- The first of some candidate bases, counted on from `start` around the plane, at which the range is free on every
plane needed. -/
def firstFree (ok : Nat → Bool) (start : Nat) : List Nat → Option Nat
  | [] => none
  | b :: bs =>
    let d (x : Nat) : Nat := (x + 2 ^ 26 - start % 2 ^ 26) % 2 ^ 26
    match firstFree ok start bs with
    | none => if ok b then some b else none
    | some c => if ok b && d b ≤ d c then some b else some c

/-- The base a plane grants: some free range of the size and alignment, which the spec does not say (log 17). -/
def State.findRange (s : State) (planes : List Nat) (units : Nat) : Option Nat :=
  let al := allocAlign units
  let ok (b : Nat) : Bool := planes.all (fun p => s.rangeFree p b units)
  let start := Config.freeRange s.fresh
  firstFree ok start (alignUp al (start % 2 ^ 26) :: 0 :: s.allocs.map (fun a => alignUp al (a.base + a.units)))

/-- Sequences of a mirrored range start from the higher of the two planes' values (R83). -/
def joinSeqs (x y : Plane) (lo hi : Nat) : List (Nat × Nat) :=
  let inside (g : Nat) : Bool := lo ≤ g && g < hi
  ((x.seqs ++ y.seqs).filter (fun k => inside k.1)).map (fun k => (k.1, max (x.seq k.1) (y.seq k.1))) ++
    x.seqs.filter (fun k => !inside k.1)

/-- One attempt of `swalloc` on a named primary: a status, or the handle and the new state (R82). -/
def State.allocOn (s : State) (p units tenant : Nat) (mirror : Bool) : Except Nat (Word × State) :=
  let q := partnerOf p
  let planes := if mirror then [p, q] else [p]
  let up (k : Nat) : Bool := s.regardsUp k && (s.plane k).up
  if !planes.all up then .error 0x03
  else if planes.any (fun k => s.quota k tenant < s.usage k tenant + units) then .error 0x01
  else match s.findRange planes units with
    | none => .error 0x02
    | some base =>
      let x := s.plane p
      let a : Alloc := ⟨p, x.gen.toNat % 32, base, units, (x.aseq + 1) % 2 ^ 19, tenant, mirror,
        if mirror then .mirrored else .live, false, none⟩
      let x1 := { x with aseq := (x.aseq + 1) % 2 ^ 19 }
      let lo := base * 1024
      let hi := (base + units) * 1024
      let s1 : State :=
        if mirror then
          (s.setPlane p { x1 with seqs := joinSeqs x (s.plane q) lo hi }).setPlane q
            { s.plane q with seqs := joinSeqs (s.plane q) x lo hi }
        else s.setPlane p x1
      .ok (a.handle, { s1 with allocs := a :: s1.allocs, lastGrant := some p, fresh := s.fresh + 1 })

/-- `swalloc` with plane 31: planes in increasing order mod 18 from `p` on, those down skipped; the first success, or
the status of the last plane tried (R82). -/
def State.allocAny (s : State) (units tenant : Nat) (mirror : Bool) : Nat → Nat → Nat → Except Nat (Word × State)
  | 0, _, last => .error last
  | n + 1, p, last =>
    if !s.regardsUp p then State.allocAny s units tenant mirror n ((p + 1) % 18) last
    else match s.allocOn p units tenant mirror with
      | .ok r => .ok r
      | .error e => State.allocAny s units tenant mirror n ((p + 1) % 18) e

/-- `swalloc` (R82, R83): the result word, and the state after. DESIGN CHOICE: the order of the statuses where several hold
(log 21), and where the search for a free range begins (log 17). -/
def State.swallocOp (s : State) (size flags : Word) : Word × State :=
  let p := flags.toNat % 32
  let mirror := bitAt flags.toNat 5
  if !s.sys.fabtr then (statusWord 0x03, s)
  else if flags.toNat / 64 != 0 then (statusWord 0x09, s)
  else if 18 ≤ p && p != 31 then (statusWord 0x05, s)
  else if size.toNat = 0 || 2 ^ 40 < size.toNat then (statusWord 0x04, s)
  else match s.tenantOf (s.slotOf s.core.run.asid.toNat) with
    | none => (statusWord 0x06, s)
    | some t =>
      let units := ceilDiv size.toNat (2 ^ 16)
      let r := if p = 31 then
          s.allocAny units t mirror 18 (match s.lastGrant with
            | none => 0
            | some k => (k + 1) % 18) 0x03
        else s.allocOn p units t mirror
      match r with
      | .ok (h, s1) => (h, s1)
      | .error e => (statusWord e, s)

/-- A freed range is zeroed at a plane, sequences kept (R83). -/
def State.zeroRange (s : State) (p base units : Nat) : State :=
  let lo := base * 1024
  let hi := (base + units) * 1024
  let out (g : Nat) : Bool := g < lo || hi ≤ g
  let x := s.plane p
  { s.setPlane p { x with written := x.written.filter out, seals := x.seals.filter (fun k => out k.1) } with
    poison := s.poison.filter (fun h => out (h - planeStore p / 64) || h < planeStore p / 64)
    mem := s.mem.erase (planeStore p + base * 2 ^ 16) (planeStore p + (base + units) * 2 ^ 16) }

/-- `swfree` (R84): the result word, and the state after. DESIGN CHOICE (log 22): where several statuses hold, BADPLANE comes
first, then NOTENANT, STALE, PLANEDOWN and NOTOWNER; and a word whose M or low bits differ from the handle's names no
allocation. -/
def State.swfreeOp (s : State) (h : Word) : Word × State :=
  let p := bits h.toNat 62 58
  let up (k : Nat) : Bool := s.regardsUp k && (s.plane k).up
  let hit (a : Alloc) : Bool := a.handle == h
  if !s.sys.fabtr then (statusWord 0x03, s)
  else if 18 ≤ p then (statusWord 0x05, s)
  else match s.tenantOf (s.slotOf s.core.run.asid.toNat) with
    | none => (statusWord 0x06, s)
    | some t =>
      match s.allocs.find? hit with
      | none => (statusWord 0x07, s)
      | some a =>
        let needs := (if a.onPrimary then [p] else []) ++ (if a.onPartner then [partnerOf p] else []) ++ a.waits.toList
        if !needs.all up then (statusWord 0x03, s)
        else if a.state == .lost then (statusWord 0x07, s)
        else if a.tenant != t then (statusWord 0x08, s)
        else
          let s1 := if a.listed then s.zeroRange p a.base a.units else s
          let s2 := if a.onPartner then s1.zeroRange (partnerOf p) a.base a.units else s1
          (0, { s2 with allocs := s2.allocs.filter (fun b => !hit b) })

/-- `swquota` (R85): the result word. -/
def State.swquotaOp (s : State) (sel : Word) : Word :=
  let p := sel.toNat % 32
  if !s.sys.fabtr then statusWord 0x03
  else if sel.toNat / 32 != 0 then statusWord 0x09
  else if 18 ≤ p then statusWord 0x05
  else match s.tenantOf (s.slotOf s.core.run.asid.toNat) with
    | none => statusWord 0x06
    | some t =>
      if !(s.regardsUp p && (s.plane p).up) then statusWord 0x03
      else w64 (s.quota p t * 2 ^ 36 + s.usage p t * 2 ^ 8)

/-! ## Planes going down and up (R77, R78, Table 3) -/

/-- Table 3 at the failure of plane `p`. -/
def Alloc.planeFails (a : Alloc) (p : Nat) : Alloc :=
  if a.plane == p then
    match a.state with
    | .live => { a with state := .lost, waits := some p }
    | .primaryOnly => { a with state := .lost, waits := some p }
    | .mirrored => { a with state := .partnerOnly }
    | .partnerOnly => { a with left := false }
    | .lost => { a with left := false }
  else if partnerOf a.plane == p then
    match a.state with
    | .mirrored => { a with state := .primaryOnly }
    | .partnerOnly => { a with state := .lost, waits := some p }
    | _ => a
  else a

/-- Plane `p` itself fails: images sent before reach its partner, and its allocations move as Table 3 says (R91). -/
def State.planeFail (s : State) (p : Nat) : State :=
  let s1 := s.settleImages (partnerOf p)
  { s1.setPlane p { s1.plane p with up := false, locks := [], held := [] } with
    allocs := s1.allocs.map (fun a => Alloc.planeFails a p)
    agenda := s1.agenda.filter (fun e => match e with
      | .mirrorImageInstall m => m.plane != p
      | .mergeLockLapse k _ => k != p
      | _ => true) }

/-- The steps of R78 on a change of what the module regards plane `p` as. -/
def State.planeChange (s : State) (p : Nat) (up : Bool) (gen : Option Nat) : State :=
  let r := s.swRegs
  let bit : BitVec 18 := 1#18 <<< p
  let g := match gen with
    | none => r.gen
    | some v => (p, BitVec.ofNat 32 v) :: r.gen.filter (·.1 != p)
  ({ s with swRegs := { r with
      up := if up then r.up ||| bit else r.up &&& ~~~bit, gen := g, chg := r.chg ||| bit } }).registerSignal r.baton true

/-- Plane `p` goes down for the module: its link is lost, or, with `failed`, the pod's notice says that the plane has
failed. The later of the two changes no register (R78). -/
def State.planeDownOp (s : State) (p : Nat) (failed : Bool) : State :=
  let s1 := if failed then s.planeFail p else s
  if s.regardsUp p then s1.planeChange p false none else s1

/-- A plane's contents when it returns to service under another generation: nothing is listed, no tenant uses it, and its
bytes are zero (R77). What its partner still lists of an allocation lost with it is zeroed and free (R83). -/
def State.planeEmpty (s : State) (p gen : Nat) : State :=
  let s0 := s.planeFail p
  let s1 := (s0.allocs.filter (fun a => a.waits == some p && a.left)).foldl (fun t a => t.zeroRange a.plane a.base a.units) s0
  let x := s1.plane p
  { s1.setPlane p { x with up := true, gen := BitVec.ofNat 32 gen, seals := [], written := [] } with
    allocs := s1.allocs.filter (fun a => a.waits != some p)
    poison := s1.poison.filter (fun h => h < planeStore p / 64 || planeStore (p + 1) / 64 ≤ h)
    mem := s1.mem.erase (planeStore p) (planeStore (p + 1)) }

/-- A plane in service with generation `gen`: one that has failed since returns empty. -/
def State.planeServes (s : State) (p gen : Nat) : State :=
  let x := s.plane p
  if x.up && x.gen == BitVec.ofNat 32 gen then s else s.planeEmpty p gen

/-- The return notice of plane `p` with its generation (R77, R78). -/
def State.planeUpOp (s : State) (p gen : Nat) : State := (s.planeServes p gen).planeChange p true (some gen)

end Sys2Proof.Machine
end

