-- ==== Sys2Proof/Machine/Device.lean ====
section
/-! DEFINITION. Home slices and memory controllers (spec/02_memory_hierarchy.md, spec/18_system.md R411, R412):
inline encryption, poison, access counters, range monitors, and the bytes that an access reads and writes. -/

namespace Sys2Proof.Machine

/-! ## Inline encryption (R27) and poison (R379) -/

/-- The key that the 16-byte block holding a storage address was last written under; none when no access has written
it since it was zeroed (R406). -/
def State.blockKey (s : State) (a : Nat) : Option KeyMat := (s.sealKeys.find? (·.1 = a / 16)).map (·.2)

/-- The byte at a storage address as an access through key `k` reads it (log 14). -/
def State.keyedByte (s : State) (k : KeyMat) (a : Nat) : Byte :=
  match s.blockKey a with
  | none => s.mem.get a
  | some k' => if k' = k then s.mem.get a else Config.wrongKeyByte a k k'

/-- `n` bytes so read. -/
def State.keyedRead (s : State) (k : KeyMat) (a : Nat) : Nat → List Byte
  | 0 => []
  | n + 1 => s.keyedByte k a :: State.keyedRead s k (a + 1) n

/-- A block's bytes brought under key `k`, as an access through `k` reads them. -/
def State.rekey (s : State) (k : KeyMat) (a : Nat) : State :=
  if s.blockKey a = some k then s
  else
    let b := a / 16
    { s with
      mem := if (s.blockKey a).isNone then s.mem else s.mem.write (b * 16) (s.keyedRead k (b * 16) 16)
      sealKeys := (b, k) :: s.sealKeys.filter (·.1 != b) }

/-- Every block from the one holding `a` on, `n` of them. -/
def State.rekeyAll (s : State) (k : KeyMat) (a : Nat) : Nat → State
  | 0 => s
  | n + 1 => State.rekeyAll (s.rekey k a) k (a + 16) n

/-- Bytes written at a storage address through key `k`; poison of every 64-byte half covered whole is cleared. -/
def State.keyedWrite (s : State) (k : KeyMat) (a : Nat) (bs : List Byte) : State :=
  if bs.isEmpty then s
  else
    let s1 := s.rekeyAll k a ((a + bs.length - 1) / 16 - a / 16 + 1)
    { s1 with
      mem := s1.mem.write a bs
      poison := s1.poison.filter (fun h => !(decide (a ≤ 64 * h) && decide (64 * h + 64 ≤ a + bs.length))) }

/-- Whether any of `n` bytes at a storage address is poisoned (R379). -/
def State.poisoned (s : State) (a n : Nat) : Bool :=
  n != 0 && s.poison.any (fun h => a / 64 ≤ h && h ≤ (a + n - 1) / 64)

/-! ## Access counters (R70 to R72) -/

/-- Memory events signal the baton in HEVBATON (R63, R64, R72). -/
def State.memoryEvent (s : State) : State := s.registerSignal s.memRegs.hevBaton true

/-- An access-counter event is appended to the ring, or dropped (R72). -/
def State.counterEvent (s : State) (frame : Nat) (host : Bool) : State :=
  let r := s.memRegs
  if (r.acHead - r.acTail).toNat = 4096 then
    { s with memRegs := { r with acLost := if r.acLost = 0xFFFFFFFF then r.acLost else r.acLost + 1 } }
  else
    let s1 := s.storeHbm (r.acRing.toNat * 2 ^ 15 + 8 * (r.acHead.toNat % 4096))
      (leBytes 8 (frame + (if host then 2 ^ 62 else 0)))
    ({ s1 with memRegs := { r with acHead := r.acHead + 1 } }).memoryEvent

/-- One counted request adds one to its frame's counter, which stops at 0xFFFF (R70). A counter in a core's spill region cannot
be reached (R68, log 27). -/
def State.countAccess (s : State) (pa : Nat) (host : Bool) : State :=
  let f := pa / 2 ^ 16
  if host && s.memRegs.acHLim.toNat ≤ f then s
  else
    let a := (if host then s.memRegs.acHBase.toNat else s.memRegs.acBase.toNat) * 2 ^ 16 + 2 * f
    let v := s.mem.readNat a 2
    if v = 0xFFFF || s.inSpillRegion a then s
    else
      let s1 := s.storeHbm a (leBytes 2 (v + 1))
      if v + 1 = s.memRegs.acThresh.toNat then s1.counterEvent f host else s1

/-! ## Range monitors (R411, R412) -/

def State.monitor (s : State) (m : Nat) : Monitor :=
  ((s.sys.monitors.find? (·.1 = m)).map (·.2)).getD ⟨false, false, false, false, 0, 0⟩

/-- Whether a request's kind counts as a read, and as a write (R411). -/
def kindReads (k : Nat) : Bool := k == 1 || k == 3 || k == 4 || k == 6
def kindWrites (k : Nat) : Bool := k == 2 || k == 3 || k == 5 || k == 7

/-- Whether a monitor logs a request for a byte. -/
def Monitor.logs (m : Monitor) (kind pa : Nat) : Bool :=
  m.en && decide (m.base.toNat ≤ pa / 4096) && decide (pa / 4096 < m.limit.toNat) &&
    ((m.rd && kindReads kind) || (m.wr && kindWrites kind))

/-- The lowest-numbered monitor that logs one of the bytes from `pa` to `pa + len - 1`, with the first byte it covers. -/
def State.monitorFor (s : State) (kind pa len : Nat) : Option (Nat × Nat) :=
  let starts := pa :: ((List.range ((pa + len - 1) / 4096 - pa / 4096)).map (fun i => (pa / 4096 + 1 + i) * 4096))
  (List.range 64).findSome? (fun m => (starts.find? ((s.monitor m).logs kind)).map (fun a => (m, a)))

/-- An entry of the access log (R412, Table 6). -/
def logEntry (m first : Nat) (r : HomeReq) (n : Nat) : List Byte :=
  leBytes 8 first ++ leBytes 8 r.coro.toNat ++
    leBytes 8 (r.kind + m * 2 ^ 8 + (r.len - 1) % 256 * 2 ^ 16 + r.slot * 2 ^ 24 + r.asid * 2 ^ 32) ++ leBytes 8 n

/-- The request is logged; none where it waits for room in the ring (R412). -/
def State.logAccess (s : State) (r : HomeReq) : Option State :=
  if r.host then some s
  else match s.monitorFor r.kind r.addr r.len with
    | none => some s
    | some (m, first) =>
      let y := s.sys
      if (y.monHead - y.monTail).toNat < 2 ^ y.monLog.toNat then
        let s1 := s.storeHbm (y.monBase.toNat * 4096 + 32 * (y.monHead.toNat % 2 ^ y.monLog.toNat))
          (logEntry m first r y.monHead.toNat)
        some { s1 with sys := { y with monHead := y.monHead + 1 } }
      else if (s.monitor m).stall then none
      else some { s with sys := { y with monLost := if y.monLost = 0xFFFFFFFF then y.monLost else y.monLost + 1 } }

/-- A request reaches the home slice of its line: it is logged and counted (R56, R70, R411); none where it waits. -/
def State.homeArrive (s : State) (r : HomeReq) : Option State :=
  match s.logAccess r with
  | none => none
  | some s1 => some (if r.ace then s1.countAccess r.addr r.host else s1)

/-! ## Hash functions of the remap domains (R61) -/

/-- `fv(x)` of R61. -/
def hashFv (ver x : Nat) : Nat := x / 1024 * 1024 + ((x % 1024) ^^^ (x / 1024 * ver % 1024))

/-- The global granule that the prime and XOR functions give local granule `x` of domain `d` (R61). -/
def primeGranule (d ver x : Nat) : Nat := d * 2 ^ 22 + hashFv ver x
def xorGranule (d ver x : Nat) : Nat :=
  let y := hashFv ver x
  d * 2 ^ 22 + (y / 1024 * 1024 + ((y % 1024) ^^^ (y / 1024 % 1024) ^^^ (y / 2 ^ 20 % 4)))

/-- The logical bank and row of a global granule under prime placement (R61). -/
def bankOf (g : Nat) : Nat := g % 1021
def rowOf (g : Nat) : Nat := g / 1021

/-- The slot of linear granule `k` in the footprint of the global granules from `a` to `a + n - 1`, slots ordered by bank
and then by row; the search begins at bank `b` (R61). -/
def linearSlot (a n : Nat) : Nat → Nat → Nat → Nat × Nat
  | 0, b, _ => (b, 0)
  | fuel + 1, b, k =>
    let first := a + (b + 1021 - a % 1021) % 1021
    let count := if a + n ≤ first then 0 else (a + n - first + 1020) / 1021
    if k < count then (b, rowOf first + k) else linearSlot a n fuel (b + 1) (k - count)

/-- Logical bank and row of local granule `x` of domain `d` under a function and a version; a spare domain lies in its own
bank (R61, R62). -/
def granuleSlot (d func ver x : Nat) : Nat × Nat :=
  if 1021 ≤ d then (d, hashFv ver x)
  else match func with
    | 1 => (bankOf (xorGranule d ver x), rowOf (xorGranule d ver x))
    | 2 => linearSlot (d * 2 ^ 22) (2 ^ 22) 1021 0 (hashFv ver x)
    | _ => (bankOf (primeGranule d ver x), rowOf (primeGranule d ver x))

/-- First byte of the migration bitmap of a domain, in the firmware-reserved region (R65, log 29). -/
def bitmapBase (d : Nat) : Nat := Config.firmwareBase + d * 2 ^ 19

/-- Whether the bitmap says that a granule of a migrating domain lies in the new mapping (R65). -/
def State.granuleMoved (s : State) (d x : Nat) : Bool := bitAt (s.mem.get (bitmapBase d + x / 8)).toNat (x % 8)

/-- Logical bank and row of the granule at an HBM offset, by the mapping that holds it (R61, R65). -/
def State.hbmSlot (s : State) (off : Nat) : Nat × Nat :=
  let d := off / 2 ^ 30
  let x := off % 2 ^ 30 / 256
  let m := s.domain d
  if m.mig && s.granuleMoved d x then granuleSlot d m.nfunc.toNat m.nver.toNat x
  else granuleSlot d m.func.toNat m.ver.toNat x

/-- Physical channel of a logical bank (R60). -/
def State.pcmapAt (s : State) (b : Nat) : BitVec 10 :=
  ((s.memRegs.pcmap.find? (·.1 = b)).map (·.2)).getD (BitVec.ofNat 10 b)

/-- Where a byte of HBM lies: stack, pseudo-channel of the stack, row, and byte of the row's granule (R60). -/
def State.hbmPlace (s : State) (off : Nat) : Nat × Nat × Nat × Nat :=
  let c := (s.pcmapAt (s.hbmSlot off).1).toNat
  (c / 64, c % 64, (s.hbmSlot off).2, off % 256)

/-! ## What an access reads and writes -/

/-- The request that an access of `len` bytes makes at its home (R70, R412). -/
def homeReq (coro : Word) (slot asid : Nat) (x : Xlat) (pa : Nat) (host : Bool) (len kind : Nat) : HomeReq :=
  ⟨pa, host, len, x.ace, kind, coro, slot, asid, x.skew⟩

/-- By which way an access comes: the units of the core in focus, which see its L1; one of its copy channels; an agent that
is no core; or a unit of a die that copies in beats (R336). -/
inductive Via where
  | core
  | relay
  | device
  | unit
  deriving DecidableEq, Repr

/-- Who issues an access, as a home slice, a monitor and a plane see it. -/
structure Issuer where
  coro : Word
  asid : Nat
  slot : Nat
  via  : Via
  deriving DecidableEq, Repr

/-- The kind of R412 of an access: it reads, writes or does both. -/
def accessKind (relay reads writes : Bool) : Nat :=
  if reads && writes then 3 else if writes then (if relay then 5 else 2) else (if relay then 4 else 1)

/-- Bytes of HBM, of this module or another, read and written: `f` gives the new bytes from the old, if any. An access
that reads poison fails with DATA_MEMORY (R379). -/
def State.blockDo (s : State) (k : KeyMat) (a n : Nat) (reads : Bool) (f : List Byte → Option (List Byte)) :
    Except Stop (List Byte × State) :=
  if reads && s.poisoned a n then .error (.cause .dataMemory s)
  else
    let old := if reads then s.keyedRead k a n else []
    match f old with
    | none => .ok (old, s)
    | some new => .ok (old, s.keyedWrite k a new)

/-- Host memory through the Olivon link: while the link is down reads meet poison, and stores stay as dirty lines
(R400). -/
def State.hostDo (s : State) (a n : Nat) (reads : Bool) (f : List Byte → Option (List Byte)) :
    Except Stop (List Byte × State) :=
  if reads && (!s.sys.link || s.poisoned (hostStore + a) n) then .error (.cause .dataMemory s)
  else
    let old := if reads then s.mem.read (hostStore + a) n else []
    match f old with
    | none => .ok (old, s)
    | some new =>
      if s.sys.link then .ok (old, { s with
        mem := s.mem.write (hostStore + a) new
        poison := s.poison.filter (fun h =>
          !(decide (hostStore + a ≤ 64 * h) && decide (64 * h + 64 ≤ hostStore + a + new.length))) })
      else .ok (old, { s with hostDirty := s.hostDirty ++ new.mapIdx (fun i b => (hostStore + a + i, b)) })

/-- A part of an access that lies in one 64-byte granule of a plane. -/
def State.tierDo (s : State) (iss : Issuer) (x : Xlat) (p tag off n : Nat) (reads : Bool)
    (f : List Byte → Option (List Byte)) : Except Stop (List Byte × State) :=
  s.planeDo p tag off n ((s.tenantOf iss.slot).getD 0) reads
    (if x.conf then some (s.keyMat x.key) else none) f

/-! ## Homes (R56, R69, R115) -/

/-- The die of the agent that makes an access, by the CORO that it names; the host and the starter name none, and count as
die 0 (R57, R157, log 84). -/
def dieOfCoro (coro : Word) : Nat := bits coro.toNat 53 50

/-- A line is allocated in the second-level cache for an agent of a die, where it is not there (R25, R56, R57). -/
def State.allocL2 (s : State) (die store pa skew slot : Nat) (keep : Bool) : State :=
  { s with caches := s.caches.l2Alloc (store / 128) (s.memRegs.placeSlice skew die pa) slot keep }

/-- What HBM holds of a line of the second-level cache before the line is first written is kept beneath it (R405). -/
def State.dirtyL2 (s : State) (store : Nat) : State :=
  let line := store / 128
  let mark (l : L2Line) : L2Line :=
    if l.line == line && l.under.isNone then
      { l with under := some (s.mem.read (line * 128) 128,
          s.sealKeys.filter (fun k => decide (line * 8 ≤ k.1) && decide (k.1 < line * 8 + 8))) }
    else l
  { s with caches := { s.caches with l2 := s.caches.l2.map mark } }

/-- Words registered to cores that `p` selects leave their L1s: the home has taken them (R115). -/
def State.revoke (s : State) (p : Nat → Bool) (store n : Nat) : State :=
  { s with caches := s.caches.revoke p store n }

/-- Copies of some words in the L1 of the core in focus leave it (R118). -/
def State.forget (s : State) (store n : Nat) : State :=
  { s with caches := s.caches.mapL1 (fun l =>
      if lineIn l.line store n && l.core == s.core.id then l.drop (wordsOf (lineMask l.line store n)) else l) }

/-- Bytes that a core's L1 gives to their home: written there, with no request of their own. None reaches what has become a
spill region (R68, log 27). -/
def State.putHome (s : State) (x : Xlat) (store : Nat) (bs : List Byte) : State :=
  match x.target with
  | .hbm _ => if s.inSpillRegion store then s else (s.dirtyL2 store).keyedWrite (s.keyMat x.key) store bs
  | .host _ => match s.hostDo (store - hostStore) bs.length false (fun _ => some bs) with
    | .ok (_, s1) => s1
    | .error _ => s
  | _ => s

/-- The dirty bytes of some words of a line performed at their home, which takes those words from any other core that has
registered them: a word whose error is found there is written as poison (R113, R115, R379). -/
def State.performWords (s : State) (l : L1Line) (ws : BitVec 16) : State :=
  let good := ws &&& ~~~ l.bad
  let s1 := { s with caches := s.caches.revokeWords (· != l.core) l.line (ws &&& wordsOf l.dirty) }
  let s2 := (l.runs (l.dirty &&& wordBytes good)).foldl (fun t r => t.putHome l.x (l.line * 64 + r.1) r.2) s1
  if ws &&& l.bad &&& wordsOf l.dirty = 0 then s2
  else { s2 with poison := l.line :: s2.poison.filter (· != l.line) }

/-- The request of a write-back is counted (R70). -/
def State.countBack (s : State) (l : L1Line) : State :=
  match l.x.target with
  | .hbm pa => if l.x.ace then s.countAccess (pa / 64 * 64) false else s
  | .host pa => if l.x.ace then s.countAccess (pa / 64 * 64) true else s
  | _ => s

/-- A line leaves its L1: its dirty words are written back, and their registrations dropped (R113). -/
def State.writeBack (s : State) (l : L1Line) : State :=
  let s1 := { s with caches := s.caches.dropL1 l.core l.line }
  if l.dirty = 0 then s1
  else
    let pa := match l.x.target with
      | .host _ => l.line * 64 - hostStore
      | _ => l.line * 64
    ((s1.countBack l).allocL2 (dieOf l.core) (l.line * 64) pa l.x.skew l.slot false).performWords l (wordsOf l.dirty)

/-- Lines of the L1s that `p` selects are written back and leave. -/
def State.writeBackAll (s : State) (p : L1Line → Bool) : State := (s.caches.l1.filter p).foldl State.writeBack s

/-- Every dirty word of a core's L1 that is not registered is registered at its home (R113, R114). -/
def State.registerCore (s : State) (core : Nat) : State :=
  (s.caches.l1.filter (fun l => l.core == core && l.loose != 0)).foldl (fun t l =>
    let t1 := t.performWords l l.loose
    { t1 with caches := t1.caches.mapL1 (fun m =>
        if m.core == core && m.line == l.line then (m.register l.loose).drop (l.loose &&& l.bad) else m) }) s

/-- Every core's L1 does so (R40, R36). -/
def State.registerAll (s : State) : State :=
  (s.caches.l1.map (·.core)).dedup.foldl State.registerCore s

/-- A part of an access to HBM or host memory that is served at its home. `quiet` says that its request has been counted
and logged already. -/
def State.homeDo (s : State) (iss : Issuer) (x : Xlat) (n : Nat) (reads writes quiet : Bool)
    (f : List Byte → Option (List Byte)) : Except Stop (List Byte × State) :=
  let kind := accessKind (iss.via == .relay) reads writes
  let arrive (pa : Nat) (host : Bool) : Option State :=
    if quiet then some s else s.homeArrive (homeReq iss.coro iss.slot iss.asid x pa host n kind)
  match x.target with
  | .hbm pa => match arrive pa false with
    | none => .error .wait
    | some s1 =>
      let s2 := s1.allocL2 (dieOfCoro iss.coro) (hbmStore pa) pa x.skew iss.slot false
      let s3 := if writes then (s2.dirtyL2 (hbmStore pa)).revoke (fun _ => true) (hbmStore pa) n else s2
      s3.blockDo (s.keyMat x.key) (hbmStore pa) n reads f
  | .host pa => match arrive pa true with
    | none => .error .wait
    | some s1 =>
      let s2 := s1.allocL2 (dieOfCoro iss.coro) (hostStore + pa) pa x.skew iss.slot false
      let s3 := if writes then s2.revoke (fun _ => true) (hostStore + pa) n else s2
      s3.hostDo pa n reads f
  | _ => .ok ([], s)

/-- The request of a beat for `len` bytes of a line, from the first of them on; none where it waits (R70, R147, R412). -/
def State.beatArrive (s : State) (iss : Issuer) (x : Xlat) (len : Nat) (writes : Bool) : Option State :=
  let kind := if writes then 5 else 4
  match x.target with
  | .hbm pa => s.homeArrive (homeReq iss.coro iss.slot iss.asid x pa false len kind)
  | .host pa => s.homeArrive (homeReq iss.coro iss.slot iss.asid x pa true len kind)
  | _ => some s

/-- Those of an access of several parts, the parts of one line together; `cur` is what has been gathered of a line. -/
def State.beatsArrive (s : State) (iss : Issuer) (writes : Bool) (cur : Option (Xlat × Nat)) :
    List (Xlat × Nat) → Option State
  | [] => match cur with
    | none => some s
    | some (x, n) => s.beatArrive iss x n writes
  | (y, m) :: ps => match cur with
    | none => State.beatsArrive s iss writes (some (y, m)) ps
    | some (x, n) =>
      if (x.target.storage.map (· / 128)) == (y.target.storage.map (· / 128)) then
        State.beatsArrive s iss writes (some (x, n + m)) ps
      else match s.beatArrive iss x n writes with
        | none => none
        | some s1 => State.beatsArrive s1 iss writes (some (y, m)) ps

/-! ## The L1 (R49, R54, R113, R411) -/

/-- Whether a target's data may be held in L1: HBM and host memory are, but for HBM that an enabled monitor covers, and
only while the core has ways for it, and host memory while the link is up (R49, R54, R400, R411). -/
def State.inL1 (s : State) (x : Xlat) : Option Nat :=
  if 8 ≤ s.core.spways then none
  else match x.target with
    | .hbm pa =>
      if s.sys.monitors.any (fun m => m.2.en && decide (m.2.base.toNat ≤ pa / 4096) && decide (pa / 4096 < m.2.limit.toNat))
      then none else some (hbmStore pa)
    | .host pa => if s.sys.link then some (hostStore + pa) else none
    | _ => none

/-- The translation of the first byte of an L1 line. -/
def Xlat.lineOf (x : Xlat) : Xlat :=
  match x.target with
  | .hbm pa => { x with target := .hbm (pa / 64 * 64) }
  | .host pa => { x with target := .host (pa / 64 * 64) }
  | _ => x

/-- The line of the core in focus that holds a storage address; one filled through another key is written back and leaves
(log 25). -/
def State.l1Find (s : State) (x : Xlat) (a : Nat) : Option L1Line × State :=
  match s.caches.l1Line s.core.id (a / 64) with
  | none => (none, s)
  | some l => if l.x.key = x.key then (some l, s) else (none, s.writeBack l)

/-- The line, or a new one that holds nothing, with the state in which a way is free for it (R49, R113). -/
def State.l1Line (s : State) (iss : Issuer) (x : Xlat) (a : Nat) : L1Line × State :=
  match s.l1Find x a with
  | (some l, s1) => (l, s1)
  | (none, s1) =>
    let w := s1.caches.l1Way s.core.id s.core.spways (a / 64)
    (⟨s.core.id, a / 64, w.1, x.lineOf, iss.coro, iss.asid, iss.slot, 0, 0, 0, 0, 0⟩,
      match w.2 with
      | none => s1
      | some v => s1.writeBack v)

/-- A load's part: from the L1, or, where a byte of it is not there, after the line has been read at its home (R113,
R379). -/
def State.l1Read (s : State) (iss : Issuer) (x : Xlat) (a n : Nat) : Except Stop (List Byte × State) :=
  let r := s.l1Line iss x a
  let i := a % 64
  if r.1.holds i n then
    if r.1.spoiled i n then .error (.cause .dataSram s) else .ok (r.1.get i n, r.2)
  else match r.2.homeDo iss x.lineOf 64 true false false (fun _ => none) with
    | .error e => .error e
    | .ok (bs, s2) =>
      if r.1.spoiled i n then .error (.cause .dataSram s)
      else
        let l := r.1.fill bs
        .ok (l.get i n, { s2 with caches := s2.caches.setL1 l })

/-- A store's part: its bytes are dirty in the L1, and, where their words are registered, performed at their home
(R113). -/
def State.l1Write (s : State) (iss : Issuer) (x : Xlat) (a : Nat) (bs : List Byte) : State :=
  let r := s.l1Line iss x a
  let i := a % 64
  let l := { r.1.store i bs with coro := iss.coro, asid := iss.asid, slot := iss.slot, x := x.lineOf }
  let s1 := { r.2 with caches := r.2.caches.setL1 l }
  (l.runs (byteMask i bs.length &&& wordBytes l.owned)).foldl (fun t q => t.putHome x (a / 64 * 64 + q.1) q.2) s1

/-- The lines of the core in focus that hold some of `n` bytes are written back and leave its L1, for an access at the
home. -/
def State.l1Leave (s : State) (a n : Nat) : State :=
  s.writeBackAll (fun l => l.core == s.core.id && lineIn l.line a n)

/-- Dirty bytes of the L1 of the core in focus in place of their home's: a copy channel reads what is performed at `.core`
(R113). -/
def State.overL1 (s : State) (a : Nat) (bs : List Byte) : List Byte :=
  match s.caches.l1Line s.core.id (a / 64) with
  | none => bs
  | some l => bs.mapIdx (fun k b => if l.dirty.getLsbD (a % 64 + k) then l.byte (a % 64 + k) else b)

/-- Whether one of those dirty bytes is uncorrectable. -/
def State.badL1 (s : State) (a n : Nat) : Bool :=
  match s.caches.l1Line s.core.id (a / 64) with
  | none => false
  | some l => l.spoiled (a % 64) n

/-- A copy channel's part: read with the core's own dirty bytes, written at the home; the core's copies of the words leave
its L1, and what else is dirty in them is written back first (R113, R118). -/
def State.relayDo (s : State) (iss : Issuer) (x : Xlat) (a n : Nat) (reads writes : Bool)
    (f : List Byte → Option (List Byte)) : Except Stop (List Byte × State) :=
  if reads && s.badL1 a n then .error (.cause .dataSram s)
  else
    let s0 := if writes then s.l1Leave a n else s
    match s0.homeDo iss x n reads writes true f with
    | .error e => .error e
    | .ok (bs, s1) => .ok (if reads then s.overL1 a bs else bs, if writes then s1.forget a n else s1)

/-! ## What an access reads and writes -/

/-- A part of an access that lies within one page, one 64-byte unit and one granule, at any target but a scratchpad and the
register space. `fresh` says that it is read at its home and never from L1 (R292). -/
def State.outerDo (s : State) (iss : Issuer) (x : Xlat) (n : Nat) (reads writes fresh : Bool)
    (f : List Byte → Option (List Byte)) : Except Stop (List Byte × State) :=
  match x.target with
  | .pod m off => s.blockDo ((s.peerKey m x.key).getD none) (podStore m + off) n reads f
  | .plane p tag off => s.tierDo iss x p tag off n reads f
  | .zero => .ok (List.replicate n 0, s)
  | .pad _ _ => .ok ([], s)
  | .reg _ => .ok ([], s)
  | _ => match x.target.storage with
    | none => .ok ([], s)
    | some a =>
      if iss.via == .relay then s.relayDo iss x a n reads writes f
      else if iss.via == .device || iss.via == .unit then s.homeDo iss x n reads writes (iss.via == .unit) f
      else if (s.inL1 x).isNone || (reads && writes) || fresh then (s.l1Leave a n).homeDo iss x n reads writes false f
      else if reads then s.l1Read iss x a n
      else match f [] with
        | none => .ok ([], s)
        | some bs => .ok ([], s.l1Write iss x a bs)

end Sys2Proof.Machine
end

