-- ==== Sys2Proof/Machine/Lifecycle.lean ====
section
/-! DEFINITION. Creating, ending and killing coroutines (spec/06_execution_model.md R157, R162 to R167, spec/15
R366 to R369), the starter's journal and the references of code objects (spec/14_scheduling.md R352, R356), and the
abort of collectives (spec/05 R154). -/

namespace Sys2Proof.Machine

/-! ## The start list (R352) -/

/-- An entry of the start list (Table 7). -/
def journalEntry (j id event typ queue prio status : Nat) (tag : Word) : List Byte :=
  leBytes 8 j ++ leBytes 8 id ++
    leBytes 8 (event + typ * 2 ^ 8 + queue * 2 ^ 16 + prio * 2 ^ 24 + status * 2 ^ 32) ++ leBytes 8 tag.toNat

/-- The event of record `r` takes the next journal number, and its entry is written before SLHEAD takes it. -/
def State.journal (s : State) (r : QRec) (event status : Nat) : State :=
  let t := s.starter
  let j := t.jno + 1
  let s1 := s.storeHbm (t.slBase.toNat * 4096 + 32 * (j % 2 ^ t.slLog.toNat))
    (journalEntry j (r.seq * 256) event r.type r.queue r.prio status r.tag)
  { s1 with starter := { s1.starter with jno := j, slHead := w64 j } }

/-- The starter makes a decision, when it has a record to decide about (R346). -/
def State.askStarter (s : State) : State :=
  if s.starter.recs.any (·.state == .queued) then s.push .starterDecision else s

def State.setRec (s : State) (r : QRec) : State :=
  { s with starter := { s.starter with recs := s.starter.recs.map (fun x => if x.seq == r.seq then r else x) } }

def State.findRec (s : State) (seq : Nat) : Option QRec := s.starter.recs.find? (·.seq == seq)

/-! ## Code objects (R354 to R358) -/

def State.findObj (s : State) (k : Nat) : Option CodeObj := s.starter.objs.find? (·.num == k)

/-- Whether an address lies in an object's image. -/
def CodeObj.holdsPc (o : CodeObj) (pc : Word) : Bool := o.image.toNat ≤ pc.toNat && pc.toNat < o.image.toNat + o.size

/-- Whether a program counter lies in an object that is loaded or unload pending (R358). -/
def State.inSomeObject (s : State) (pc : Word) : Bool := s.starter.objs.any (·.holdsPc pc)

/-- REFS of an object (R356). -/
def State.objRefs (s : State) (o : CodeObj) : Nat :=
  o.holders.length +
    (s.starter.recs.filter (fun r => r.type == 1 && r.state == .queued && r.code == o.num)).length +
    ((s.cores.map (fun c => (c.allCoros.filter (fun k => k.obj == some o.num)).length)).sum) +
    ((s.cores.map (fun c => (c.coros.filter (fun k => k.obj != some o.num && o.holdsPc k.pc)).length)).sum)

/-- Unloads whose object has lost its last reference become due (R357). -/
def State.askUnloads (s : State) : State :=
  let due := s.starter.objs.filter (fun o => o.pending && s.objRefs o == 0 &&
    !s.agenda.contains (.unloadComplete o.num))
  { s with agenda := s.agenda ++ due.map (fun o => Event.unloadComplete o.num) }

/-! ## Ending (R167, R351) -/

/-- The launch of coroutine `c` counts it as ended: what it stored is registered, for its launch's completion is a release;
when it was the last one, the launch completes (R121, R351). The end of any coroutine calls for a decision (R346). -/
def State.countEnd (s : State) (c : Coro) (killed : Bool) : State :=
  (match s.findRec c.launch with
  | none => s
  | some r =>
    let r1 := { r with
      alive := r.alive - 1
      killed := r.killed || killed
      fflags := if killed then r.fflags else r.fflags ||| c.fflags }
    let s1 := (s.registerCore s.core.id).setRec r1
    if r1.alive = 0 then s1.push (.launchCompletion r.seq) else s1).askStarter

/-- The creator of collective batons has ended: their tags are in no set any more (R154, R167). -/
def State.dropTags (s : State) (cnum : BitVec 10) : State :=
  let id := s.core.id
  { s with batons := s.batons.map (fun b =>
      if b.2.creator == some (id, cnum.toNat) then (b.1, { b.2 with creator := none }) else b) }

/-- Module's own batons that carry a tag take COLLECTIVE_ABORT, and the supervisor a notice (R154). -/
def State.abortTag (s : State) (sender : Nat) (group : BitVec 16) (cgen : BitVec 8) : State :=
  let tagged := s.batons.filter (fun b => b.2.live && b.2.cl && b.2.group == group && b.2.cgen == cgen)
  let s1 := tagged.foldl (fun t b => t.errLocal (handleOf b.1 b.2.gen.toNat) 0x01) s
  s1.appendRecord 0 false
    (advisory 7 0 0 0 0 0 0 (w64 sender) 0 (w64 (group.toNat * 2 ^ 16 + cgen.toNat * 2 ^ 32)))

/-- The copies of an abort message: to every other module of the pod, one through each plane that is up (R154). -/
def State.abortCopies (s : State) (group : BitVec 16) (cgen : BitVec 8) : List FabricMsg :=
  s.peers.flatMap (fun m => ((List.range 18).filter (fun p => s.swRegs.up.getLsbD p)).map (fun p =>
    .abort m.1 p group cgen))

/-- A killed coroutine's collectives abort: one message per tag to the pod, and the same here (R154, R369). -/
def State.sendAborts (s : State) (tags : List (BitVec 16 × BitVec 8)) : State :=
  tags.foldl (fun t g =>
    ({ t with fabric := t.fabric ++ t.abortCopies g.1 g.2 }).abortTag Config.moduleNumber g.1 g.2) s

/-- Whether a pending access does more than bring a datum: an atomic, a duplex operation or a store. -/
def Pending.acts (p : Pending) : Bool :=
  p.op.isSome || (match p.dst with
    | .stream .. => true
    | .store _ => true
    | _ => false)

/-- What a killed coroutine has issued and its home has yet to perform stays with its core (R369): `left` of its pending
accesses, those of them that no step has been asked for being `sent`. -/
def State.orphan (s : State) (left sent : List Pending) : State :=
  let s1 := s.modCore (fun k => { k with orphans := k.orphans ++ left.filter (·.part.isSome) })
  s1.askPending s.core.id sent

/-- The coroutine in the register files ends: its number and storage are free, and the core decides (R167, R174). -/
def State.endRunning (s : State) (killed : Bool) : State :=
  match s.core.current with
  | none => s
  | some c =>
    let left := if killed then c.settle.pending.filter Pending.acts else []
    let sent := if killed then (c.flight.map (·.pend)).getD [] else []
    let s1 := ({ s with core := s.core.vacate.trimRegs }).orphan left (sent.filter Pending.acts)
    ((s1.dropTags c.cnum).countEnd c killed).askUnloads.askPacer

/-- A saved coroutine of the core in focus ends. -/
def State.endSaved (s : State) (c : Coro) : State :=
  let s1 := (s.modCore (fun k => ({ k with coros := k.coros.filter (·.cnum != c.cnum) }).trimRegs)).orphan
    (c.pending.filter Pending.acts) []
  ((s1.dropTags c.cnum).countEnd c true).askUnloads

/-- A kill of coroutine `cnum` of the core in focus, in any state (R369). -/
def State.killCoro (s : State) (cnum : BitVec 10) : State :=
  match s.core.current with
  | some c =>
    if c.cnum == cnum then
      let s0 := match s.core.px with
        | some p => s.leavePx p
        | none => s
      (s0.endRunning true).sendAborts c.tags
    else match s.core.coros.find? (·.cnum == cnum) with
      | some k => (s.endSaved k).sendAborts k.tags
      | none => s
  | none => match s.core.coros.find? (·.cnum == cnum) with
    | some k => (s.endSaved k).sendAborts k.tags
    | none => s

/-- Whether an instruction of several elements has been asked of message slots and not been answered whole, or has begun what
is not interrupted (R180, R242). -/
def Coro.inMidst (c : Coro) : Bool :=
  match c.flight with
  | none => false
  | some f => f.pend.isEmpty && (f.held || f.asked != 0 || f.done != 0 || !f.replies.isEmpty)

/-- Whether what an instruction has sent cannot be sent again. -/
def Coro.holdsOn (c : Coro) : Bool := (c.flight.map (·.held)).getD false

/-- Whether the core is inside a convoy that is not interrupted (R275, R372). -/
def Core.uncut (c : Core) : Bool :=
  c.live == .running && c.slot.isNone && (match c.run.convoy with
    | none => false
    | some v => v.whole && (v.at_ != 0 || c.run.inMidst))

/-- A kill that a command asks for: a coroutine inside such a convoy is killed at its end. -/
def State.killSoon (s : State) (cnum : BitVec 10) : State :=
  if s.core.uncut && s.core.run.cnum == cnum then
    (s.modRun (fun c => { c with killed := true })).push (.preemption s.core.id ⟨.kill, []⟩)
  else s.killCoro cnum

/-! ## Creating (R157, R163, R164) -/

/-- Whether a coroutine number is in use on a core. -/
def Core.numberUsed (c : Core) (n : Nat) : Bool := c.allCoros.any (fun k => k.cnum.toNat == n)

/-- The lowest free coroutine number from `n` on, `fuel` numbers at most (R157). -/
def Core.freeNumber (c : Core) : Nat → Nat → Nat
  | 0, n => n
  | fuel + 1, n => if c.numberUsed n then Core.freeNumber c fuel (n + 1) else n

/-- The incarnation count of a number, and the count advanced (R366). -/
def Core.inc (c : Core) (n : Nat) : BitVec 16 := ((c.incs.find? (·.1 = n)).map (·.2)).getD 0

/-- The state of R163 that every new coroutine starts from, on a core with `lanes` lane groups. -/
def Coro.fresh (lanes : Nat) : Coro :=
  let c := Coro.blank
  { c with vl := BitVec.ofNat 14 (c.vlmax lanes), state := .ready }

/-- The core in focus takes the new coroutine `c` under the lowest free number, its context in the call room or the
spill region; none when neither can take it (R164). -/
def State.addCoro (s : State) (c : Coro) : Option (Nat × State) :=
  let n := s.core.freeNumber s.core.allCoros.length 0
  let i := s.core.inc n + 1
  let k := { c.smallContext with cnum := BitVec.ofNat 10 n, inc := i, lastRun := s.stamp, since := s.stamp }
  match s.core.placeContext k with
  | none => none
  | some core =>
    let core1 := { core with incs := (n, i) :: core.incs.filter (·.1 != n) }
    let s1 := ({ s with core := core1, stamp := s.stamp + 1 }).writeSpills s.core.coros
    some (n, if s1.core.liveness == .idle then s1.askPacer else s1)

/-- A core records the engagement slot of what runs on it (R405). -/
def State.touch (s : State) (asid : BitVec 16) : State :=
  s.modCore (fun c => { c with touched := c.touched ||| (1#64 <<< s.slotOf asid.toNat) })

/-! ## Deferred store failures (R418) -/

/-- The trap of a failure that a store has met at its destination, or of a pending datum (R373). -/
def Deferred.trap (d : Deferred) : Trap where
  cause := d.cause
  index := d.index
  addr := d.addr
  insn := some d.insn
  deferred := d.store
  aux := d.aux
  member := some d.member

/-- A failure met by a store that had issued traps its coroutine at this boundary; a miss handler is abandoned first. An
instruction in progress that has sent something ends first. -/
def State.takeDeferred (s : State) : State :=
  match s.core.slot with
  | some _ => s.push (.deferredStoreFailure s.core.id)
  | none =>
    if s.core.live != .running || s.core.drain.isSome then s
    else if s.core.run.inMidst then s.push (.deferredStoreFailure s.core.id)
    else match s.core.run.deferred with
      | none => s
      | some d =>
        let s0 := match s.core.px with
          | some p => s.leavePx p
          | none => s
        let t := d.trap.inStrip s.core.run.strip
        (s0.modRun (fun c => { c with deferred := none, strip := t.keeps c.strip })).trapDrained t

/-! ## Pre-emption (R371) -/

/-- A Held pre-emption, or a Held `yield`, continues at once (R173). -/
def State.continueHeld (s : State) : State :=
  if s.core.live == .held then
    s.modCore (fun k => { k with live := .running, run := { k.run with state := .running } })
  else s

/-- The coroutine in the register files is pre-empted: a miss handler is abandoned, a full context is saved, and the
coroutine becomes Ready, or stays Held and continues at once (R173, R319, R371). A store failure that has reached the core
makes it a trap (R371). -/
def State.preempt (s : State) : State :=
  match s.core.slot with
  | some _ => s
  | none =>
    if s.core.live != .running then s
    else if s.core.run.deferred.isSome && s.core.run.pending.isEmpty then s.takeDeferred
    else
      let s0 := match s.core.px with
        | some p => s.leavePx p
        | none => s
      -- the members of a convoy stop at their boundaries (R275)
      let c := s0.core.run.atTrap false
      (s0.saveContext (c.fullContext s0.core.lanes) .ready .preempt).continueHeld

/-- A pre-emption is taken once the coroutine's posted stores have been applied; the core issues nothing meanwhile (R106,
R371). -/
def State.preemptDrained (s : State) (why : PreemptWhy) : State :=
  if s.core.live == .running && s.core.slot.isNone && s.posted then s.modCore (fun c => { c with drain := some (.preempt why) })
  else s.preempt

/-- A request for pre-emption is carried out at a boundary. One of the starter's lapses once its coroutine has run. -/
def State.preemptFor (s : State) (why : PreemptWhy) : State :=
  match why with
  | .starter => if s.core.first.isSome then s.preemptDrained why else s
  | .pacer => s.preemptDrained why
  | .kill => match s.core.allCoros.find? (·.killed) with
    | none => s
    | some c => s.killCoro c.cnum

/-- What waited for the coroutine's posted stores goes on, once they have been applied (R106). -/
def State.drainStep (s : State) (d : Drain) : State :=
  if s.core.slot.isSome || s.posted then s
  else
    let s1 := s.modCore (fun c => { c with drain := none })
    match d with
    | .trap t => s1.takeTrap t
    | .preempt why => s1.preemptFor why

/-! ## A core out of service (R380) -/

/-- Every coroutine of the core in focus is parked with MACHINE_CHECK, those that were Parked already too, and the core
leaves service until reset. -/
def State.machineCheckCore (s : State) : State :=
  let s0 := match s.core.slot with
    | some r => s.endRequest r 0x33 0
    | none => s
  let s1 := match s0.core.px with
    | some p => s0.leavePx p
    | none => s0
  let s2 := if s1.core.live == .idle then s1 else s1.takeTrap { cause := .machineCheck }
  -- the one that ran has just been saved with this cause
  let rest := if s1.core.live == .idle then s2.core.coros
    else s2.core.coros.filter (fun k => k.cnum != s1.core.run.cnum)
  let park (k : Coro) : Coro := { k with state := .parked .machineCheck }
  let s3 := s2.modCore (fun c => ({ c with coros := c.coros.map park, inService := false }).trimRegs)
  rest.foldl (fun t k => t.appendRecord (dieOf t.core.id) true
    (trapRecord t.core.id k 0 0 { cause := .machineCheck })) s3

end Sys2Proof.Machine
end

