-- ==== Sys2Proof/Machine/Cregs.lean ====
section
/-! DEFINITION. The control registers (spec/08_encoding.md R215, R216, Tables 10 and 11): what a `cget` reads and what
a `cset` writes, register by register. -/

namespace Sys2Proof.Machine

/-- Whether a control-register number is assigned (R215, Table 10). -/
def cregAssigned (n : Nat) : Bool := n < 27 || (32 ≤ n && n < 38)

/-- Whether it is marked RO. -/
def cregReadOnly (n : Nat) : Bool := n == 5 || n == 6 || n == 7 || n == 20 || n == 21 || n == 22 || n == 25

/-- Whether it is privileged. -/
def cregPrivileged (n : Nat) : Bool := 32 ≤ n && n < 38

/-- A register of the coroutine `c` as core `k` shows it, numbers 0 to 26; reserved bits read zero (R239). -/
def cregCoro (k : Core) (c : Coro) (n : Nat) : Nat :=
  let vs (i : Fin 4) : Nat := (c.vstart[i]).row.toNat * 2 ^ 16 + (c.vstart[i]).elem.toNat
  match n with
  | 0 => c.vl.toNat
  | 1 => c.rc.toNat
  | 2 => c.vstride.toNat
  | 3 => c.rstride.toNat
  | 4 => c.vtype.toNat
  | 5 => c.rgroups k.lanes * 2 ^ 8 + c.wmax.toNat * 2 ^ 4 + c.nreg.toNat
  | 6 => c.vlmax k.lanes
  | 7 => c.mshape.toNat
  | 8 => vs 0
  | 9 => vs 1
  | 10 => vs 2
  | 11 => vs 3
  | 12 => c.vcarry.toNat
  | 13 => c.fflags.toNat
  | 14 => c.frm.toNat
  | 15 => (c.lc[0]).toNat
  | 16 => (c.lc[1]).toNat
  | 17 => (c.lc[2]).toNat
  | 18 => (c.lc[3]).toNat
  | 19 => c.ceil.toNat * 2 ^ 8 + c.prio.toNat
  | 20 => (coroWord k.id c).toNat
  | 21 => c.stripBase.toNat
  | 22 => k.lanemask.toNat
  | 23 => bit01 c.errV * 2 ^ 63 + c.errLane.toNat
  | 24 => c.errRow.toNat * 2 ^ 16 + c.errElem.toNat
  | 25 => (8 - k.spways) * 2 ^ 4 + k.spways
  | 26 => bit01 c.msegEn * 2 ^ 63 + c.msegToff.toNat * 2 ^ 32 + c.msegNseg.toNat * 2 ^ 16 + c.msegCur.toNat
  | _ => 0

/-- The fields of a register that a write of `v` sets, numbers 0 to 26 (R215). `ceil` says that R177's ceiling
applies. -/
def cregSetCoro (c : Coro) (n : Nat) (v : Word) (ceil : Bool) : Coro :=
  let vs (i : Fin 4) : Coro := { c with vstart := c.vstart.set i ⟨v.extractLsb' 16 8, v.extractLsb' 0 14⟩ }
  let lc (i : Fin 4) : Coro := { c with lc := c.lc.set i (v.extractLsb' 0 32) }
  match n with
  | 0 => { c with vl := v.extractLsb' 0 14 }
  | 1 => { c with rc := v.extractLsb' 0 8 }
  | 2 => { c with vstride := v }
  | 3 => { c with rstride := v }
  | 4 => { c with vtype := v.extractLsb' 0 4 }
  | 8 => vs 0
  | 9 => vs 1
  | 10 => vs 2
  | 11 => vs 3
  | 12 => { c with vcarry := v }
  | 13 => { c with fflags := v.extractLsb' 0 6 }
  | 14 => { c with frm := if v.toNat % 8 < 5 then v.extractLsb' 0 3 else 0 }
  | 15 => lc 0
  | 16 => lc 1
  | 17 => lc 2
  | 18 => lc 3
  | 19 =>
    let p := v.extractLsb' 0 5
    { c with prio := if ceil && c.ceil.toNat < p.toNat then c.ceil else p }
  | 23 => { c with errV := v.getLsbD 63, errLane := v.extractLsb' 0 5 }
  | 24 => { c with errRow := v.extractLsb' 16 8, errElem := v.extractLsb' 0 14 }
  | 26 => { c with
      msegEn := v.getLsbD 63
      msegToff := v.extractLsb' 32 18
      msegNseg := v.extractLsb' 16 16
      msegCur := v.extractLsb' 0 16 }
  | _ => c

/-- The privileged registers, numbers 32 to 37: module, core and die state (R33, R67, R363). -/
def State.cregSys (s : State) (n : Nat) : Nat :=
  let q := s.fqAt (dieOf s.core.id)
  match n with
  | 32 => s.asidBase.toNat * 2 ^ 19 + bit01 s.asidEn
  | 33 => s.core.spillBase.toNat * 2 ^ 21 + bit01 s.core.spillEn
  | 34 => bit01 q.en * 2 ^ 63 + q.base.toNat * 2 ^ 12 + q.log.toNat
  | 35 => q.lost.toNat * 2 ^ 32 + q.head.toNat
  | 36 => q.tail.toNat
  | 37 => q.baton.toNat
  | _ => 0

/-- A write of one of them. A write of SPILLBASE while a context is spilled leaves it unchanged (R68); one
of ASIDBASE is in force for every walk that begins after it (R33). -/
def State.cregSetSys (s : State) (n : Nat) (v : Word) : State :=
  let die := dieOf s.core.id
  let q := s.fqAt die
  match n with
  | 32 => { s with
      asidBase := v.extractLsb' 19 33, asidEn := v.getLsbD 0
      caches := { s.caches with walks := [], asids := [] } }
  | 33 =>
    if s.core.inSpill.isEmpty then
      s.modCore (fun c => { c with spillBase := v.extractLsb' 21 31, spillEn := v.getLsbD 0 })
    else s
  | 34 => s.setFq die { q with
      en := v.getLsbD 63
      base := v.extractLsb' 12 40
      log := if 6 ≤ v.toNat % 32 && v.toNat % 32 ≤ 16 then v.extractLsb' 0 5 else 6 }
  | 35 => s.setFq die { q with lost := v.extractLsb' 32 16 }
  | 36 => s.setFq die { q with tail := v.extractLsb' 0 32 }
  | 37 => s.setFq die { q with baton := v }
  | _ => s

/-- What `cget` of a number reads. -/
def State.cregRead (s : State) (n : Nat) : Word :=
  w64 (if cregPrivileged n then s.cregSys n else cregCoro s.core s.core.run n)

/-- What `cset` of a number writes; an unprivileged write of PRIO obeys CEIL (R177). -/
def State.cregWrite (s : State) (n : Nat) (v : Word) : State :=
  if cregPrivileged n then s.cregSetSys n v else s.modRun (fun c => cregSetCoro c n v (!c.priv))

/-- The decode checks of a control-register number, which come before the guard (R208). -/
def State.cregCheck (s : State) (n : Nat) (write : Bool) : Option Cause :=
  if cregPrivileged n && !s.core.run.priv then some .privInstruction
  else if !cregAssigned n || (write && cregReadOnly n) then some .cregInvalid
  else none

end Sys2Proof.Machine
end

