-- ==== Sys2Proof/Machine/Crypto.lean ====
section
/-! DEFINITION. The algorithms that spec/18_system.md names for receipts, firmware and keys: SHA-256 (R408), SLH-DSA-SHA2-128f
and 128s (R407), ML-KEM-768 and the AES key wrap of RFC 3394 (R410). The spec cites them by their standards: FIPS 180-4, 205,
202, 203 and 197 (log 15). -/

namespace Sys2Proof.Machine

/-- A number in `n` bytes, the most significant first, and back: the byte order of these standards. -/
def beBytes (n x : Nat) : List Byte := (leBytes n x).reverse
def beNat (bs : List Byte) : Nat := leNat bs.reverse

/-- Chunks of `n` bytes, `k` of them at most. -/
def chunks (n : Nat) : Nat → List Byte → List (List Byte)
  | 0, _ => []
  | k + 1, bs => if bs.isEmpty then [] else bs.take n :: chunks n k (bs.drop n)

def xorBytes (a b : List Byte) : List Byte := List.zipWith (· ^^^ ·) a b

/-! ## SHA-256 (FIPS 180-4) -/

abbrev W32 := BitVec 32

/-- The 64 round constants. -/
def shaK : List W32 :=
  [0x428a2f98, 0x71374491, 0xb5c0fbcf, 0xe9b5dba5, 0x3956c25b, 0x59f111f1, 0x923f82a4, 0xab1c5ed5,
   0xd807aa98, 0x12835b01, 0x243185be, 0x550c7dc3, 0x72be5d74, 0x80deb1fe, 0x9bdc06a7, 0xc19bf174,
   0xe49b69c1, 0xefbe4786, 0x0fc19dc6, 0x240ca1cc, 0x2de92c6f, 0x4a7484aa, 0x5cb0a9dc, 0x76f988da,
   0x983e5152, 0xa831c66d, 0xb00327c8, 0xbf597fc7, 0xc6e00bf3, 0xd5a79147, 0x06ca6351, 0x14292967] ++
  [0x27b70a85, 0x2e1b2138, 0x4d2c6dfc, 0x53380d13, 0x650a7354, 0x766a0abb, 0x81c2c92e, 0x92722c85,
   0xa2bfe8a1, 0xa81a664b, 0xc24b8b70, 0xc76c51a3, 0xd192e819, 0xd6990624, 0xf40e3585, 0x106aa070,
   0x19a4c116, 0x1e376c08, 0x2748774c, 0x34b0bcb5, 0x391c0cb3, 0x4ed8aa4a, 0x5b9cca4f, 0x682e6ff3,
   0x748f82ee, 0x78a5636f, 0x84c87814, 0x8cc70208, 0x90befffa, 0xa4506ceb, 0xbef9a3f7, 0xc67178f2]

/-- The working variables a to h. -/
structure ShaVars where
  a : W32
  b : W32
  c : W32
  d : W32
  e : W32
  f : W32
  g : W32
  h : W32

def shaInit : ShaVars :=
  ⟨0x6a09e667, 0xbb67ae85, 0x3c6ef372, 0xa54ff53a, 0x510e527f, 0x9b05688c, 0x1f83d9ab, 0x5be0cd19⟩

def rot32 (x : W32) (n : Nat) : W32 := x.rotateRight n

/-- One round, with its constant and its word of the message schedule. -/
def ShaVars.round (v : ShaVars) (kw : W32) : ShaVars :=
  let s1 := rot32 v.e 6 ^^^ rot32 v.e 11 ^^^ rot32 v.e 25
  let t1 := v.h + s1 + ((v.e &&& v.f) ^^^ (~~~ v.e &&& v.g)) + kw
  let s0 := rot32 v.a 2 ^^^ rot32 v.a 13 ^^^ rot32 v.a 22
  ⟨t1 + (s0 + ((v.a &&& v.b) ^^^ (v.a &&& v.c) ^^^ (v.b &&& v.c))), v.a, v.b, v.c, v.d + t1, v.e, v.f, v.g⟩

/-- The message schedule, latest word first, `n` words further. -/
def shaSchedule : Nat → List W32 → List W32
  | 0, w => w
  | n + 1, w =>
    let x := w.getD 1 0
    let y := w.getD 14 0
    shaSchedule n (((rot32 x 17 ^^^ rot32 x 19 ^^^ (x >>> 10)) + w.getD 6 0 +
      (rot32 y 7 ^^^ rot32 y 18 ^^^ (y >>> 3)) + w.getD 15 0) :: w)

/-- A block of 64 bytes taken in. -/
def ShaVars.block (v : ShaVars) (bs : List Byte) : ShaVars :=
  let w := (shaSchedule 48 ((chunks 4 16 bs).map (fun x => BitVec.ofNat 32 (beNat x))).reverse).reverse
  let r := (List.zipWith (· + ·) shaK w).foldl ShaVars.round v
  ⟨v.a + r.a, v.b + r.b, v.c + r.c, v.d + r.d, v.e + r.e, v.f + r.f, v.g + r.g, v.h + r.h⟩

def ShaVars.bytes (v : ShaVars) : List Byte :=
  [v.a, v.b, v.c, v.d, v.e, v.f, v.g, v.h].flatMap (fun x => beBytes 4 x.toNat)

def sha256 (m : List Byte) : List Byte :=
  let n := m.length
  let p := m ++ 0x80 :: (List.replicate ((119 - n % 64) % 64) 0 ++ beBytes 8 (8 * n))
  ((chunks 64 (n / 64 + 2) p).foldl ShaVars.block shaInit).bytes

/-- HMAC of SHA-256, with a key of at most 64 bytes. -/
def hmac256 (key m : List Byte) : List Byte :=
  let k := key ++ List.replicate (64 - key.length) 0
  sha256 (k.map (· ^^^ 0x5C) ++ sha256 (k.map (· ^^^ 0x36) ++ m))

/-- `n` bytes of MGF1 of SHA-256. -/
def mgf256 (seed : List Byte) (n : Nat) : List Byte :=
  ((List.range (ceilDiv n 32)).flatMap (fun i => sha256 (seed ++ beBytes 4 i))).take n

/-! ## SLH-DSA with SHA-256, n = 16 (FIPS 205) -/

/-- What sets the two parameter sets apart: layers, height of a tree of a layer, height and number of the FORS trees. -/
structure SlhSet where
  d  : Nat
  hp : Nat
  a  : Nat
  k  : Nat

def slh128s : SlhSet := ⟨7, 9, 12, 14⟩
def slh128f : SlhSet := ⟨22, 3, 6, 33⟩

/-- Bytes of a signature's message digest: of the FORS indices, of the tree and of the leaf. -/
def SlhSet.mdBytes (p : SlhSet) : Nat := ceilDiv (p.k * p.a) 8
def SlhSet.treeBytes (p : SlhSet) : Nat := ceilDiv (p.d * p.hp - p.hp) 8
def SlhSet.leafBytes (p : SlhSet) : Nat := ceilDiv p.hp 8

/-- Kinds of address. -/
inductive AdrsKind where
  | wotsHash | wotsPk | tree | forsTree | forsRoots | wotsPrf | forsPrf
  deriving DecidableEq, Repr

def AdrsKind.code : AdrsKind → Nat
  | .wotsHash => 0
  | .wotsPk => 1
  | .tree => 2
  | .forsTree => 3
  | .forsRoots => 4
  | .wotsPrf => 5
  | .forsPrf => 6

/-- An address: its layer, its tree, its kind and the three words that the kind gives a meaning. -/
structure Adrs where
  layer : Nat
  tree  : Nat
  kind  : AdrsKind
  pair  : Nat
  x     : Nat
  y     : Nat

/-- Its compressed form, of 22 bytes. -/
def Adrs.bytes (r : Adrs) : List Byte :=
  beBytes 1 r.layer ++ beBytes 8 r.tree ++ beBytes 1 r.kind.code ++ beBytes 4 r.pair ++ beBytes 4 r.x ++ beBytes 4 r.y

/-- The keyed hashes F, H and T, which differ in the length of `m` alone, and PRF, of whose the secret seed is `m`. -/
def slhHash (pkSeed : List Byte) (r : Adrs) (m : List Byte) : List Byte :=
  (sha256 (pkSeed ++ List.replicate 48 0 ++ r.bytes ++ m)).take 16

/-- The digits of a byte string, `b` bits each, `n` of them, the most significant first. -/
def slhDigits (bs : List Byte) (b n : Nat) : List Nat :=
  let x := beNat bs
  let len := 8 * bs.length
  (List.range n).map (fun i => x / 2 ^ (len - b * (i + 1)) % 2 ^ b)

/-- `s` steps of a WOTS chain from step `i` on. -/
def slhChain (pkSeed : List Byte) (r : Adrs) : Nat → Nat → List Byte → List Byte
  | 0, _, x => x
  | s + 1, i, x => slhChain pkSeed r s (i + 1) (slhHash pkSeed { r with y := i } x)

/-- The 35 digits that WOTS signs: those of a value, and its checksum. -/
def wotsDigits (m : List Byte) : List Nat :=
  let ds := slhDigits m 4 32
  ds ++ slhDigits (beBytes 2 ((ds.map (15 - ·)).sum * 16)) 4 3

/-- The secret of chain `i`. -/
def wotsSecret (skSeed pkSeed : List Byte) (r : Adrs) (i : Nat) : List Byte :=
  slhHash pkSeed { r with kind := .wotsPrf, x := i, y := 0 } skSeed

/-- The public key that the ends of the chains make. -/
def wotsRoot (pkSeed : List Byte) (r : Adrs) (ends : List (List Byte)) : List Byte :=
  slhHash pkSeed { r with kind := .wotsPk, x := 0, y := 0 } ends.flatten

/-- The WOTS key pair of an address: the public key, and the signature of a value. -/
def wotsKey (skSeed pkSeed : List Byte) (r : Adrs) : List Byte :=
  wotsRoot pkSeed r ((List.range 35).map (fun i =>
    slhChain pkSeed { r with kind := .wotsHash, x := i } 15 0 (wotsSecret skSeed pkSeed r i)))

def wotsSign (skSeed pkSeed : List Byte) (r : Adrs) (m : List Byte) : List (List Byte) :=
  (wotsDigits m).mapIdx (fun i n => slhChain pkSeed { r with kind := .wotsHash, x := i } n 0 (wotsSecret skSeed pkSeed r i))

/-- The public key that a signature of a value makes. -/
def wotsFrom (pkSeed : List Byte) (r : Adrs) (m : List Byte) (sig : List (List Byte)) : List Byte :=
  wotsRoot pkSeed r ((List.zip (wotsDigits m) sig).mapIdx (fun i p =>
    slhChain pkSeed { r with kind := .wotsHash, x := i } (15 - p.1) p.1 p.2))

/-- Node `i` at height `z` of a tree, `leaf` giving its leaves and `r` the address of its nodes. -/
def merkleNode (pkSeed : List Byte) (r : Adrs) (leaf : Nat → List Byte) : Nat → Nat → List Byte
  | 0, i => leaf i
  | z + 1, i => slhHash pkSeed { r with x := z + 1, y := i }
      (merkleNode pkSeed r leaf z (2 * i) ++ merkleNode pkSeed r leaf z (2 * i + 1))

/-- The authentication path of leaf `i` in a tree of height `h`. -/
def merklePath (pkSeed : List Byte) (r : Adrs) (leaf : Nat → List Byte) (h i : Nat) : List (List Byte) :=
  (List.range h).map (fun j =>
    merkleNode pkSeed r leaf j (if i / 2 ^ j % 2 = 0 then i / 2 ^ j + 1 else i / 2 ^ j - 1))

/-- The root that a leaf `i` and its path make, from height `z` on. -/
def merkleRoot (pkSeed : List Byte) (r : Adrs) : Nat → Nat → List Byte → List (List Byte) → List Byte
  | _, _, node, [] => node
  | z, i, node, p :: ps =>
    merkleRoot pkSeed r (z + 1) (i / 2)
      (slhHash pkSeed { r with x := z + 1, y := i / 2 } (if i % 2 = 0 then node ++ p else p ++ node)) ps

/-- Addresses of layer `l`, tree `t`: of its nodes, and of the key pair of leaf `i`. -/
def layerNodes (l t : Nat) : Adrs := ⟨l, t, .tree, 0, 0, 0⟩
def layerLeaf (l t i : Nat) : Adrs := ⟨l, t, .wotsHash, i, 0, 0⟩

/-- The root of a tree of a layer. -/
def layerRoot (p : SlhSet) (skSeed pkSeed : List Byte) (l t : Nat) : List Byte :=
  merkleNode pkSeed (layerNodes l t) (fun i => wotsKey skSeed pkSeed (layerLeaf l t i)) p.hp 0

/-- A value signed by leaf `i` of a tree of a layer: chains and path. -/
def layerSign (p : SlhSet) (skSeed pkSeed : List Byte) (l t i : Nat) (m : List Byte) : List (List Byte) :=
  wotsSign skSeed pkSeed (layerLeaf l t i) m ++
    merklePath pkSeed (layerNodes l t) (fun j => wotsKey skSeed pkSeed (layerLeaf l t j)) p.hp i

/-- The root that such a signature makes. -/
def layerFrom (pkSeed : List Byte) (l t i : Nat) (m : List Byte) (sig : List (List Byte)) : List Byte :=
  merkleRoot pkSeed (layerNodes l t) 0 i (wotsFrom pkSeed (layerLeaf l t i) m (sig.take 35)) (sig.drop 35)

/-- The signatures of the layers from `l` on, `n` of them. -/
def hyperSign (p : SlhSet) (skSeed pkSeed : List Byte) : Nat → Nat → Nat → Nat → List Byte → List (List Byte)
  | 0, _, _, _, _ => []
  | n + 1, l, t, i, m =>
    layerSign p skSeed pkSeed l t i m ++
      hyperSign p skSeed pkSeed n (l + 1) (t / 2 ^ p.hp) (t % 2 ^ p.hp) (layerRoot p skSeed pkSeed l t)

/-- The root that they make. -/
def hyperFrom (p : SlhSet) (pkSeed : List Byte) : Nat → Nat → Nat → Nat → List Byte → List (List Byte) → List Byte
  | 0, _, _, _, m, _ => m
  | n + 1, l, t, i, m, sig =>
    hyperFrom p pkSeed n (l + 1) (t / 2 ^ p.hp) (t % 2 ^ p.hp) (layerFrom pkSeed l t i m (sig.take (35 + p.hp)))
      (sig.drop (35 + p.hp))

/-- FORS addresses of a key pair: of tree nodes, of secrets and of the roots. -/
def forsAdrs (k : AdrsKind) (t i : Nat) : Adrs := ⟨0, t, k, i, 0, 0⟩

def forsSecret (skSeed pkSeed : List Byte) (t i n : Nat) : List Byte :=
  slhHash pkSeed { forsAdrs .forsPrf t i with y := n } skSeed
def forsLeaf (pkSeed : List Byte) (t i n : Nat) (sk : List Byte) : List Byte :=
  slhHash pkSeed { forsAdrs .forsTree t i with y := n } sk

/-- Leaves of all FORS trees stand in one row, and so do the nodes of each height: FORS tree `q` signs leaf `n`. -/
def forsSign (p : SlhSet) (skSeed pkSeed : List Byte) (t i : Nat) (md : List Byte) : List (List Byte) :=
  ((slhDigits md p.a p.k).mapIdx (fun q n =>
    let leaf := q * 2 ^ p.a + n
    forsSecret skSeed pkSeed t i leaf ::
      merklePath pkSeed (forsAdrs .forsTree t i) (fun j => forsLeaf pkSeed t i j (forsSecret skSeed pkSeed t i j)) p.a leaf)).flatten

/-- The FORS public key that a signature makes. -/
def forsFrom (p : SlhSet) (pkSeed : List Byte) (t i : Nat) (md : List Byte) (sig : List (List Byte)) : List Byte :=
  slhHash pkSeed (forsAdrs .forsRoots t i) ((slhDigits md p.a p.k).mapIdx (fun q n =>
    let leaf := q * 2 ^ p.a + n
    let mine := (sig.drop (q * (p.a + 1))).take (p.a + 1)
    merkleRoot pkSeed (forsAdrs .forsTree t i) 0 leaf (forsLeaf pkSeed t i leaf (mine.headD [])) mine.tail)).flatten

/-- What a signature signs: the FORS indices, the tree and the leaf that the randomised digest of a message selects. -/
def slhSelect (p : SlhSet) (r pkSeed pkRoot m : List Byte) : List Byte × Nat × Nat :=
  let x := mgf256 (r ++ pkSeed ++ sha256 (r ++ pkSeed ++ pkRoot ++ m)) (p.mdBytes + p.treeBytes + p.leafBytes)
  (x.take p.mdBytes, beNat ((x.drop p.mdBytes).take p.treeBytes) % 2 ^ (p.d * p.hp - p.hp),
    beNat (x.drop (p.mdBytes + p.treeBytes)) % 2 ^ p.hp)

/-- A message as pure SLH-DSA with an empty context signs it (R407). -/
def pureMessage (m : List Byte) : List Byte := 0 :: 0 :: m

/-- An SLH-DSA secret key without its root, which follows from it. -/
structure SlhKey where
  skSeed : List Byte
  skPrf  : List Byte
  pkSeed : List Byte
  deriving DecidableEq, Repr, Inhabited

def SlhKey.root (p : SlhSet) (k : SlhKey) : List Byte := layerRoot p k.skSeed k.pkSeed (p.d - 1) 0

/-- The 32-byte public key. -/
def SlhKey.pub (p : SlhSet) (k : SlhKey) : List Byte := k.pkSeed ++ k.root p

/-- The signature of a message, with the randomness that its signer draws. -/
def slhSign (p : SlhSet) (k : SlhKey) (rand msg : List Byte) : List Byte :=
  let m := pureMessage msg
  let r := (hmac256 k.skPrf (rand ++ m)).take 16
  let (md, t, i) := slhSelect p r k.pkSeed (k.root p) m
  let fors := forsSign p k.skSeed k.pkSeed t i md
  (r :: (fors ++ hyperSign p k.skSeed k.pkSeed p.d 0 t i (forsFrom p k.pkSeed t i md fors))).flatten

/-- Whether a signature of a message verifies under a public key. -/
def slhVerify (p : SlhSet) (pub msg sig : List Byte) : Bool :=
  let m := pureMessage msg
  let n := 1 + p.k * (p.a + 1) + p.d * (35 + p.hp)
  let pkSeed := pub.take 16
  let parts := chunks 16 n sig
  let r := parts.headD []
  let (md, t, i) := slhSelect p r pkSeed (pub.drop 16) m
  let fors := parts.tail.take (p.k * (p.a + 1))
  sig.length == 16 * n && pub.length == 32 &&
    hyperFrom p pkSeed p.d 0 t i (forsFrom p pkSeed t i md fors) (parts.drop (1 + p.k * (p.a + 1))) == pub.drop 16

/-! ## SHA-3 (FIPS 202) -/

abbrev W64 := BitVec 64

/-- The 24 round constants. -/
def keccakRC : List W64 :=
  [0x0000000000000001, 0x0000000000008082, 0x800000000000808A, 0x8000000080008000, 0x000000000000808B,
   0x0000000080000001, 0x8000000080008081, 0x8000000000008009, 0x000000000000008A, 0x0000000000000088,
   0x0000000080008009, 0x000000008000000A] ++
  [0x000000008000808B, 0x800000000000008B, 0x8000000000008089, 0x8000000000008003, 0x8000000000008002,
   0x8000000000000080, 0x000000000000800A, 0x800000008000000A, 0x8000000080008081, 0x8000000000008080,
   0x0000000080000001, 0x8000000080008008]

/-- The rotation of lane (x, y), at 5y + x. -/
def keccakRot : List Nat :=
  [0, 1, 62, 28, 27, 36, 44, 6, 55, 20, 3, 10, 43, 25, 39, 41, 45, 15, 21, 8, 18, 2, 61, 56, 14]

/-- One round over 25 lanes: theta, rho and pi, chi, iota. -/
def keccakRound (s : Array W64) (rc : W64) : Array W64 :=
  let at_ (s : Array W64) (i : Nat) : W64 := s.getD i 0
  let c := ((List.range 5).map (fun x => at_ s x ^^^ at_ s (x + 5) ^^^ at_ s (x + 10) ^^^ at_ s (x + 15) ^^^ at_ s (x + 20))).toArray
  let d := ((List.range 5).map (fun x => at_ c ((x + 4) % 5) ^^^ (at_ c ((x + 1) % 5)).rotateLeft 1)).toArray
  let rot := keccakRot.toArray
  -- lane (x, y) of the result comes from lane (x + 3y, x)
  let b := ((List.range 25).map (fun i =>
    let x := i % 5
    let y := i / 5
    let j := 5 * x + (x + 3 * y) % 5
    (at_ s j ^^^ at_ d (j % 5)).rotateLeft (rot.getD j 0))).toArray
  ((List.range 25).map (fun i =>
    let y := i / 5 * 5
    let v := at_ b i ^^^ (~~~ at_ b (y + (i + 1) % 5) &&& at_ b (y + (i % 5 + 2) % 5))
    if i = 0 then v ^^^ rc else v)).toArray

def keccakF (s : Array W64) : Array W64 := keccakRC.foldl keccakRound s

def laneBytes (s : Array W64) : List Byte := s.toList.flatMap (fun x => leBytes 8 x.toNat)

/-- A block of the sponge's rate taken in. -/
def keccakAbsorb (s : Array W64) (block : List Byte) : Array W64 :=
  let lanes := (chunks 8 25 block).map (fun x => BitVec.ofNat 64 (leNat x))
  keccakF (s.mapIdx (fun i v => v ^^^ lanes.getD i 0))

/-- Output, `n` blocks of `rate` bytes. -/
def keccakSqueeze (rate : Nat) : Nat → Array W64 → List Byte
  | 0, _ => []
  | n + 1, s => (laneBytes s).take rate ++ keccakSqueeze rate n (keccakF s)

/-- The sponge: `n` bytes of the message `m` under its domain suffix. -/
def sponge (rate suffix : Nat) (m : List Byte) (n : Nat) : List Byte :=
  let z := rate - m.length % rate
  let pad : List Byte := if z = 1 then [BitVec.ofNat 8 (suffix + 0x80)]
    else BitVec.ofNat 8 suffix :: (List.replicate (z - 2) 0 ++ [0x80])
  let p := m ++ pad
  (keccakSqueeze rate (ceilDiv n rate) ((chunks rate (p.length / rate) p).foldl keccakAbsorb (Array.replicate 25 0))).take n

def sha3_256 (m : List Byte) : List Byte := sponge 136 6 m 32
def sha3_512 (m : List Byte) : List Byte := sponge 72 6 m 64
def shake128 (m : List Byte) (n : Nat) : List Byte := sponge 168 0x1F m n
def shake256 (m : List Byte) (n : Nat) : List Byte := sponge 136 0x1F m n

/-! ## ML-KEM-768 (FIPS 203) -/

/-- A polynomial: 256 coefficients modulo 3329. -/
abbrev Poly := List Nat

def kyQ : Nat := 3329

def polyAdd (f g : Poly) : Poly := List.zipWith (fun a b => (a + b) % kyQ) f g
def polySub (f g : Poly) : Poly := List.zipWith (fun a b => (a + kyQ - b) % kyQ) f g
def polyZero : Poly := List.replicate 256 0
def polySum (l : List Poly) : Poly := l.foldl polyAdd polyZero

/-- The bits of `n`, seven of them, reversed; a power of 17 modulo 3329. -/
def brv7 (n : Nat) : Nat := (List.range 7).foldl (fun r i => 2 * r + n / 2 ^ i % 2) 0
def zetaPow (n : Nat) : Nat := n.repeat (fun z => z * 17 % kyQ) 1

/-- The number-theoretic transform: `depth` layers below node `k`. -/
def nttFrom : Nat → Nat → Poly → Poly
  | 0, _, f => f
  | depth + 1, k, f =>
    let n := f.length / 2
    let z := zetaPow (brv7 k)
    let lo := f.take n
    let hi := (f.drop n).map (· * z % kyQ)
    nttFrom depth (2 * k) (polyAdd lo hi) ++ nttFrom depth (2 * k + 1) (polySub lo hi)

def ntt (f : Poly) : Poly := nttFrom 7 1 f

/-- Its inverse, before the factor of 128. -/
def nttBack : Nat → Nat → Poly → Poly
  | 0, _, f => f
  | depth + 1, k, f =>
    let n := f.length / 2
    let lo := nttBack depth (2 * k) (f.take n)
    let hi := nttBack depth (2 * k + 1) (f.drop n)
    polyAdd lo hi ++ (polySub lo hi).map (· * zetaPow (256 - brv7 k) % kyQ)

def nttInv (f : Poly) : Poly := (nttBack 7 1 f).map (· * 3303 % kyQ)

/-- Products of the degree-one pieces, from piece `i` on. -/
def mulPieces : Nat → Poly → Poly → Poly
  | i, a0 :: a1 :: f, b0 :: b1 :: g =>
    let z := zetaPow (2 * brv7 i + 1)
    (a0 * b0 + a1 * b1 % kyQ * z) % kyQ :: (a0 * b1 + a1 * b0) % kyQ :: mulPieces (i + 1) f g
  | _, _, _ => []

def nttMul (f g : Poly) : Poly := mulPieces 0 f g
def nttDot (f g : List Poly) : Poly := polySum (List.zipWith nttMul f g)

/-- Coefficients of `d` bits packed into bytes, and back. -/
def packPoly (d : Nat) (f : Poly) : List Byte := leBytes (32 * d) (f.foldr (fun a n => a + 2 ^ d * n) 0)
def unpackPoly (d : Nat) (bs : List Byte) : Poly :=
  let x := leNat bs
  (List.range 256).map (fun i => x / 2 ^ (d * i) % 2 ^ d % (if d = 12 then kyQ else 2 ^ d))

/-- Rounded to `d` bits, and back. -/
def squeezePoly (d : Nat) (f : Poly) : Poly := f.map (fun x => (x * 2 ^ (d + 1) + kyQ) / (2 * kyQ) % 2 ^ d)
def expandPoly (d : Nat) (f : Poly) : Poly := f.map (fun y => (2 * y * kyQ + 2 ^ d) / 2 ^ (d + 1))

/-- Candidates of 12 bits from three bytes each. -/
def candidates : List Byte → List Nat
  | a :: b :: c :: bs => (a.toNat + 256 * (b.toNat % 16)) :: (b.toNat / 16 + 16 * c.toNat) :: candidates bs
  | _ => []

/-- A uniform polynomial, in the transformed domain, from a seed: the first 256 of the candidates below 3329 in eight
blocks (more blocks would only be read where these hold fewer). -/
def samplePoly (seed : List Byte) : Poly :=
  let l := ((candidates (shake128 seed 1344)).filter (· < kyQ)).take 256
  l ++ List.replicate (256 - l.length) 0

/-- A small polynomial: differences of two sums of two bits. -/
def samplePolyCbd (bs : List Byte) : Poly :=
  let x := leNat bs
  (List.range 256).map (fun i =>
    let b (j : Nat) : Nat := x / 2 ^ (4 * i + j) % 2
    (kyQ + b 0 + b 1 - (b 2 + b 3)) % kyQ)

/-- Small polynomial number `n` of a seed. -/
def noise (seed : List Byte) (n : Nat) : Poly := samplePolyCbd (shake256 (seed ++ [BitVec.ofNat 8 n]) 128)

/-- Entry (i, j) of the matrix that a seed gives. -/
def matrixAt (rho : List Byte) (i j : Nat) : Poly := samplePoly (rho ++ [BitVec.ofNat 8 j, BitVec.ofNat 8 i])

/-- The encryption key and the decryption key that a seed gives. -/
def pkeKeys (d : List Byte) : List Byte × List Byte :=
  let g := sha3_512 (d ++ [3])
  let rho := g.take 32
  let sigma := g.drop 32
  let s := (List.range 3).map (fun i => ntt (noise sigma i))
  let t := (List.range 3).map (fun i =>
    polyAdd (nttDot ((List.range 3).map (matrixAt rho i)) s) (ntt (noise sigma (3 + i))))
  (t.flatMap (packPoly 12) ++ rho, s.flatMap (packPoly 12))

/-- The three polynomials of a key, of 384 bytes each. -/
def keyPolys (bs : List Byte) : List Poly := (chunks 384 3 bs).map (unpackPoly 12)

/-- A 32-byte message encrypted with randomness `r`. -/
def pkeEncrypt (ek m r : List Byte) : List Byte :=
  let t := keyPolys (ek.take 1152)
  let rho := ek.drop 1152
  let y := (List.range 3).map (fun i => ntt (noise r i))
  let u := (List.range 3).map (fun i =>
    polyAdd (nttInv (nttDot ((List.range 3).map (fun j => matrixAt rho j i)) y)) (noise r (3 + i)))
  let v := polyAdd (polyAdd (nttInv (nttDot t y)) (noise r 6)) (expandPoly 1 (unpackPoly 1 m))
  u.flatMap (fun f => packPoly 10 (squeezePoly 10 f)) ++ packPoly 4 (squeezePoly 4 v)

def pkeDecrypt (dk c : List Byte) : List Byte :=
  let u := (chunks 320 3 (c.take 960)).map (fun b => expandPoly 10 (unpackPoly 10 b))
  let v := expandPoly 4 (unpackPoly 4 (c.drop 960))
  packPoly 1 (squeezePoly 1 (polySub v (nttInv (nttDot (keyPolys dk) (u.map ntt)))))

/-- The shared secret that a ciphertext of 1,088 bytes carries to the key that the seeds `d` and `z` give: one that was not
formed as it should be gives a secret of its own. -/
def kemDecaps (d z c : List Byte) : List Byte :=
  let keys := pkeKeys d
  let m := pkeDecrypt keys.2 c
  let g := sha3_512 (m ++ sha3_256 keys.1)
  if pkeEncrypt keys.1 m (g.drop 32) = c then g.take 32 else shake256 (z ++ c) 32

/-! ## AES-256 and its key wrap (FIPS 197, RFC 3394) -/

/-- Multiplication in the field of 256 elements, `n` bits of `y`. -/
def gfMul : Nat → Byte → Byte → Byte
  | 0, _, _ => 0
  | n + 1, x, y =>
    (if y.getLsbD 0 then x else 0) ^^^
      gfMul n ((x <<< 1) ^^^ (if x.getLsbD 7 then 0x1B else 0)) (y >>> 1)
def gf (x y : Byte) : Byte := gfMul 8 x y

/-- The inverse, x^254, and 0 of 0. -/
def gfInv (x : Byte) : Byte := Nat.repeat (fun p => gf (gf p p) x) 6 x |> fun p => gf p p

def sBox (x : Byte) : Byte :=
  let b := gfInv x
  b ^^^ b.rotateLeft 1 ^^^ b.rotateLeft 2 ^^^ b.rotateLeft 3 ^^^ b.rotateLeft 4 ^^^ 0x63
def sBoxInv (y : Byte) : Byte := gfInv (y.rotateLeft 1 ^^^ y.rotateLeft 3 ^^^ y.rotateLeft 6 ^^^ 0x05)

/-- The 60 words of the key schedule, latest first: word `i` and those after it, `n` of them. -/
def aesExpand : Nat → Nat → List (List Byte) → List (List Byte)
  | 0, _, w => w
  | n + 1, i, w =>
    let t := w.headD []
    let u := if i % 8 = 0 then xorBytes ((t.drop 1 ++ t.take 1).map sBox) [Nat.repeat (gf 2) (i / 8 - 1) 1, 0, 0, 0]
      else if i % 8 = 4 then t.map sBox
      else t
    aesExpand n (i + 1) (xorBytes (w.getD 7 []) u :: w)

/-- The fifteen round keys, of 16 bytes. -/
def aesKeys (key : List Byte) : List (List Byte) :=
  chunks 16 15 (aesExpand 52 8 (chunks 4 8 key).reverse).reverse.flatten

/-- The rows of the state shifted back, and a column unmixed. -/
def shiftBack (s : List Byte) : List Byte := (List.range 16).map (fun i => s.getD ((16 + i - 4 * (i % 4)) % 16) 0)
def unmixColumn (c : List Byte) : List Byte :=
  (List.range 4).map (fun i => gf 14 (c.getD i 0) ^^^ gf 11 (c.getD ((i + 1) % 4) 0) ^^^
    gf 13 (c.getD ((i + 2) % 4) 0) ^^^ gf 9 (c.getD ((i + 3) % 4) 0))

/-- A block decrypted under the round keys, the last first. -/
def aesRounds : List (List Byte) → List Byte → List Byte
  | [], s => s
  | [k], s => xorBytes ((shiftBack s).map sBoxInv) k
  | k :: ks, s => aesRounds ks ((chunks 4 4 (xorBytes ((shiftBack s).map sBoxInv) k)).flatMap unmixColumn)

def aesDecrypt (keys : List (List Byte)) (b : List Byte) : List Byte :=
  match keys.reverse with
  | [] => b
  | k :: ks => aesRounds ks (xorBytes b k)

/-- The steps of the unwrapping, from step `t` down: the check word and the blocks. -/
def unwrapSteps (keys : List (List Byte)) (n : Nat) : Nat → List Byte × List (List Byte) → List Byte × List (List Byte)
  | 0, x => x
  | t + 1, (a, r) =>
    let i := t % n
    let b := aesDecrypt keys (xorBytes a (beBytes 8 (t + 1)) ++ r.getD i [])
    unwrapSteps keys n t (b.take 8, r.set i (b.drop 8))

/-- The key that a wrapped one of 8 + 8n bytes holds, none where the integrity check fails. -/
def aesUnwrap (kek wrapped : List Byte) : Option (List Byte) :=
  let c := chunks 8 (wrapped.length / 8) wrapped
  let n := c.length - 1
  let x := unwrapSteps (aesKeys kek) n (6 * n) (c.headD [], c.tail)
  if x.1 = List.replicate 8 0xA6 then some x.2.flatten else none

/-- A key record of 1,152 bytes unwrapped (R410): none where it fails. The key-transport key's seeds are `d` and `z`. -/
def unwrapRecord (d z rec : List Byte) : Option (List Byte) :=
  if (rec.drop 1128).any (· != 0) then none
  else aesUnwrap (kemDecaps d z (rec.take 1088)) ((rec.drop 1088).take 40)

/-! ## What the module does with them -/

/-- Whether a die's management firmware verifies: its key is the one whose digest is fused in the module, and its signature
verifies under that key (R407, R413). -/
def firmwareVerifies (die : Nat) : Bool :=
  sha256 Config.firmwareKey == Config.fusedDigest &&
    slhVerify slh128s Config.firmwareKey (Config.firmwareImage die) (Config.firmwareSignature die)

/-- The signature of a receipt or report, under the module's identity key (R407). -/
def signature (text : List Byte) : List Byte :=
  slhSign slh128f ⟨Config.identitySeed, Config.identityPrf, Config.identityPublic⟩ (Config.signRandom text) text

/-- The key that a key record of 1,152 bytes carries to the module's key-transport key (R410). -/
def unwrapKey (rec : List Byte) : Option (BitVec 256) :=
  (unwrapRecord Config.transportSeed Config.transportReject rec).map (fun k => BitVec.ofNat 256 (leNat k))

end Sys2Proof.Machine
end

