-- ==== Sys2Proof/Machine/Regs.lean ====
section
/-! DEFINITION. The register space (spec/02 R58 to R66, spec/03 R96, spec/14 R344, spec/15 R366 to R369, spec/18 R396
to R410): what each register reads, and what a write does. -/

namespace Sys2Proof.Machine

/-! ## Memory control registers and hash-version migration (R58, R64) -/

/-- HDCFG[d] as it reads (R58, Table 5). DESIGN CHOICE (log 30): while a migration runs FUNC reads the old function, which
R64 does not say. -/
def Domain.read (x : Domain) : Nat :=
  x.ofunc.toNat * 2 ^ 48 + x.thresh.toNat * 2 ^ 16 + bit01 x.oldok * 2 ^ 13 + bit01 x.mig * 2 ^ 12 +
    bit01 x.ie * 2 ^ 11 + x.nver.toNat * 2 ^ 7 + x.ver.toNat * 2 ^ 3 + x.func.toNat

/-- Domains that are migrating. -/
def State.migrating (s : State) : Nat := (s.domains.filter (fun d => d.2.mig)).length

/-- A domain's migration bitmap says that the old mapping holds every granule (R65). -/
def State.clearBitmap (s : State) (d : Nat) : State := { s with mem := s.mem.erase (bitmapBase d) (bitmapBase d + 2 ^ 19) }

/-- Granule `x` of a domain lies in the new mapping from now on. -/
def State.setMoved (s : State) (d x : Nat) : State :=
  let a := bitmapBase d + x / 8
  { s with mem := s.mem.set a (s.mem.get a ||| (1#8 <<< (x % 8))) }

/-- A write of HDCFG[d] (R64, R66): THRESH and IE always; NVER, OLDOK and a migration's start unless one is running
or four are. HDCFG[1,020] ignores writes (R15), and a spare domain keeps the linear function (R62, log 30). FUNC reads the
old function until the migration completes, and a reserved FUNC is taken as it is written (log 30). -/
def State.hdcfgOp (s : State) (d : Nat) (v : Word) : State :=
  if d = 1020 || 1024 ≤ d then s
  else
    let x := s.domain d
    let x1 := { x with thresh := v.extractLsb' 16 32, ie := v.getLsbD 11 }
    let nver := v.extractLsb' 7 4
    let func := if 1021 ≤ d then x.func else v.extractLsb' 0 3
    let starts := nver != x.ver || func != x.func
    if x.mig || (starts && 4 ≤ s.migrating) then s.setDomain d x1
    else
      let x2 := { x1 with nver := nver, oldok := x.oldok && !v.getLsbD 13 }
      if starts then
        (s.setDomain d { x2 with ofunc := x.func, nfunc := func, mig := true, oldok := true, moved := 0 }).clearBitmap d |>.push
          (.granuleMove d)
      else s.setDomain d x2

/-- A domain's HEVPEND bit sets and HEVBATON is signalled (R63, R64). -/
def State.domainEvent (s : State) (d : Nat) : State :=
  ({ s with memRegs := { s.memRegs with hevPend := s.memRegs.hevPend ||| (1#1024 <<< d) } }).memoryEvent

/-- The next granule moves, and its bit says so; after the last the migration completes (R65). -/
def State.granuleMoveOp (s : State) (d : Nat) : State :=
  let x := s.domain d
  if !x.mig then s
  else
    let s1 := (s.setDomain d { x with moved := x.moved + 1 }).setMoved d x.moved
    if x.moved + 1 < 2 ^ 22 then s1.push (.granuleMove d) else s1.push (.migrationComplete d)

/-- Every granule has moved (R64). -/
def State.migrationCompleteOp (s : State) (d : Nat) : State :=
  let x := s.domain d
  if !x.mig then s
  else (s.setDomain d { x with ver := x.nver, func := x.nfunc, mig := false, moved := 0 }).domainEvent d

/-- A bank conflict is counted; at THRESH with IE the event is raised once, until software clears its bit (R63). A count
beyond THRESH raises none (log 30). -/
def State.bankConflictOp (s : State) (d : Nat) : State :=
  let x := s.domain d
  let n := if x.count = 0xFFFFFFFF then x.count else x.count + 1
  let s1 := s.setDomain d { x with count := n }
  if x.ie && n.toNat = x.thresh.toNat && !s.memRegs.hevPend.getLsbD d then s1.domainEvent d else s1

/-- A write of MCTL (R59). -/
def State.mctlOp (s : State) (v : Word) : State := { s with memRegs := { s.memRegs with stmode := v.getLsbD 0 } }

def State.memRegRead (s : State) (o : Nat) : Nat :=
  let r := s.memRegs
  if o = 0x00 then r.lpin0.toNat
  else if o = 0x08 then r.lpin1.toNat
  else if o = 0x10 then r.lset0.toNat
  else if o = 0x18 then r.lset1.toNat
  else if o = 0x20 then r.hevBaton.toNat
  else if o = 0x28 then r.acBase.toNat * 2 ^ 16
  else if o = 0x30 then r.acHBase.toNat * 2 ^ 16
  else if o = 0x38 then r.acHLim.toNat
  else if o = 0x40 then r.acThresh.toNat
  else if o = 0x48 then r.acRing.toNat * 2 ^ 15
  else if o = 0x50 then r.acHead.toNat
  else if o = 0x58 then r.acTail.toNat
  else if o = 0x60 then r.acLost.toNat
  else if o = 0x68 then bit01 r.stmode
  else if 0x80 ≤ o && o < 0x100 then r.hevPend.toNat / 2 ^ ((o - 0x80) * 8) % 2 ^ 64
  else if 0x2000 ≤ o && o < 0x4000 then (s.domain ((o - 0x2000) / 8)).read
  else if 0x4000 ≤ o && o < 0x6000 then (s.domain ((o - 0x4000) / 8)).count.toNat
  else if 0x6000 ≤ o && o < 0x8000 then
    (((r.pcmap.find? (·.1 = (o - 0x6000) / 8)).map (·.2.toNat)).getD ((o - 0x6000) / 8))
  else 0

def State.memRegWrite (s : State) (o : Nat) (v : Word) : State :=
  let r := s.memRegs
  let put (r : MemRegs) : State := { s with memRegs := r }
  if o = 0x00 then put { r with lpin0 := v.extractLsb' 0 10 }
  else if o = 0x08 then put { r with lpin1 := v.extractLsb' 0 10 }
  else if o = 0x10 then put { r with lset0 := v }
  else if o = 0x18 then put { r with lset1 := v }
  else if o = 0x20 then put { r with hevBaton := v }
  else if o = 0x28 then put { r with acBase := v.extractLsb' 16 36 }
  else if o = 0x30 then put { r with acHBase := v.extractLsb' 16 36 }
  else if o = 0x38 then put { r with acHLim := v.extractLsb' 0 36 }
  else if o = 0x40 then put { r with acThresh := v.extractLsb' 0 16 }
  else if o = 0x48 then put { r with acRing := v.extractLsb' 15 37 }
  else if o = 0x58 then put { r with acTail := v.extractLsb' 0 32 }
  else if o = 0x60 then put { r with acLost := v.extractLsb' 0 32 }
  else if o = 0x68 then s.mctlOp v
  else if 0x80 ≤ o && o < 0x100 then
    put { r with hevPend := r.hevPend &&& ~~~ (BitVec.ofNat 1024 (v.toNat * 2 ^ ((o - 0x80) * 8))) }
  else if 0x2000 ≤ o && o < 0x4000 then s.hdcfgOp ((o - 0x2000) / 8) v
  else if 0x4000 ≤ o && o < 0x6000 then
    s.setDomain ((o - 0x4000) / 8) { s.domain ((o - 0x4000) / 8) with count := v.extractLsb' 0 32 }
  else s

/-! ## Switch-tier registers (R96) -/

def State.swRegRead (s : State) (o : Nat) : Nat :=
  let r := s.swRegs
  if o < 0x200 then
    match r.tid.find? (·.1 = o / 8) with
    | some (_, v, t) => bit01 v * 2 ^ 16 + t.toNat
    | none => 0
  else if o = 0x200 then r.baton.toNat
  else if o = 0x208 then r.up.toNat
  else if o = 0x210 then r.chg.toNat
  else if 0x280 ≤ o && o < 0x280 + 144 then ((r.gen.find? (·.1 = (o - 0x280) / 8)).map (·.2.toNat)).getD 0
  else 0

def State.swRegWrite (s : State) (o : Nat) (v : Word) : State :=
  let r := s.swRegs
  if o < 0x200 then
    { s with swRegs := { r with
        tid := (o / 8, v.getLsbD 16, v.extractLsb' 0 16) :: r.tid.filter (·.1 != o / 8) } }
  else if o = 0x200 then { s with swRegs := { r with baton := v } }
  else if o = 0x210 then { s with swRegs := { r with chg := r.chg &&& ~~~ (v.extractLsb' 0 18) } }
  else s

/-! ## Starter registers (R344) -/

def State.qcfg (s : State) (q : Nat) : QCfg := ((s.starter.queues.find? (·.1 = q)).map (·.2)).getD ⟨0, false, false⟩

/-- OCC, the undispatched records of a queue. -/
def State.occ (s : State) (q : Nat) : Nat := (s.starter.recs.filter (fun r => r.queue == q && r.state == .queued)).length

def State.starterRead (s : State) (o : Nat) : Nat :=
  let t := s.starter
  if o < 0x200 then
    let q := s.qcfg (o / 8)
    s.occ (o / 8) * 2 ^ 32 + q.depth.toNat * 2 ^ 8 + bit01 q.free * 2 + bit01 q.en
  else if o = 0x200 then t.stcap.toNat
  else if o = 0x208 then t.slBase.toNat * 2 ^ 12 + t.slLog.toNat
  else if o = 0x210 then t.slHead.toNat
  else if 0x1000 ≤ o && o < 0x3000 then
    match s.findObj ((o - 0x1000) / 8) with
    | some b => (if b.pending then 2 else 1) * 2 ^ 62 + s.objRefs b % 2 ^ 30 * 2 ^ 32
    | none => 0
  else 0

def State.starterWrite (s : State) (o : Nat) (v : Word) : State :=
  let t := s.starter
  if o < 0x200 then
    let q := s.qcfg (o / 8)
    let q1 : QCfg := ⟨v.extractLsb' 8 8, if s.occ (o / 8) = 0 then v.getLsbD 1 else q.free, v.getLsbD 0⟩
    { s with starter := { t with queues := (o / 8, q1) :: t.queues.filter (·.1 != o / 8) } }
  else if o = 0x200 then
    let n := v.toNat % 64
    { s with starter := { t with stcap := if n = 0 then 1 else if 48 < n then 48 else v.extractLsb' 0 6 } }
  else if o = 0x208 then
    { s with starter := { t with
        slBase := v.extractLsb' 12 40
        slLog := if 8 ≤ v.toNat % 32 && v.toNat % 32 ≤ 20 then v.extractLsb' 0 5 else 8 } }
  else s

/-! ## The coroutine-control block (R366 to R369) -/

/-- The core that TARGET names on a die: CLUS in [18:17], CORE in [16:10] (R366); none when CORE is no core. -/
def targetCore (die target : Nat) : Option Nat :=
  if target / 1024 % 128 < 96 then some (die % 16 * 384 + target / 2 ^ 17 * 96 + target / 1024 % 128) else none

/-- The coroutine that TARGET and INC name, if it exists. -/
def State.targetCoro (s : State) (die target inc : Nat) : Option (Nat × Coro) :=
  match targetCore die target with
  | none => none
  | some id =>
    match (s.coreAt id).allCoros.find? (fun c => c.cnum.toNat == target % 1024 && c.inc.toNat == inc) with
    | none => none
    | some c => some (id, c)

def State.ccbAt (s : State) (die : Nat) : Ccb := (s.ccb[die % 16]?).getD ⟨none, 0⟩
def State.setCcb (s : State) (die : Nat) (b : Ccb) : State := { s with ccb := s.ccb.setIfInBounds (die % 16) b }
def State.ccbStatus (s : State) (die code : Nat) : State :=
  s.setCcb die { s.ccbAt die with status := BitVec.ofNat 8 code }

/-- The window closes if it is open on the target. -/
def State.closeOn (s : State) (die target : Nat) : State :=
  if (s.ccbAt die).target = some target then s.setCcb die { s.ccbAt die with target := none } else s

/-- OPEN (R367, Table 7). -/
def State.ccmdOpenOp (s : State) (die target inc : Nat) : State :=
  match s.targetCoro die target inc with
  | none => s.ccbStatus die 1
  | some (_, c) =>
    match c.state with
    | .parked _ =>
      match (s.ccbAt die).target with
      | none => s.setCcb die ⟨some target, 0⟩
      | some t => if t = target then s.ccbStatus die 0 else s.ccbStatus die 4
    | _ => s.ccbStatus die 2

/-- RESUME (R367, Table 7). -/
def State.ccmdResumeOp (s : State) (die target inc : Nat) : State :=
  match s.targetCoro die target inc with
  | none => s.ccbStatus die 1
  | some (id, c) =>
    match c.state with
    | .parked .dataContext => s.ccbStatus die 3
    | .parked _ => ((s.onCore id (·.unpark c.cnum)).closeOn die target).ccbStatus die 0
    | .held .trap =>
      -- no coroutine runs on a core out of service (R380)
      if !(s.coreAt id).inService then s.ccbStatus die 0
      else (s.onCore id (fun t => t.modCore (fun k =>
        (k.modCurrent (fun c => { c with state := .running })).setLiveness .running))).ccbStatus die 0
    | _ => s.ccbStatus die 2

/-- KILL (R367, R369). -/
def State.ccmdKillOp (s : State) (die target inc : Nat) : State :=
  match s.targetCoro die target inc with
  | none => s.ccbStatus die 1
  | some (id, c) => ((s.onCore id (·.killSoon c.cnum)).closeOn die target).ccbStatus die 0

/-- CLOSE (R367). -/
def State.ccmdCloseOp (s : State) (die : Nat) : State := s.setCcb die ⟨none, 0⟩

/-- A store to CCMD (R366, R367): bits that carry no field must be zero. -/
def State.ccmdOp (s : State) (die : Nat) (v : Word) : State :=
  let op := bits v.toNat 63 60
  let target := bits v.toNat 49 31
  let inc := bits v.toNat 15 0
  if bits v.toNat 59 50 != 0 || bits v.toNat 30 16 != 0 then s.ccbStatus die 5
  else match op with
    | 1 => s.ccmdOpenOp die target inc
    | 2 => s.ccmdResumeOp die target inc
    | 3 => s.ccmdKillOp die target inc
    | 4 => s.ccmdCloseOp die
    | _ => s.ccbStatus die 5

/-- The open context of a die's window. -/
def State.openCoro (s : State) (die : Nat) : Option (Core × Coro) :=
  match (s.ccbAt die).target with
  | none => none
  | some t => match targetCore die t with
    | none => none
    | some id => ((s.coreAt id).coros.find? (fun c => c.cnum.toNat == t % 1024)).map (fun c => (s.coreAt id, c))

def State.ccbRead (s : State) (die o : Nat) : Nat :=
  let b := s.ccbAt die
  if o = 0x008 then
    bit01 b.target.isSome * 2 ^ 63 + b.target.getD 0 * 2 ^ 31 + b.status.toNat
  else match s.openCoro die with
    | none => 0
    | some (k, c) =>
      if 0x100 ≤ o && o < 0x200 then (c.getS ⟨(o - 0x100) / 8 % 32, Nat.mod_lt _ (by decide)⟩).toNat
      else if o = 0x200 then c.pc.toNat
      else if o = 0x208 then c.g.toNat + 128
      else if 0x300 ≤ o && o < 0x300 + 8 * 27 then cregCoro k c ((o - 0x300) / 8)
      else 0

/-- The open context changed. -/
def State.editOpen (s : State) (die : Nat) (f : Coro → Coro) : State :=
  match s.openCoro die with
  | none => s
  | some (k, c) => s.onCore k.id (fun t => t.modCore (fun k =>
      { k with coros := k.coros.map (fun x => if x.cnum == c.cnum then f x else x) }))

def State.ccbWrite (s : State) (die o : Nat) (v : Word) : State :=
  if o = 0x000 then s.ccmdOp die v
  else if 0x100 ≤ o && o < 0x200 then
    s.editOpen die (·.setS ⟨(o - 0x100) / 8 % 32, Nat.mod_lt _ (by decide)⟩ v)
  else if o = 0x200 then (s.editOpen die (fun c => { c with pc := v })).askUnloads
  else if o = 0x208 then s.editOpen die (fun c => { c with g := v.extractLsb' 0 7 })
  else if 0x300 ≤ o && o < 0x300 + 8 * 27 && !cregReadOnly ((o - 0x300) / 8) then
    s.editOpen die (fun c => cregSetCoro c ((o - 0x300) / 8) v false)
  else s

/-! ## Keys (R410) -/

/-- KEYSTAT. -/
def State.keyStat (s : State) : Nat := s.keys.foldl (fun n k => n + 2 ^ k.1) 1

/-- Whether `n` bytes of HBM cannot be read as a record: some of them lie outside HBM or in a spill region (R68), or are
poisoned (R379). -/
def State.badRecord (s : State) (pa n : Nat) : Bool :=
  decide (Config.hbmBytes < pa + n) || s.inSpillRegion pa || s.inSpillRegion (pa + n - 1) || s.poisoned (hbmStore pa) n

/-- KEYCMD load: the 1,152-byte record at `rec` unwraps into an empty slot other than 0 (R410); one that cannot be read
changes nothing either (log 15). -/
def State.keyLoadOp (s : State) (slot rec : Nat) : State :=
  if slot = 0 || 64 ≤ slot || s.keyLoaded slot then s
  else if s.badRecord rec 1152 then s
  else match unwrapKey (s.mem.read (hbmStore rec) 1152) with
    | none => s
    | some k => { s with keys := (slot, k) :: s.keys }

/-- KEYCMD erase (R410). -/
def State.keyEraseOp (s : State) (slot : Nat) : State := { s with keys := s.keys.filter (·.1 != slot) }

/-! ## Engagement scrubs and attestation (R405, R409) -/

/-- A system event signals the baton in SYSBATON. -/
def State.systemEvent (s : State) : State := s.registerSignal s.sys.sysBaton false

def State.scrubStatus (s : State) (code : Nat) : State :=
  { s with sys := { s.sys with scrStatus := BitVec.ofNat 8 code } }

/-- Whether `len` bytes from `pa` lie in HBM outside the firmware-reserved region. -/
def hbmRange (pa len : Nat) : Bool :=
  pa + len ≤ Config.hbmBytes && (pa + len ≤ Config.firmwareBase || Config.firmwareBase + 2 ^ 30 ≤ pa)

/-- The words of a request in HBM. -/
def State.requestWords (s : State) (pa n : Nat) : List Nat := (List.range n).map (fun i => s.hbmWord (pa + 8 * i))

/-- The ranges of a scrub request: base and length words of the first `n` (Table 4). -/
def scrubRanges (w : List Nat) : Nat → List (Nat × Nat)
  | 0 => []
  | n + 1 => scrubRanges w n ++ [(w.getD (2 + 2 * n) 0, w.getD (3 + 2 * n) 0)]

/-- Whether one range is as Table 4 asks. -/
def rangeGood (r : Nat × Nat) : Bool :=
  let b := bits r.1 51 16 * 2 ^ 16
  let l := bits r.2 40 16 * 2 ^ 16
  r.1 == b && r.2 == l && l != 0 && hbmRange b l

/-- Whether a scrub request keeps to Table 4. -/
def scrubGood (w : List Nat) : Bool :=
  let w0 := w.getD 0 0
  let n := bits w0 20 16
  let dest := w.getD 1 0
  w0 == bits w0 5 0 + bits w0 8 8 * 2 ^ 8 + n * 2 ^ 16 && dest == bits dest 51 6 * 2 ^ 6 &&
    hbmRange dest 17344 && (scrubRanges w n).all rangeGood && (w.drop (2 + 2 * n)).all (· == 0)

/-- Whether a core that engagement `slot` has touched holds a coroutine or an in-flight copy of another slot. -/
def State.scrubShared (s : State) (slot : Nat) : Bool :=
  s.cores.any (fun c => c.touched.getLsbD slot &&
    (c.allCoros.any (fun k => s.slotOf k.asid.toNat != slot) ||
      c.chans.toList.any (fun ch => match ch.cmd with
        | some m => m.slot != slot
        | none => false)))

/-- Whether a cancel stops a channel's command: one that has delivered its last byte completes normally (R151). -/
def Chan.cancels (c : Chan) : Bool :=
  c.state == .inFlight && (match c.cmd with
    | some m => c.done != m.len
    | none => true)

/-- A copy channel stops: chunks not yet started are dropped (R151). -/
def Chan.cancel (c : Chan) : Chan := if c.cancels then { c with state := .cancelling } else c

/-- `rcancel` of channel `i` of the core in focus. -/
def State.cancelChan (s : State) (i : Fin 8) : State :=
  if (s.core.chans[i]).cancels then
    (s.modCore (fun c => { c with chans := c.chans.set i (c.chans[i]).cancel })).push (.relayCancelComplete s.core.id i)
  else s

/-- The coroutines of a core that `p` selects are killed. -/
def State.killWhere (s : State) (id : Nat) (p : Coro → Bool) : State :=
  ((s.coreAt id).allCoros.filter p).foldl (fun t k => t.onCore id (·.killCoro k.cnum)) s

/-- A core's channels whose command `p` selects are cancelled. -/
def State.cancelWhere (s : State) (id : Nat) (p : RelayCmd → Bool) : State :=
  ([0, 1, 2, 3, 4, 5, 6, 7] : List (Fin 8)).foldl (fun t i =>
    match ((t.coreAt id).chans[i]).cmd with
    | some m => if p m then t.onCore id (·.cancelChan i) else t
    | none => t) s

/-- A store to SCRCMD (R405). -/
def State.engagementScrubOp (s : State) (req : Nat) : State :=
  let w := s.requestWords req 64
  let w0 := w.getD 0 0
  let slot := bits w0 5 0
  if s.sys.job.isSome then s.scrubStatus 1
  else if slot = 0 then s.scrubStatus 4
  else if !scrubGood w then s.scrubStatus 2
  else if s.scrubShared slot then s.scrubStatus 3
  else
    let ids := s.cores.map (·.id)
    let s1 := ids.foldl (fun t id => t.killWhere id (fun k => s.slotOf k.asid.toNat == slot)) s
    let s2 := ids.foldl (fun t id => t.cancelWhere id (fun m => m.slot == slot)) s1
    ({ s2 with sys := { s2.sys with
        job := some (.scrub slot (bitAt w0 8) (w.getD 1 0) ((w.drop 2).map w64)) } }).push .engagementScrubComplete

/-- A store to ATTCMD (R409). -/
def State.attestOp (s : State) (req : Nat) : State :=
  let dest := s.hbmWord req
  if s.sys.job.isSome then s.scrubStatus 1
  else if dest != bits dest 51 6 * 2 ^ 6 || !hbmRange dest 17344 then s.scrubStatus 2
  else
    ({ s with sys := { s.sys with job := some (.attest dest (s.mem.read (req + 8) 32)) } }).push .attestationComplete

/-! ## The system block (R396) -/

/-- OWN. -/
def SysRegs.own (y : SysRegs) : Nat :=
  bit01 y.ownV * 2 ^ 63 + y.ownMaster.toNat * 2 ^ 56 + bit01 y.ownLv * 2 ^ 50 + y.ownLast.toNat * 2 ^ 48 +
    y.ownGen.toNat * 2 ^ 32

/-- SYSSTAT. -/
def SysRegs.stat (y : SysRegs) : Nat :=
  y.hsdrop.toNat * 2 ^ 24 + bit01 y.bootfail * 2 ^ 23 + bit01 y.scrub * 2 ^ 20 + bit01 y.link * 2 ^ 19 +
    bit01 y.fabtr * 2 ^ 18 + bit01 y.memtr * 2 ^ 17 + y.mhz.toNat * 2 ^ 4 + y.svc.toNat

def SysRegs.dropSignal (y : SysRegs) : SysRegs := { y with hsdrop := if y.hsdrop = 255 then 255 else y.hsdrop + 1 }

/-- Where HOSTSIG lies in the register space (R396). -/
def hostsigAt : Nat := Config.regBase + 0x140010

/-- A store to HOSTSIG (R399). -/
def State.hostsigOp (s : State) (v : Word) : State :=
  if s.sys.ownV && s.sys.link then { s with hostOut := s.hostOut ++ [v] } else { s with sys := s.sys.dropSignal }

def State.sysRead (s : State) (o : Nat) : Nat :=
  let y := s.sys
  if o = 0x00 then y.own
  else if o = 0x08 then y.reload.toNat * 2 ^ 32 + y.left.toNat
  else if o = 0x18 then y.stat
  else if o = 0x20 then y.sysBaton.toNat
  else if o = 0x30 then s.keyStat
  else if o = 0x40 then bit01 y.job.isSome * 2 ^ 63 + y.scrSeq.toNat * 2 ^ 16 + y.scrStatus.toNat
  else if o = 0x50 then y.monBase.toNat * 2 ^ 12 + y.monLog.toNat
  else if o = 0x58 then y.monHead.toNat
  else if o = 0x60 then y.monTail.toNat
  else if o = 0x68 then y.monLost.toNat
  else if o = 0x70 then y.pwrcap.toNat
  else if o = 0x78 then y.repChan.toNat * 2 ^ 32 + y.repCount.toNat
  else if 0x100 ≤ o && o < 0x500 then
    let m := s.monitor ((o - 0x100) / 16)
    if o % 16 = 0 then
      bit01 m.en * 2 ^ 63 + bit01 m.wr * 2 ^ 62 + bit01 m.rd * 2 ^ 61 + bit01 m.stall * 2 ^ 60 + m.base.toNat * 2 ^ 12
    else m.limit.toNat * 2 ^ 12
  else 0

/-- A write of the system block; `host` marks the owner master, who alone writes LEASE (R396). OWN is never stored
to. -/
def State.sysWrite (s : State) (host : Bool) (o : Nat) (v : Word) : State :=
  let y := s.sys
  let put (y : SysRegs) : State := { s with sys := y }
  if o = 0x08 then
    if host then put { y with reload := if v.toNat / 2 ^ 32 = 0 then 1 else v.extractLsb' 32 32 } else s
  else if o = 0x10 then s.hostsigOp v
  else if o = 0x18 then put { y with hsdrop := v.extractLsb' 24 8 }
  else if o = 0x20 then put { y with sysBaton := v }
  else if o = 0x28 then
    match bits v.toNat 63 62 with
    | 1 => s.keyLoadOp (bits v.toNat 61 56) (bits v.toNat 51 6 * 64)
    | 2 => s.keyEraseOp (bits v.toNat 61 56)
    | _ => s
  else if o = 0x38 then s.engagementScrubOp (bits v.toNat 51 6 * 64)
  else if o = 0x48 then s.attestOp (bits v.toNat 51 6 * 64)
  else if o = 0x50 then
    put { y with
      monBase := v.extractLsb' 12 40
      monLog := if 8 ≤ v.toNat % 32 && v.toNat % 32 ≤ 20 then v.extractLsb' 0 5 else 8 }
  else if o = 0x60 then put { y with monTail := v.extractLsb' 0 32 }
  else if o = 0x68 then put { y with monLost := v.extractLsb' 0 32 }
  else if o = 0x70 then
    let w := v.toNat % 2 ^ 16
    put { y with pwrcap := if w < 1200 then 1200 else if 3600 < w then 3600 else v.extractLsb' 0 16 }
  else if 0x100 ≤ o && o < 0x500 then
    let i := (o - 0x100) / 16
    let m := s.monitor i
    let m1 : Monitor :=
      if o % 16 = 0 then
        { m with en := v.getLsbD 63, wr := v.getLsbD 62, rd := v.getLsbD 61, stall := v.getLsbD 60,
                 base := v.extractLsb' 12 40 }
      else { m with limit := v.extractLsb' 12 40 }
    let covers (l : L1Line) : Bool := m1.en && decide (m1.base.toNat ≤ l.line * 64 / 4096) &&
      decide (l.line * 64 / 4096 < m1.limit.toNat)
    let s1 := s.writeBackAll covers
    { s1 with sys := { s1.sys with monitors := (i, m1) :: y.monitors.filter (·.1 != i) } }
  else s

/-! ## The whole register space -/

/-- The value of the 8-byte register at a system physical address. -/
def State.regRead (s : State) (pa : Nat) : Word :=
  let o := pa - Config.regBase
  w64 (if 0x100000 ≤ o && o < 0x110000 then s.memRegRead (o - 0x100000)
    else if 0x110000 ≤ o && o < 0x120000 then s.swRegRead (o - 0x110000)
    else if 0x120000 ≤ o && o < 0x130000 then s.starterRead (o - 0x120000)
    else if 0x130000 ≤ o && o < 0x140000 then s.ccbRead ((o - 0x130000) / 0x1000) ((o - 0x130000) % 0x1000)
    else if 0x140000 ≤ o && o < 0x150000 then s.sysRead (o - 0x140000)
    else 0)

/-- A store to the 8-byte register at a system physical address; what is not listed ignores it. -/
def State.regWrite (s : State) (host : Bool) (pa : Nat) (v : Word) : State :=
  let o := pa - Config.regBase
  if 0x100000 ≤ o && o < 0x110000 then s.memRegWrite (o - 0x100000) v
  else if 0x110000 ≤ o && o < 0x120000 then s.swRegWrite (o - 0x110000) v
  else if 0x120000 ≤ o && o < 0x130000 then s.starterWrite (o - 0x120000) v
  else if 0x130000 ≤ o && o < 0x140000 then s.ccbWrite ((o - 0x130000) / 0x1000) ((o - 0x130000) % 0x1000) v
  else if 0x140000 ≤ o && o < 0x150000 then s.sysWrite host (o - 0x140000) v
  else s

end Sys2Proof.Machine
end

