-- ==== Sys2Proof/Machine/Access.lean ====
section
/-! DEFINITION. Scalar and element accesses (spec/11_memory_sync_instr.md R277, R288, R418, spec/01 R31, spec/02 R54,
R55): an access is cut at 64-byte boundaries, every part is translated before any is performed, and each part is
performed where its target lies. -/

namespace Sys2Proof.Machine

/-- The issuer of the coroutine or handler in the register files of the core in focus. -/
def State.issuer (s : State) : Issuer := ⟨coroWord s.core.id s.core.run, s.core.run.asid.toNat, s.mySlot, .core⟩

/-- The parts of `n` bytes at `a` that 64-byte boundaries cut; a page, a granule and a way hold whole parts. -/
def cutParts : Nat → Word → Nat → List (Word × Nat)
  | 0, _, _ => []
  | fuel + 1, a, n =>
    if n = 0 then []
    else
      let m := min n (64 - a.toNat % 64)
      (a, m) :: cutParts fuel (a + w64 m) (n - m)

def partsOf (a : Word) (n : Nat) : List (Word × Nat) := cutParts (n / 64 + 2) a n

/-- Every part translated, or the cause of the first that fails (R31). -/
def State.translateParts (s : State) (who : Who) (acc : Access) (reg8 : Bool) :
    List (Word × Nat) → Except Cause (List (Xlat × Nat))
  | [] => .ok []
  | (a, n) :: ps =>
    match s.translate who acc reg8 a with
    | .error c => .error c
    | .ok x => match State.translateParts s who acc reg8 ps with
      | .error c => .error c
      | .ok xs => .ok ((x, n) :: xs)

/-- An access of `n` bytes at `a`, translated. `scalar` says that it is a scalar load or store, which may reach the
register space when it is an aligned 8 bytes (R55). -/
def State.translateAccess (s : State) (who : Who) (acc : Access) (scalar : Bool) (a : Word) (n : Nat) :
    Except Cause (List (Xlat × Nat)) :=
  s.translateParts who acc (scalar && n == 8 && a.toNat % 8 == 0 && acc != .atomic) (partsOf a n)

/-! ## Scratchpads (R10, R11, R379) -/

/-- Whether a scratchpad word in a range is poisoned. -/
def State.padPoisoned (s : State) (a n : Nat) : Bool :=
  n != 0 && s.padPoison.any (fun w => a / 4 ≤ w && w ≤ (a + n - 1) / 4)

/-- Bytes of a scratchpad read and written at its storage address; an uncorrectable word that is read raises
DATA_SRAM and one written whole is good again (R379). -/
def State.padBytesDo (s : State) (a n : Nat) (reads : Bool) (f : List Byte → Option (List Byte)) :
    Except Stop (List Byte × State) :=
  if reads && s.padPoisoned a n then .error (.cause .dataSram s)
  else
    let old := if reads then s.mem.read a n else []
    match f old with
    | none => .ok (old, s)
    | some new => .ok (old, { s with
        mem := s.mem.write a new
        padPoison := s.padPoison.filter (fun w => !(decide (a ≤ 4 * w) && decide (4 * w + 4 ≤ a + new.length))) })

/-- Whether an answer of a message slot is the one to an element asked for. -/
def SlotReply.answers (r : SlotReply) (core off n : Nat) : Bool := r.core == core && r.off == off && r.len == n

/-- The answer to an element in another core's scratchpad: none while it has not come, and otherwise the bytes, and the
state without it (R98, R180). -/
def State.takeReply (s : State) (core off n : Nat) : Option (SlotReply × State) :=
  match s.core.run.flight with
  | none => none
  | some f => match f.replies.find? (·.answers core off n) with
    | none => none
    | some r => some (r, s.modRun (fun c => { c with flight := some { f with replies := f.replies.erase r } }))

/-- Whether a core's scratchpad refuses `n` bytes at an offset: it is out of service, or they pass its size (R11, R380). -/
def Core.padRefuses (c : Core) (off n : Nat) : Option Cause :=
  if !c.inService then some .dataSram else if c.padBytes < off + n then some .nearOutOfRange else none

/-- A part that lies in a scratchpad: the core's own, or a relay beat's, is reached at once. Another core's has been served
by its message slot: a store has been posted there, and a load or atomic takes what the slot has answered (R11, R180,
R380). -/
def State.padDo (s : State) (iss : Issuer) (core off n : Nat) (reads : Bool) (f : List Byte → Option (List Byte)) :
    Except Stop (List Byte × State) :=
  if core != s.core.id && iss.via == .core then
    if !reads then .ok ([], s)
    else match s.takeReply core off n with
      | none => .error .wait
      | some (r, s1) => match r.cause with
        | some c => .error (.cause c s1)
        | none => .ok (r.data, s1)
  else match (s.coreAt core).padRefuses off n with
    | some c => .error (.cause c s)
    | none => s.padBytesDo (padStore core + off) n reads f

/-! ## Parts -/

/-- The die whose CSTAT register lies at a register-space address, if one does (R366). -/
def statDie (pa : Nat) : Option Nat :=
  let o := pa - Config.regBase
  if 0x130000 ≤ o && o < 0x140000 && o % 0x1000 == 8 then some ((o - 0x130000) / 0x1000) else none

/-- Whether a kill that a coroutine-control block of a die was told is still to be applied (R368). -/
def State.killDue (s : State) (die : Nat) : Bool :=
  s.cores.any (fun c => dieOf c.id == die && c.allCoros.any (·.killed))

/-- An 8-byte register read or written (R55); a read of CSTAT waits for a kill (R368). -/
def State.regDo (s : State) (pa : Nat) (reads : Bool) (f : List Byte → Option (List Byte)) :
    Except Stop (List Byte × State) :=
  if reads && ((statDie pa).map s.killDue).getD false then .error .wait
  else
    let old := if reads then leBytes 8 (s.regRead pa).toNat else []
    match f old with
    | none => .ok (old, s)
    | some new => .ok (old, s.regWrite false pa (w64 (leNat new)))

/-- One part performed at its target; `fresh` says that it is read at its home. -/
def State.partAt (s : State) (iss : Issuer) (x : Xlat) (n : Nat) (reads writes fresh : Bool)
    (f : List Byte → Option (List Byte)) : Except Stop (List Byte × State) :=
  match x.target with
  | .pad core off => s.padDo iss core off n reads f
  | .reg pa => s.regDo pa reads f
  | _ => s.outerDo iss x n reads writes fresh f

/-- One part performed at its target, through the L1 where its data may be held there. -/
def State.partDo (s : State) (iss : Issuer) (x : Xlat) (n : Nat) (reads writes : Bool)
    (f : List Byte → Option (List Byte)) : Except Stop (List Byte × State) :=
  s.partAt iss x n reads writes false f

/-- Bytes read, part by part, each as `one` reads it. -/
def State.readBy (s : State) (one : State → Xlat → Nat → Except Stop (List Byte × State)) :
    List (Xlat × Nat) → Except Stop (List Byte × State)
  | [] => .ok ([], s)
  | (x, n) :: ps =>
    match one s x n with
    | .error e => .error e
    | .ok (b, s1) => match State.readBy s1 one ps with
      | .error e => .error e
      | .ok (bs, s2) => .ok (b ++ bs, s2)

/-- Bytes loaded, part by part. -/
def State.readParts (s : State) (iss : Issuer) (ps : List (Xlat × Nat)) : Except Stop (List Byte × State) :=
  s.readBy (fun t x n => t.partDo iss x n true false (fun _ => none)) ps

/-- Bytes read part by part at their homes, past any L1 (R292). -/
def State.readFresh (s : State) (iss : Issuer) (ps : List (Xlat × Nat)) : Except Stop (List Byte × State) :=
  s.readBy (fun t x n => t.partAt iss x n true false true (fun _ => none)) ps

/-- The cause with which a part of a store is refused at its destination, if it is (R418). -/
def State.partRefused (s : State) (iss : Issuer) (x : Xlat) (n : Nat) : Option Cause :=
  match x.target with
  | .pad core off => (s.coreAt core).padRefuses off n
  | _ => match s.partDo iss x n false true (fun _ => some (List.replicate n 0)) with
    | .error (.cause c _) => some c
    | _ => none

/-- That of the first part refused of an element in several parts: then no part of it is written (R418). -/
def State.elementRefused (s : State) (iss : Issuer) (ps : List (Xlat × Nat)) : Option Cause :=
  if ps.length ≤ 1 then none else ps.findSome? (fun p => s.partRefused iss p.1 p.2)

/-- Bytes stored, part by part. -/
def State.writeEach (s : State) (iss : Issuer) (bs : List Byte) : List (Xlat × Nat) → Except Stop State
  | [] => .ok s
  | (x, n) :: ps =>
    match s.partDo iss x n false true (fun _ => some (bs.take n)) with
    | .error e => .error e
    | .ok (_, s1) => State.writeEach s1 iss (bs.drop n) ps

/-- An element stored, or the cause with which it is refused: it then writes nothing (R418). -/
def State.writeParts (s : State) (iss : Issuer) (bs : List Byte) (ps : List (Xlat × Nat)) :
    Except Stop (Option Cause × State) :=
  match s.elementRefused iss ps with
  | some c => .ok (some c, s)
  | none => match s.writeEach iss bs ps with
    | .ok s1 => .ok (none, s1)
    | .error (.cause c _) => .ok (some c, s)
    | .error .wait => .error .wait

/-- Bytes that are written whole to be good again, from a place on: a poisoned half, or an uncorrectable word (R379). -/
def State.badUnit (s : State) (a : Nat) : Nat :=
  if a % 64 = 0 && s.poison.contains (a / 64) then 64
  else if a % 4 = 0 && (s.padPoison.contains (a / 4) || s.badL1 a 4) then 4
  else 0

/-- A store of several elements that together cover a poisoned half, or an uncorrectable word, covers it whole: it is written
at once, ahead of the elements, and is good again (R379). -/
def State.cureWhole (s : State) (iss : Issuer) (ps : List (List Byte × List (Xlat × Nat))) : State :=
  let placed := (ps.flatMap (fun p => placeBytes p.1 p.2)).reverse
  let byte (i : Nat) : Option Byte := (placed.find? (·.1 == i)).map (·.2)
  (ps.flatMap (·.2)).foldl (fun t q => match q.1.target.storage with
    | none => t
    | some a =>
      let bs := (List.range (t.badUnit a)).map (fun i => byte (a + i))
      if bs.isEmpty || bs.any (·.isNone) then t
      else match t.partDo iss q.1 bs.length false true (fun _ => some (bs.filterMap id)) with
        | .error _ => t
        | .ok (_, t1) => t1) s

/-! ## Outcomes, and fetches -/

/-- The outcome of an access that may fail with a cause. -/
inductive Done (α : Type) where
  | ok (a : α) (s : State)
  | cause (c : Cause) (s : State)     -- the state once its requests have done at their homes what they do there
  | wait (s : State)                  -- the state in which it waits

/-- Bytes of an access with the dirty bytes of the L1 of the core in focus in place of their homes'. -/
def State.overParts (s : State) : List Byte → List (Xlat × Nat) → List Byte
  | _, [] => []
  | bs, (x, n) :: ps =>
    (match x.target.storage with
      | none => bs.take n
      | some a => s.overL1 a (bs.take n)) ++ State.overParts s (bs.drop n) ps

/-- The word fetched at `a` (R22), at its home, with what the core itself has stored and not yet performed there: a coroutine
fetches what was written before the `spawn` that made it (R97). A fetch is no load that a monitor logs or an access counter
counts (R70, R411), and leaves the caches as they are (log 25). -/
def State.fetchWord (s : State) (who : Who) (a : Word) : Except Stop Nat :=
  match s.translateAccess who .fetch false a 4 with
  | .error c => .error (.cause c s)
  | .ok ps =>
    let s0 := { s with sys := { s.sys with monitors := [] } }
    match s0.readParts { s.issuer with via := .device } (ps.map (fun p => ({ p.1 with ace := false }, p.2))) with
    | .error e => .error e
    | .ok (bs, _) => .ok (leNat (s.overParts bs ps))

/-! ## Bytes that a strip holds (R127, R287) -/

/-- Loaded bytes with those of `shown` in place of memory's. -/
def overlay (shown : List (Nat × Byte)) (bs : List Byte) : List (Xlat × Nat) → List Byte
  | [] => []
  | (x, n) :: ps =>
    let here := bs.take n
    (match x.target.storage with
      | none => here
      | some a => here.mapIdx (fun i b => ((shown.find? (fun o => o.1 == a + i)).map (·.2)).getD b)) ++
      overlay shown (bs.drop n) ps

/-- Whether `shown` gives every byte of a part. -/
def coversPart (shown : List (Nat × Byte)) (p : Xlat × Nat) : Bool :=
  match p.1.target.storage with
  | none => false
  | some a => (List.range p.2).all (fun i => shown.any (fun o => o.1 == a + i))

/-- The bytes that a strip holds, each with the number of its store, latest first. -/
def Strip.heldBy (st : Strip) : List (Nat × Nat) :=
  (st.held.mapIdx (fun i h => (placeBytes h.data h.parts).map (fun b => (b.1, i)))).foldl (fun l x => x.reverse ++ l) []

/-- Whether some parts read a byte of `shown` from an entry of the strip buffer that is uncorrectable (R379). -/
def Coro.stripBad (c : Coro) (shown : List (Nat × Byte)) (ps : List (Xlat × Nat)) : Bool :=
  match c.strip with
  | none => false
  | some st =>
    c.ecc.any (fun m => match m with
      | .strip _ => true
      | _ => false) &&
    (placeBytes (List.replicate ((ps.map (·.2)).sum) 0) ps).any (fun b =>
      shown.any (fun o => o.1 == b.1) && ((st.heldBy.find? (·.1 == b.1)).map (fun x => c.ecc.contains (.strip x.2))).getD false)

/-- Bytes loaded part by part, those of `shown` in place of memory's. -/
def State.readOver (s : State) (iss : Issuer) (shown : List (Nat × Byte)) (ps : List (Xlat × Nat)) :
    Except Stop (List Byte × State) :=
  if shown.isEmpty then s.readParts iss ps
  else if s.core.run.stripBad shown ps then .error (.cause .dataSram s)
  else if ps.all (coversPart shown) then .ok (overlay shown ((ps.map (·.2)).sum |> fun n => List.replicate n 0) ps, s)
  else match s.readParts iss ps with
    | .error e => .error e
    | .ok (bs, s1) => .ok (overlay shown bs ps, s1)

/-- A scalar store's bytes are later than those that a fence has shown (R100). -/
def Coro.hideShown (c : Coro) (ps : List (Xlat × Nat)) : Coro :=
  match c.strip with
  | none => c
  | some st =>
    let gone := (placeBytes (List.replicate ((ps.map (·.2)).sum) 0) ps).map (·.1)
    { c with strip := some { st with shown := st.shown.filter (fun o => !gone.contains o.1) } }

/-! ## Stores and their deferred failures (R418) -/

/-- A store's failure at its destination reaches the core: the first one is kept until the next boundary. -/
def State.deferFailure (s : State) (d : Deferred) : State :=
  match s.core.run.deferred with
  | some _ => s
  | none =>
    { s.modRun (fun c => { c with deferred := some d }) with
      agenda := Event.deferredStoreFailure s.core.id :: s.agenda }

/-! ## Other cores' scratchpads (R98, R180) -/

/-- The parts of an access that lie in other cores' scratchpads. -/
def State.farParts (s : State) (ps : List (Xlat × Nat)) : List (Nat × Nat × Nat) :=
  ps.filterMap (fun p => match p.1.target with
    | .pad core off => if core = s.core.id then none else some (core, off, p.2)
    | _ => none)

/-- The elements that an access asks of other cores' message slots. -/
def State.farReads (s : State) (op : Option (AtomOp × Nat × Nat)) (ps : List (Xlat × Nat)) : List SlotAccess :=
  (s.farParts ps).map (fun q => ⟨q.1, q.2.1, q.2.2, op⟩)

/-- The parts of an element of a store that lie there, with their cores and bytes; those of one core that follow each other
together. -/
def State.farBytes (s : State) : List Byte → List (Xlat × Nat) → List (Nat × Nat × List Byte)
  | _, [] => []
  | bs, (x, n) :: ps =>
    let rest := State.farBytes s (bs.drop n) ps
    match x.target with
    | .pad core off =>
      if core = s.core.id then rest
      else match rest with
        | (k, o, more) :: others =>
          if k = core && o = off + n then (core, off, bs.take n ++ more) :: others else (core, off, bs.take n) :: rest
        | [] => [(core, off, bs.take n)]
    | _ => rest

/-- What an element of a store brings there: nothing where some part of the element is refused (R418). -/
def State.farStores (s : State) (va : Word) (idx : Nat) (insn : BitVec 32) (member : Nat) (bs : List Byte)
    (ps : List (Xlat × Nat)) : List (Nat × SlotStore) :=
  if (s.farParts ps).isEmpty || (s.elementRefused s.issuer ps).isSome then []
  else (s.farBytes bs ps).map (fun q => (q.1, ⟨q.2.1, q.2.2, va, idx, insn, member⟩))

/-- A request joins the queue of a core's message slot; none while that queue is full (R180). -/
def State.joinQueue (s : State) (core : Nat) (r : SlotReq) : Option State :=
  if 64 ≤ (s.coreAt core).queue.length then none
  else some ((s.onCore core (fun t => t.modCore (fun c => { c with queue := c.queue ++ [r] }))).push
    (.clusterWindowRequest core))

/-- The flight of the instruction at the program counter, as it begins; `pend` is what the parts of its datum are written into
when it is stopped (R227). -/
def Coro.flightOr (c : Coro) (pend : List Pending) : Flight := c.flight.getD { pend := pend }

def State.setFlight (s : State) (f : Flight) : State := s.modRun (fun c => { c with flight := some f })

/-- The first elements of a list that one request takes: up to 32, of one core (R180). -/
def batch {α : Type} (core : α → Nat) (els : List α) : List α :=
  match els with
  | [] => []
  | e :: _ => (els.takeWhile (fun x => core x == core e)).take 32

/-- Those of an atomic's elements: as many as 32 without parting elements of one address, which are applied as one group;
more only where one address has more (R180, R291, log 85). -/
def atomBatch (els : List SlotAccess) : List SlotAccess :=
  let mine : List SlotAccess := match els with
    | [] => []
    | e :: _ => els.takeWhile (fun x => x.core == e.core)
  let ends := ((List.range mine.length).map (· + 1)).filter (fun i =>
    (mine[i]?.map (·.off)) != (mine[i - 1]?.map (·.off)))
  mine.take (((ends.filter (· ≤ 32)).getLast?).getD (ends.headD mine.length))

/-- The parts that a request asks for, by its number. -/
def Pending.asked (id : Nat) (b : List SlotAccess) (p : Pending) : Pending :=
  match p.part with
  | some (⟨.pad core off, _, _, _, _⟩, n) =>
    if b.any (fun e => e.core == core && e.off == off && e.len == n) then
      { p with part := none, slot := some ⟨id, core, off, n⟩ }
    else p
  | _ => p

/-- The next request of coroutine `c`, whose flight is `f`, for the elements that it wants of other cores' message slots: the
state once it has joined a queue, and the flight then; none where that queue is full. -/
def State.askFor (s : State) (c : Coro) (f : Flight) (els : List SlotAccess) : Option (State × Flight) :=
  let rest := els.drop f.done
  let b := if els.any (·.op.isSome) then atomBatch rest else batch SlotAccess.core rest
  match b.head? with
  | none => none
  | some e =>
    (s.joinQueue e.core (.access s.core.id c.cnum.toNat c.inc.toNat s.stamp b)).map (fun s1 =>
      ({ s1 with stamp := s.stamp + 1 },
        { f with
          id := s.stamp
          asked := b.length
          held := f.held || els.any (·.op.isSome)
          pend := f.pend.map (·.asked s.stamp b) }))

/-- The elements that an instruction wants of other cores' message slots: none once every one has been answered, and otherwise
the state in which the instruction waits (R180, R227). -/
def State.ask (s : State) (pend : List Pending) (els : List SlotAccess) : Option State :=
  let f := s.core.run.flightOr pend
  if els.length ≤ f.done then none
  else if f.asked != 0 then some s
  else some (match s.askFor s.core.run f els with
    | none => s
    | some (s1, f1) => s1.setFlight f1)

/-- Elements that an instruction of coroutine `c` stores in other cores' scratchpads are posted to their message slots, until
every one is posted or a queue is full: how many have been, `k` of them before. -/
def State.post (s : State) (c : Coro) : Nat → List (Nat × SlotStore) → Nat → State × Nat
  | 0, _, k => (s, k)
  | fuel + 1, els, k =>
    match els.head? with
    | none => (s, k)
    | some e =>
      let b := batch Prod.fst els
      match s.joinQueue e.1 (.store s.core.id c.cnum.toNat c.inc.toNat (b.map (·.2))) with
      | none => (s, k)
      | some s1 => State.post s1 c fuel (els.drop b.length) (k + b.length)

/-- The elements not posted yet are: whether all of them are now; the sender waits while a queue is full (R180). -/
def State.postFar (s : State) (els : List (Nat × SlotStore)) : State × Bool :=
  let f := s.core.run.flightOr []
  if els.length ≤ f.done then (s, true)
  else
    let r := s.post s.core.run els.length (els.drop f.done) f.done
    (r.1.setFlight { f with done := r.2, held := f.held || decide (0 < r.2) }, decide (els.length ≤ r.2))

/-- A store that has been handed over with its translations, of coroutine `c`, is performed: the state, and the cause with which
its destination refuses it, if it does. None where it must wait (R227, R418). -/
def State.performSent (s : State) (c : Coro) (iss : Issuer) (h : HeldStore) : Option (Option Cause × State) :=
  let els := s.farStores h.va h.idx h.insn h.member h.data h.parts
  let r := s.post c els.length els 0
  if r.2 < els.length then none
  else match r.1.writeParts iss h.data h.parts with
    | .error _ => none
    | .ok x => some x

/-- The deferred failure of such a store. -/
def HeldStore.failure (h : HeldStore) (c : Cause) : Deferred := ⟨c, h.idx, h.va, h.insn, h.member, true, none⟩

/-- The pages whose translations an access of `n` bytes at `a` uses (R40). -/
def State.pagesOf (s : State) (acc : Access) (a : Word) (n : Nat) : List TlbEntry :=
  (partsOf a n).filterMap (fun p =>
    let va := p.1.toNat % 2 ^ 56
    if isNear p.1 then none
    else match s.leafFor s.me acc va with
      | .error _ => none
      | .ok (leaf, level) => some ⟨s.core.run.asid.toNat, bitAt leaf 6, va / leafBytes level * leafBytes level, level, leaf⟩)

/-! ## Acquire and release (R104, R105, R114, R116) -/

/-- What a release, or a fence, of a scope does before what follows it: none while a store of the coroutine is still to be
applied at another core's message slot, and otherwise, at `.clus` or wider, the L1's dirty words are registered. -/
def State.release (s : State) (scope : Nat) : Option State :=
  if s.posted then none else some (if 2 ≤ scope then s.registerCore s.core.id else s)

/-- What follows a release of a scope, once it need not wait; without a scope there is none. -/
def State.released (s : State) (scope : Option Nat) (f : State → State) : State :=
  match scope with
  | none => f s
  | some k => match s.release k with
    | none => s
    | some s1 => f s1

/-- What a release of a scope leaves of its own write: it is performed at that scope too (R104, R113). -/
def State.performed (s : State) (scope : Option Nat) : State :=
  match scope with
  | none => s
  | some k => if 2 ≤ k then s.registerCore s.core.id else s

/-! ## Loads, atomics and stores -/

/-- `n` bytes loaded at `a` (R277). -/
def State.load (s : State) (who : Who) (iss : Issuer) (scalar : Bool) (a : Word) (n : Nat) : Done (List Byte) :=
  match s.translateAccess who .read scalar a n with
  | .error c => .cause c s
  | .ok ps => match s.ask [] (s.farReads none ps) with
    | some s1 => .wait s1
    | none => match s.readParts iss ps with
      | .error .wait => .wait s
      | .error (.cause c s1) => .cause c s1
      | .ok (bs, s1) => .ok bs s1

/-- An aligned atomic of `n` bytes at `a`, within one part: `f` gives the bytes to write, or none (R288). -/
def State.atomicDo (s : State) (iss : Issuer) (x : Xlat) (n : Nat) (f : Nat → Option Nat) : Done Nat :=
  match s.partDo iss x n true true (fun old => (f (leNat old)).map (leBytes n)) with
  | .error .wait => .wait s
  | .error (.cause c s1) => .cause c s1
  | .ok (old, s1) => .ok (leNat old) s1

/-- A scalar store of bytes at `a`, translated to `ps`, by the coroutine (R277, R418). -/
def State.store (s : State) (iss : Issuer) (a : Word) (bs : List Byte) (ps : List (Xlat × Nat)) : Done Unit :=
  match s.postFar (s.farStores a 0 s.core.insn s.core.run.member bs ps) with
  | (s1, false) => .wait s1
  | (s1, true) => match s1.writeParts iss bs ps with
    | .error .wait => .wait s1
    | .error (.cause c s2) => .cause c s2
    | .ok (none, s2) => .ok () s2
    | .ok (some c, s2) => .ok () (s2.deferFailure ⟨c, 0, a, s.core.insn, s.core.run.member, true, none⟩)

/-- A store by an agent that is not a core (R417): a failure, or a wait, is the caller's to handle. -/
def State.storeAs (s : State) (who : Who) (iss : Issuer) (a : Word) (bs : List Byte) : Except Stop State :=
  match s.translateAccess who .write true a bs.length with
  | .error c => .error (.cause c s)
  | .ok ps => match s.writeParts iss bs ps with
    | .error e => .error e
    | .ok (none, s1) => .ok s1
    | .ok (some c, s1) => .error (.cause c s1)

/-- A load by such an agent. -/
def State.loadAs (s : State) (who : Who) (iss : Issuer) (a : Word) (n : Nat) : Except Stop (List Byte × State) :=
  match s.load who iss true a n with
  | .ok bs s1 => .ok (bs, s1)
  | .cause c s1 => .error (.cause c s1)
  | .wait _ => .error .wait

end Sys2Proof.Machine
end

