-- ==== Sys2Proof/Machine/Fp.lean ====
section
/-! DEFINITION. Floating-point formats and arithmetic (spec/07_arithmetic.md): every operation computes its exact
result and rounds it once (R186); a finite number is held exactly as a signed mantissa and a power of two. -/

namespace Sys2Proof.Machine

/-- A floating-point format (R184, Table 2). `sat` marks E4M3 and E5M2, whose conversions saturate (R186);
`noInf` marks E4M3, whose top exponent holds ordinary values. -/
structure Fmt where
  ebits : Nat
  mbits : Nat
  bias  : Nat
  sat   : Bool
  noInf : Bool
  deriving DecidableEq, Repr

def Fmt.f64 : Fmt := ⟨11, 52, 1023, false, false⟩
def Fmt.f32 : Fmt := ⟨8, 23, 127, false, false⟩
def Fmt.f16 : Fmt := ⟨5, 10, 15, false, false⟩
def Fmt.bf16 : Fmt := ⟨8, 7, 127, false, false⟩
def Fmt.e4m3 : Fmt := ⟨4, 3, 7, true, true⟩
def Fmt.e5m2 : Fmt := ⟨5, 2, 15, true, false⟩

/-- Width of a format's codes in bits. -/
def Fmt.width (f : Fmt) : Nat := 1 + f.ebits + f.mbits

/-- The value of a code (R184, R185): a NaN (signalling or not), an infinity, or `± m × 2 ^ e`. -/
inductive FVal where
  | nan (sig : Bool)
  | inf (neg : Bool)
  | fin (neg : Bool) (m : Nat) (e : Int)
  deriving DecidableEq, Repr

/-- The value of a code of format `f` (R184, R185). -/
def Fmt.decode (f : Fmt) (x : Nat) : FVal :=
  let frac := x % 2 ^ f.mbits
  let ex := x / 2 ^ f.mbits % 2 ^ f.ebits
  let neg := bitAt x (f.ebits + f.mbits)
  if f.noInf && ex == 2 ^ f.ebits - 1 && frac == 2 ^ f.mbits - 1 then .nan false
  else if !f.noInf && ex == 2 ^ f.ebits - 1 then
    if frac == 0 then .inf neg
    else .nan (!f.sat && frac < 2 ^ (f.mbits - 1))
  else if ex == 0 then .fin neg frac (1 - (f.bias : Int) - (f.mbits : Int))
  else .fin neg (frac + 2 ^ f.mbits) ((ex : Int) - (f.bias : Int) - (f.mbits : Int))

/-- The canonical NaN of a format (R185, Table 3). -/
def Fmt.nan (f : Fmt) : Nat :=
  if f.noInf then 2 ^ (f.ebits + f.mbits) - 1
  else (2 ^ f.ebits - 1) * 2 ^ f.mbits + 2 ^ (f.mbits - 1)

/-- A code's sign bit. -/
def Fmt.sign (f : Fmt) (neg : Bool) : Nat := if neg then 2 ^ (f.ebits + f.mbits) else 0

/-- The code of the largest finite magnitude (R184). -/
def Fmt.maxFinite (f : Fmt) : Nat :=
  if f.noInf then 2 ^ (f.ebits + f.mbits) - 2 else (2 ^ f.ebits - 1) * 2 ^ f.mbits - 1

/-- The code of infinity, where the format has one. -/
def Fmt.infinity (f : Fmt) : Nat := (2 ^ f.ebits - 1) * 2 ^ f.mbits

/-- Rounding modes (R189, Table 5). -/
inductive Rm where
  | rne | rdn | rtz | rup | rna
  deriving DecidableEq, Repr

/-- The mode an FRM value names (R189); 5 to 7 are never stored. -/
def Rm.ofFrm : Nat → Rm
  | 1 => .rdn
  | 2 => .rtz
  | 3 => .rup
  | 4 => .rna
  | _ => .rne

/-- An arithmetic instruction that reads FRM = 4 rounds to nearest even (R189). -/
def Rm.arith : Rm → Rm
  | .rna => .rne
  | r => r

/-- The flags of FFLAGS (R190, Table 6). -/
abbrev Flags := BitVec 6
def Flags.iv : Flags := 1
def Flags.ov : Flags := 2
def Flags.un : Flags := 4
def Flags.zd : Flags := 8
def Flags.ix : Flags := 16
def Flags.sat : Flags := 32

/-- Whether `n + (rem + sticky) / 2 ^ k` rounds up to `n + 1` (R189): `rem < 2 ^ k`. -/
def roundsUp (rm : Rm) (neg odd : Bool) (rem k : Nat) (sticky : Bool) : Bool :=
  let inexact := rem != 0 || sticky
  let above := 2 * rem > 2 ^ k || (2 * rem == 2 ^ k && sticky)
  let tie := 2 * rem == 2 ^ k && !sticky
  match rm with
  | .rne => above || (tie && odd)
  | .rna => above || tie
  | .rtz => false
  | .rup => inexact && !neg
  | .rdn => inexact && neg

/-- `m × 2 ^ e` as an integer number of units of `2 ^ q`, rounded; the second result says that it is inexact. -/
def roundTo (rm : Rm) (neg : Bool) (m : Nat) (e q : Int) (sticky : Bool) : Nat × Bool :=
  if q ≤ e then (m * 2 ^ (e - q).toNat, sticky)
  else
    let k := (q - e).toNat
    let n := m / 2 ^ k
    let rem := m % 2 ^ k
    (n + bit01 (roundsUp rm neg (n % 2 == 1) rem k sticky), rem != 0 || sticky)

/-- The result of an operation that overflows (R186, IEEE 754-2019 clause 7.4; saturating for E4M3, E5M2). -/
def Fmt.overflow (f : Fmt) (rm : Rm) (neg : Bool) : Nat :=
  f.sign neg +
    (if f.sat then f.maxFinite
     else match rm with
      | .rne | .rna => f.infinity
      | .rtz => f.maxFinite
      | .rup => if neg then f.maxFinite else f.infinity
      | .rdn => if neg then f.infinity else f.maxFinite)

/-- `round(± m × 2 ^ e, f, rm)` (R7, R186): the code and the flags OV, UN and IX (R190). `sticky` says that the
exact magnitude lies strictly between `m × 2 ^ e` and `(m + 1) × 2 ^ e`; callers then give `m` at least two bits
more than the format's precision. A zero keeps the sign it is given. -/
def Fmt.round (f : Fmt) (rm : Rm) (neg : Bool) (m : Nat) (e : Int) (sticky : Bool) : Nat × Flags :=
  if m == 0 && !sticky then (f.sign neg, 0)
  else
    let msb : Int := e + (Nat.log2 m : Nat)
    let emin : Int := 1 - (f.bias : Int)
    let q : Int := max msb emin - (f.mbits : Int)
    let (n, inexact) := roundTo rm neg m e q sticky
    -- tiny after rounding: what an unbounded exponent would give lies below the smallest normal
    let tiny : Bool := decide (msb < emin) &&
      !(decide (msb = emin - 1) && (roundTo rm neg m e (msb - (f.mbits : Int)) sticky).1 == 2 ^ (f.mbits + 1))
    let (n', q') : Nat × Int := if n == 2 ^ (f.mbits + 1) then (2 ^ f.mbits, q + 1) else (n, q)
    let ex : Nat := if n' < 2 ^ f.mbits then 0 else (q' + (f.mbits : Int) + (f.bias : Int)).toNat
    let code : Nat := ex * 2 ^ f.mbits + n' % 2 ^ f.mbits
    if code > f.maxFinite then (f.overflow rm neg, Flags.ov ||| Flags.ix)
    else
      (f.sign neg + code,
        (if inexact then Flags.ix else 0) ||| (if tiny && inexact then Flags.un else 0))

/-- An exact dyadic number `m × 2 ^ e`. -/
abbrev Dy := Int × Int

/-- Exact sum of two dyadic numbers. -/
def dyAdd (x y : Dy) : Dy :=
  let e := min x.2 y.2
  (x.1 * 2 ^ (x.2 - e).toNat + y.1 * 2 ^ (y.2 - e).toNat, e)

/-- Exact product of two dyadic numbers. -/
def dyMul (x y : Dy) : Dy := (x.1 * y.1, x.2 + y.2)

/-- A finite value as a dyadic number. -/
def dyOf (neg : Bool) (m : Nat) (e : Int) : Dy := (if neg then -(m : Int) else (m : Int), e)

/-- An exact dyadic number rounded once; `zneg` is the sign of an exact zero. -/
def Fmt.roundDy (f : Fmt) (rm : Rm) (zneg : Bool) (x : Dy) : Nat × Flags :=
  if x.1 == 0 then (f.sign zneg, 0) else f.round rm (decide (x.1 < 0)) x.1.natAbs x.2 false

/-- IV when an operand is a signalling NaN (R185, R188). -/
def FVal.sigFlag : FVal → Flags
  | .nan true => Flags.iv
  | _ => 0

def FVal.isNan : FVal → Bool
  | .nan _ => true
  | _ => false

/-- Sign of an exact zero sum of nonzero or opposite terms (IEEE 754-2019 clause 6.3). -/
def zeroSumSign (rm : Rm) : Bool := rm == .rdn

/-- Addition (R186). -/
def Fmt.add (f : Fmt) (rm : Rm) (x y : Nat) : Nat × Flags :=
  let vx := f.decode x
  let vy := f.decode y
  match vx, vy with
  | .nan _, _ => (f.nan, vx.sigFlag ||| vy.sigFlag)
  | _, .nan _ => (f.nan, vx.sigFlag ||| vy.sigFlag)
  | .inf a, .inf b => if a == b then (f.sign a + f.infinity, 0) else (f.nan, Flags.iv)
  | .inf a, .fin _ _ _ => (f.sign a + f.infinity, 0)
  | .fin _ _ _, .inf b => (f.sign b + f.infinity, 0)
  | .fin a ma ea, .fin b mb eb =>
    if ma == 0 && mb == 0 then (f.sign (if a == b then a else zeroSumSign rm), 0)
    else f.roundDy rm (zeroSumSign rm) (dyAdd (dyOf a ma ea) (dyOf b mb eb))

/-- The code with its sign bit inverted. -/
def Fmt.negate (f : Fmt) (x : Nat) : Nat :=
  if bitAt x (f.ebits + f.mbits) then x - 2 ^ (f.ebits + f.mbits) else x + 2 ^ (f.ebits + f.mbits)

/-- Subtraction (R186): addition of the operand with its sign inverted, NaNs apart. -/
def Fmt.sub (f : Fmt) (rm : Rm) (x y : Nat) : Nat × Flags := f.add rm x (f.negate y)

/-- Multiplication (R186). -/
def Fmt.mul (f : Fmt) (rm : Rm) (x y : Nat) : Nat × Flags :=
  let vx := f.decode x
  let vy := f.decode y
  match vx, vy with
  | .nan _, _ => (f.nan, vx.sigFlag ||| vy.sigFlag)
  | _, .nan _ => (f.nan, vx.sigFlag ||| vy.sigFlag)
  | .inf a, .inf b => (f.sign (a != b) + f.infinity, 0)
  | .inf a, .fin b m _ => if m == 0 then (f.nan, Flags.iv) else (f.sign (a != b) + f.infinity, 0)
  | .fin a m _, .inf b => if m == 0 then (f.nan, Flags.iv) else (f.sign (a != b) + f.infinity, 0)
  | .fin a ma ea, .fin b mb eb => f.round rm (a != b) (ma * mb) (ea + eb) false

/-- Division (R186, R232): a finite nonzero value by zero gives infinity and ZD. -/
def Fmt.div (f : Fmt) (rm : Rm) (x y : Nat) : Nat × Flags :=
  let vx := f.decode x
  let vy := f.decode y
  match vx, vy with
  | .nan _, _ => (f.nan, vx.sigFlag ||| vy.sigFlag)
  | _, .nan _ => (f.nan, vx.sigFlag ||| vy.sigFlag)
  | .inf _, .inf _ => (f.nan, Flags.iv)
  | .inf a, .fin b _ _ => (f.sign (a != b) + f.infinity, 0)
  | .fin a _ _, .inf b => (f.sign (a != b), 0)
  | .fin a ma ea, .fin b mb eb =>
    if mb == 0 then
      if ma == 0 then (f.nan, Flags.iv) else (f.sign (a != b) + f.infinity, Flags.zd)
    else
      let k := 2 * f.mbits + 8
      f.round rm (a != b) (ma * 2 ^ k / mb) (ea - eb - (k : Int)) (ma * 2 ^ k % mb != 0)

/-- Integer square root, one result bit a step from bit `k - 1` down. -/
def isqrtFrom : Nat → Nat → Nat → Nat
  | 0, _, r => r
  | k + 1, n, r => isqrtFrom k n (if (r + 2 ^ k) * (r + 2 ^ k) ≤ n then r + 2 ^ k else r)

/-- The integer square root of `n`. -/
def isqrt (n : Nat) : Nat := isqrtFrom (Nat.log2 n / 2 + 1) n 0

/-- Square root (R186, R232). -/
def Fmt.sqrt (f : Fmt) (rm : Rm) (x : Nat) : Nat × Flags :=
  let vx := f.decode x
  match vx with
  | .nan _ => (f.nan, vx.sigFlag)
  | .inf neg => if neg then (f.nan, Flags.iv) else (f.infinity, 0)
  | .fin neg m e =>
    if m == 0 then (f.sign neg, 0)
    else if neg then (f.nan, Flags.iv)
    else
      -- an even exponent and enough bits for the result's precision
      let k := 2 * f.mbits + 8
      let (m2, e2) : Nat × Int :=
        if (e - (k : Int)) % 2 == 0 then (m * 2 ^ k, e - (k : Int)) else (m * 2 ^ (k + 1), e - (k : Int) - 1)
      let r := isqrt m2
      f.round rm false r (e2 / 2) (r * r != m2)

/-- Fused multiply-add `x × y + z`, one rounding (R186). -/
def Fmt.fma (f : Fmt) (rm : Rm) (x y z : Nat) : Nat × Flags :=
  let vx := f.decode x
  let vy := f.decode y
  let vz := f.decode z
  let bad : Bool := match vx, vy with
    | .inf _, .fin _ m _ => m == 0
    | .fin _ m _, .inf _ => m == 0
    | _, _ => false
  if vx.isNan || vy.isNan then (f.nan, vx.sigFlag ||| vy.sigFlag ||| vz.sigFlag)
  else if vz.isNan then
    (f.nan, vz.sigFlag ||| (if bad && (vz.sigFlag == 0) then (if Config.fmaNanInvalid then Flags.iv else 0) else 0))
  else if bad then (f.nan, Flags.iv)
  else
    match vx, vy, vz with
    | .fin a ma ea, .fin b mb eb, .fin c mc ec =>
      let pn := a != b
      if ma * mb == 0 && mc == 0 then (f.sign (if pn == c then pn else zeroSumSign rm), 0)
      else f.roundDy rm (zeroSumSign rm) (dyAdd (dyOf pn (ma * mb) (ea + eb)) (dyOf c mc ec))
    | .fin _ _ _, .fin _ _ _, .inf c => (f.sign c + f.infinity, 0)
    | .inf a, .inf b, .inf c => if (a != b) == c then (f.sign c + f.infinity, 0) else (f.nan, Flags.iv)
    | .inf a, .fin b _ _, .inf c => if (a != b) == c then (f.sign c + f.infinity, 0) else (f.nan, Flags.iv)
    | .fin a _ _, .inf b, .inf c => if (a != b) == c then (f.sign c + f.infinity, 0) else (f.nan, Flags.iv)
    | .inf a, .inf b, _ => (f.sign (a != b) + f.infinity, 0)
    | .inf a, .fin b _ _, _ => (f.sign (a != b) + f.infinity, 0)
    | .fin a _ _, .inf b, _ => (f.sign (a != b) + f.infinity, 0)
    | _, _, _ => (f.nan, 0)

/-- The order of two values, none when one is a NaN; zeros are equal. -/
def fcmp : FVal → FVal → Option Ordering
  | .nan _, _ => none
  | _, .nan _ => none
  | .inf a, .inf b => some (if a == b then .eq else if a then .lt else .gt)
  | .inf a, .fin _ _ _ => some (if a then .lt else .gt)
  | .fin _ _ _, .inf b => some (if b then .gt else .lt)
  | .fin a ma ea, .fin b mb eb =>
    let d := (dyAdd (dyOf a ma ea) (dyOf (!b) mb eb)).1
    some (if d < 0 then .lt else if d == 0 then .eq else .gt)

/-- IEEE 754-2019 minimum and maximum (R188): −0 is less than +0, a NaN gives the canonical NaN. -/
def Fmt.minmax (f : Fmt) (isMax : Bool) (x y : Nat) : Nat × Flags :=
  let vx := f.decode x
  let vy := f.decode y
  let fl := vx.sigFlag ||| vy.sigFlag
  match fcmp vx vy with
  | none => (f.nan, fl)
  | some .lt => (if isMax then y else x, 0)
  | some .gt => (if isMax then x else y, 0)
  | some .eq =>
    let xn := bitAt x (f.ebits + f.mbits)
    (if isMax then (if xn then y else x) else (if xn then x else y), 0)

/-- Comparisons (R188): 0 equal, 1 less, 2 less or equal; equality sets IV for a signalling NaN only. -/
def Fmt.compare (f : Fmt) (cc : Nat) (x y : Nat) : Bool × Flags :=
  let vx := f.decode x
  let vy := f.decode y
  match fcmp vx vy with
  | none => (false, if cc == 0 then vx.sigFlag ||| vy.sigFlag else Flags.iv)
  | some o => (match cc, o with
    | 0, .eq => true
    | 1, .lt => true
    | 2, .lt => true
    | 2, .eq => true
    | _, _ => false, 0)

/-- Floating point to floating point (R186): one rounding, saturating to E4M3 and E5M2. -/
def Fmt.toFmt (f t : Fmt) (rm : Rm) (x : Nat) : Nat × Flags :=
  match f.decode x with
  | .nan sig => (t.nan, if sig then Flags.iv else 0)
  | .inf neg => if t.noInf then (t.sign neg + t.maxFinite, Flags.iv) else (t.sign neg + t.infinity, 0)
  | .fin neg m e => t.round rm neg m e false

/-- Integer to floating point (R187). -/
def Fmt.ofInt (t : Fmt) (rm : Rm) (i : Int) : Nat × Flags := t.roundDy rm false (i, 0)

/-- Floating point to an integer of `w` bits (R187): rounds with the mode, saturates with IV, a NaN gives 0. -/
def Fmt.toInt (f : Fmt) (rm : Rm) (w : Nat) (signed : Bool) (x : Nat) : Nat × Flags :=
  let lo : Int := if signed then -(2 ^ (w - 1) : Nat) else 0
  let hi : Int := if signed then (2 ^ (w - 1) : Nat) - 1 else (2 ^ w : Nat) - 1
  match f.decode x with
  | .nan _ => (0, Flags.iv)
  | .inf neg => (wrap w (if neg then lo else hi), Flags.iv)
  | .fin neg m e =>
    let (n, inexact) := roundTo rm neg m e 0 false
    let i : Int := if neg then -(n : Int) else (n : Int)
    if i < lo then (wrap w lo, Flags.iv)
    else if hi < i then (wrap w hi, Flags.iv)
    else (wrap w i, if inexact then Flags.ix else 0)

/-- The kind word of `vfkind` (R263, Table 4a). -/
def Fmt.kindWord (f : Fmt) (x : Nat) : Nat :=
  let k := match f.decode x with
    | .nan sig => if sig then 5 else 4
    | .inf _ => 3
    | .fin _ m _ => if m == 0 then 0 else if x / 2 ^ f.mbits % 2 ^ f.ebits == 0 then 1 else 2
  k + 8 * bit01 (bitAt x (f.ebits + f.mbits))

/-! Special functions (R264): the two FP32 neighbours of the exact value by integer arithmetic; which of them an
inexact result takes is the free value `Config.specialUp`. -/

/-- Working precision, in fraction bits, of the special functions' integer arithmetic. -/
def sfBits : Nat := 160

/-- `2 ^ (1 / 2 ^ k)` for `k = 1, 2, …, n`, with `sfBits` fraction bits, each the square root of the one before. -/
def exp2Table : Nat → Nat → List Nat
  | 0, _ => []
  | n + 1, prev => let r := isqrt (prev * 2 ^ sfBits); r :: exp2Table n r

/-- `2 ^ x` for a fraction whose bits, most significant first, are those of `frac` below bit `n`. -/
def exp2Frac : List Nat → Nat → Nat → Nat → Nat
  | [], _, _, acc => acc
  | t :: ts, n, frac, acc =>
    exp2Frac ts (n - 1) frac (if bitAt frac (n - 1) then acc * t / 2 ^ sfBits else acc)

/-- The fraction bits of log₂ of a mantissa `y` in [1, 2) with `sfBits` fraction bits, by repeated squaring. -/
def log2Bits : Nat → Nat → Nat → Nat
  | 0, _, acc => acc
  | n + 1, y, acc =>
    let y2 := y * y / 2 ^ sfBits
    if y2 ≥ 2 ^ (sfBits + 1) then log2Bits n (y2 / 2) (2 * acc + 1) else log2Bits n y2 (2 * acc)

/-- A neighbour chosen by the free value: `lo` is the magnitude code toward zero of the inexact exact value. -/
def sfPick (minor x : Nat) (neg : Bool) (m : Nat) (e : Int) : Nat × Flags :=
  let f := Fmt.f32
  let (lo, _) := f.round .rtz neg m e true
  let mag := lo % 2 ^ 31
  let r := if Config.specialUp minor x && mag < f.infinity then mag + 1 else mag
  let tiny := decide (mag < 2 ^ 23)
  (f.sign neg + r,
    Flags.ix ||| (if tiny then Flags.un else 0) ||| (if r == f.infinity then Flags.ov else 0))

/-- `vexp2` of one element (R264, Table 5). -/
def sfExp2 (x : Nat) : Nat × Flags :=
  let f := Fmt.f32
  match f.decode x with
  | .nan sig => (f.nan, if sig then Flags.iv else 0)
  | .inf neg => (if neg then 0 else f.infinity, 0)
  | .fin neg m e =>
    if m == 0 then (0x3F800000, 0)
    else
      let d := dyOf neg m e
      -- x ≥ 128, x < −150, and the values between
      if 0 ≤ (dyAdd d (-128, 0)).1 then (f.infinity, Flags.ov ||| Flags.ix)
      else if (dyAdd d (150, 0)).1 < 0 then (0, Flags.un ||| Flags.ix)
      else if 0 ≤ e then f.round .rne false 1 (d.1 * 2 ^ e.toNat) false
      else
        -- x = n + frac / 2 ^ k with 0 ≤ frac < 2 ^ k
        let k := (-e).toNat
        let n := d.1 / (2 ^ k : Nat)
        let frac := (d.1 % (2 ^ k : Nat)).toNat
        if frac == 0 then
          -- an integer from −149 to 127 is exact; −150 is halfway below the smallest subnormal
          if n < -149 then sfPick 0 x false 1 n else f.round .rne false 1 n false
        else
          let y := exp2Frac (exp2Table k (2 ^ (sfBits + 1))) k frac (2 ^ sfBits)
          sfPick 0 x false y (n - (sfBits : Int))

/-- `vlog2` of one element (R264, Table 5). -/
def sfLog2 (x : Nat) : Nat × Flags :=
  let f := Fmt.f32
  match f.decode x with
  | .nan sig => (f.nan, if sig then Flags.iv else 0)
  | .inf neg => if neg then (f.nan, Flags.iv) else (f.infinity, 0)
  | .fin neg m e =>
    if m == 0 then (f.sign true + f.infinity, Flags.zd)
    else if neg then (f.nan, Flags.iv)
    else
      let k := Nat.log2 m
      let n : Int := e + (k : Int)
      if m == 2 ^ k then f.ofInt .rne n
      else
        -- log₂ = n + fr / 2 ^ 128 with 0 < fr < 2 ^ 128
        let fr := log2Bits 128 (m * 2 ^ (sfBits - k)) 0
        let v : Int := n * (2 ^ 128 : Nat) + (fr : Int)
        -- toward zero: below zero the exact value lies above v
        if v < 0 then sfPick 1 x true (v.natAbs - 1) (-128) else sfPick 1 x false v.natAbs (-128)

/-- `vrsqrt` of one element (R264, Table 5). -/
def sfRsqrt (x : Nat) : Nat × Flags :=
  let f := Fmt.f32
  match f.decode x with
  | .nan sig => (f.nan, if sig then Flags.iv else 0)
  | .inf neg => if neg then (f.nan, Flags.iv) else (0, 0)
  | .fin neg m e =>
    if m == 0 then (f.sign neg + f.infinity, Flags.zd)
    else if neg then (f.nan, Flags.iv)
    else
      -- m × 2 ^ e with e even
      let (m2, e2) : Nat × Int := if e % 2 == 0 then (m, e) else (2 * m, e - 1)
      -- 1 / √m2 = √(2 ^ 160 / m2) / 2 ^ 80
      let q := 2 ^ 160 / m2
      let r := isqrt q
      if m2 * (r * r) == 2 ^ 160 then f.round .rne false r (-80 - e2 / 2) false
      else sfPick 2 x false r (-80 - e2 / 2)

/-- `vrcp` of one element (R264, Table 5). -/
def sfRcp (x : Nat) : Nat × Flags :=
  let f := Fmt.f32
  match f.decode x with
  | .nan sig => (f.nan, if sig then Flags.iv else 0)
  | .inf neg => (f.sign neg, 0)
  | .fin neg m e =>
    if m == 0 then (f.sign neg + f.infinity, Flags.zd)
    else if (m : Int) * 2 ^ (e + 149).toNat < 2 ^ 21 then (f.sign neg + f.infinity, Flags.ov ||| Flags.ix)
    else if 2 ^ 80 % m == 0 && (Nat.log2 m : Int) + e ≠ -128 then
      f.round .rne neg (2 ^ 80 / m) (-80 - e) false
    else sfPick 3 x neg (2 ^ 80 / m) (-80 - e)

end Sys2Proof.Machine
end

