-- ==== Sys2Proof/Machine/Flags.lean ====
section
/-! DEFINITION. Rounding modes and exception flags of the running coroutine (spec/07_arithmetic.md R189 to R191). -/

namespace Sys2Proof.Machine

/-- The mode of FRM for conversions, and for arithmetic, where RNA rounds to nearest even (R189). -/
def Coro.convRm (c : Coro) : Rm := Rm.ofFrm c.frm.toNat
def Coro.arithRm (c : Coro) : Rm := (Rm.ofFrm c.frm.toNat).arith

/-- Flags that an instruction sets stay until software clears them (R190). -/
def Coro.orFlags (c : Coro) (f : Flags) : Coro := { c with fflags := c.fflags ||| f }

/-- A result and its flags: the register is written, the flags are set, and the program counter advances (R225). -/
def State.finishFp (s : State) (d : Fin 32) (r : Nat × Flags) : State :=
  (((s.setS d (w64 r.1)).modRun (·.orFlags r.2))).advance

/-- A floating-point compare: the guards are written as `cmp` writes them, and the flags are set (R233). -/
def State.finishFcmp (s : State) (d : Fin 64) (r : Bool × Flags) : State :=
  ((s.setGPair d r.1).modRun (·.orFlags r.2)).advance

end Sys2Proof.Machine
end

