-- ==== Sys2Proof/Machine/Operands.lean ====
section
/-! DEFINITION. Operand forms: effective addresses and immediates (spec/08_encoding.md R207), values that loads
extend, register pairs, the elements of vector registers and the bits of masks over a tile (spec/06 R159). -/

namespace Sys2Proof.Machine

/-! ## Immediates and addresses (R207, R276, R278, R279) -/

/-- A base register plus a signed immediate in units of the access size. -/
def State.addr (s : State) {n : Nat} (a : Fin 32) (i : BitVec n) (size : Nat) : Word :=
  s.getS a + BitVec.ofInt 64 (i.toInt * size)

/-- A base register plus imm2, in units of 32 bytes (R278). -/
def State.addr32 (s : State) (a : Fin 32) (i : BitVec 2) : Word := s.getS a + w64 (i.toNat * 32)

/-- The target of a branch: words counted from the branch itself (R201, R235). -/
def State.target (s : State) {n : Nat} (i : BitVec n) : Word := s.core.run.pc + BitVec.ofInt 64 (i.toInt * 4)

/-- Bytes of a width code (R205). -/
def widthOf (w : Fin 4) : Nat := 2 ^ w.val

/-! ## Types (R214, Table 9 of spec/08_encoding.md) -/

/-- Bytes of an element of a type code; `.mxf4` counts as one (R160). -/
def typeBytes (t : Nat) : Nat :=
  match t with
  | 0 => 1
  | 1 => 2
  | 2 => 4
  | 3 => 8
  | 4 => 1
  | 5 => 2
  | 6 => 4
  | 7 => 8
  | 8 => 2
  | 9 => 2
  | 10 => 4
  | 11 => 8
  | _ => 1

/-- Whether a type is two's complement, and whether it is an integer type. -/
def typeSigned (t : Nat) : Bool := 4 ≤ t && t < 8
def typeInt (t : Nat) : Bool := t < 8

/-- The format of a floating-point type code, 8 to 13. -/
def typeFmt (t : Nat) : Fmt :=
  match t with
  | 8 => .f16
  | 9 => .bf16
  | 10 => .f32
  | 11 => .f64
  | 12 => .e4m3
  | _ => .e5m2

/-- The running type of a coroutine. -/
def Coro.ty (c : Coro) : Nat := c.vtype.toNat

/-- Reduced service, or none yet (R413): SVC is 0 or 1, or 3 before memory and fabric are trained (R416, log 72). -/
def SysRegs.reduced (y : SysRegs) : Bool := y.svc.toNat < 2 || (y.svc == 3 && !(y.memtr && y.fabtr))

/-- Whether a type may stand in a floating-point instruction, a conversion or a scan: in reduced service only FP32
and the integers (R413). -/
def State.serviceType (s : State) (t : Nat) : Bool := !s.sys.reduced || typeInt t || t == 10
def Coro.tyBytes (c : Coro) : Nat := typeBytes c.vtype.toNat

/-! ## Elements and mask bits (R159) -/

/-- Byte of a register at which row `r` begins. -/
def Coro.rowByte (c : Coro) (r : Nat) : Nat := r * c.gpr * 128

/-- Element (r, e), of `w` bytes, of register `v`. -/
def Coro.elem (c : Coro) (v : Fin 64) (w r e : Nat) : Nat := VReg.get c.v[v] (c.rowByte r + e * w) w
def Coro.putElem (c : Coro) (v : Fin 64) (w r e x : Nat) : Coro :=
  { c with v := c.v.set v (VReg.put c.v[v] (c.rowByte r + e * w) w x) }

/-- Bit of a mask that governs element (r, e). -/
def Coro.maskPos (c : Coro) (r e : Nat) : Nat := r * (c.gpr * 128 / c.wb) + e

/-- Whether a mask has a bit for element (r, e): it holds VLMAX bits (R159). -/
def Coro.inMask (c : Coro) (lanes r e : Nat) : Bool := decide (c.maskPos r e < c.vlmax lanes)

/-- The bit of (r, e) in mask `i`; m7 is all ones (R156). -/
def Coro.maskBit (c : Coro) (i : Fin 8) (r e : Nat) : Bool :=
  if h : i.val < 7 then (c.m[i.val]).getLsbD (c.maskPos r e) else true

/-- One bit of a mask written; m7 never is. -/
def Mask.put (x : Mask) (i : Nat) (b : Bool) : Mask :=
  (x &&& ~~~ (1#8192 <<< i)) ||| ((if b then 1#8192 else 0#8192) <<< i)
def Coro.putMask (c : Coro) (i : Fin 8) (r e : Nat) (b : Bool) : Coro :=
  if h : i.val < 7 then { c with m := c.m.set i.val (Mask.put c.m[i.val] (c.maskPos r e) b) } else c

/-- A compare's two masks: the bit and its complement (R258). -/
def Coro.putMaskPair (c : Coro) (d : Fin 64) (r e : Nat) (b : Bool) : Coro :=
  if pairLo d = pairHi d then c.putMask (pairLo d) r e b
  else (c.putMask (pairLo d) r e b).putMask (pairHi d) r e (!b)

/-- Whether element (r, e) of the tile is active under a class V guard (R203). -/
def Coro.active (c : Coro) (g : Guard) (r e : Nat) : Bool := c.maskBit g.idx r e != g.neg

/-- Every element of the tile, in sweep order (R7). -/
def Coro.tile (c : Coro) : List (Nat × Nat) :=
  (List.range c.rc.toNat).flatMap (fun r => (List.range c.vl.toNat).map (fun e => (r, e)))

/-- The VSTART register of the instruction's convoy position (R255). -/
def Coro.vs (c : Coro) : VStart := c.vstart[c.pos]
def Coro.setVs (c : Coro) (r e : Nat) : Coro :=
  { c with vstart := c.vstart.set c.pos ⟨BitVec.ofNat 8 r, BitVec.ofNat 14 e⟩ }

/-- Whether (r, e) lies at or after the VSTART position (R255). -/
def Coro.notBefore (c : Coro) (p : Nat × Nat) : Bool :=
  decide (c.vs.row.toNat < p.1) || (p.1 == c.vs.row.toNat && decide (c.vs.elem.toNat ≤ p.2))

/-- The elements that an instruction still has to process. -/
def Coro.todo (c : Coro) : List (Nat × Nat) := c.tile.filter c.notBefore

end Sys2Proof.Machine
end

