-- ==== Sys2Proof/Machine/BatonUnit.lean ====
section
/-! DEFINITION. The baton instructions and barrier arrival (spec/05_batons_relay.md R128 to R143, spec/11 R293, R295):
major 0x2D and major 0x2C minor 1. -/

namespace Sys2Proof.Machine

/-! ## Rights (R130, R132, Table 3) -/

/-- Rights of an owner: the baton's ASID, or privilege. -/
def ownRight (c : Coro) (b : Baton) : Bool := c.asid == b.owner || c.priv

/-- Rights to signal: an owner's, or OPEN. -/
def signalRight (c : Coro) (b : Baton) : Bool := ownRight c b || b.opn

/-- The checks of an operation kept to the owner's rights, in the order of R295. -/
def State.ownCheck (s : State) (h : Word) : Option Cause :=
  if handleModule h != Config.moduleNumber then some .batonNotLocal
  else if !s.liveHere h then some .batonStale
  else if !ownRight s.core.run (s.baton (handleKey h)) then some .batonDenied
  else none

/-- The checks of a signal (R139): a baton of another module of the pod is checked there. -/
def State.signalCheck (s : State) (h : Word) : Option Cause :=
  if handleModule h == Config.moduleNumber then
    if !s.liveHere h then some .batonStale
    else if !signalRight s.core.run (s.baton (handleKey h)) then some .batonDenied
    else none
  else if s.isMember (handleModule h) then none
  else some .batonStale

/-- Those of a barrier arrival, which waits for its baton unit's reply: a handle that no module's unit can find live is refused
as one (R130, R139). -/
def State.arrivalCheck (s : State) (h : Word) : Option Cause :=
  if handleModule h != Config.moduleNumber && (handleIndex h == 0 || h.toNat % 256 != 0) then some .batonStale
  else s.signalCheck h

/-- Whether the check of a completion baton asks another module's baton unit: the handle's own form has passed. -/
def State.asksRemote (s : State) (h : Word) : Bool :=
  handleModule h != Config.moduleNumber && s.isMember (handleModule h) && handleIndex h != 0 && h.toNat % 256 == 0

/-- The check of a handle named as a completion baton, made at issue; 0 names none. What another module's unit answers is a
free value (R130, R132, R146, log 26). -/
def State.completionCheck (s : State) (h : Word) : Option Cause :=
  if h = 0 then none
  else if s.asksRemote h then
    if Config.remoteCheck s.fresh = 0 then none
    else some (if Config.remoteCheck s.fresh = 1 then .batonStale else .batonDenied)
  else if handleModule h == Config.moduleNumber then s.signalCheck h
  else some .batonStale

/-- The state once that unit has answered. -/
def State.asked (s : State) (h : Word) : State := if s.asksRemote h then { s with fresh := s.fresh + 1 } else s

/-- The operation, or the cause of a check. -/
def State.checked (s : State) (c : Option Cause) (f : State → State) : State :=
  match c with
  | some x => s.raise x
  | none => f s

/-- The operation, or the cause of its completion baton's check. -/
def State.checkedDone (s : State) (h : Word) (f : State → State) : State :=
  (s.asked h).checked (s.completionCheck h) f

/-! ## bnew and bfree (R131, R133) -/

/-- Whether `bnew` accepts its flags for a coroutine that holds `tags` collective tags. -/
def flagsGood (f : Word) (tags : Nat) : Bool :=
  bits f.toNat 63 40 == 0 && bits f.toNat 15 11 == 0 && bits f.toNat 10 6 ≤ 24 && !(f.getLsbD 4 && 4 ≤ tags)

/-- The first free record of a die from index `i` on, among `n` records. -/
def State.freeRecord (s : State) (die : Nat) : Nat → Nat → Option Nat
  | 0, _ => none
  | n + 1, i =>
    if (s.baton (die * 2 ^ 18 + i)).live then State.freeRecord s die n (if i = 262143 then 1 else i + 1)
    else some i

/-- Live records of a die. -/
def State.liveRecords (s : State) (die : Nat) : Nat :=
  (s.batons.filter (fun b => b.2.live && b.1 / 2 ^ 18 == die)).length

/-- The new record: COUNT and ERR zero, the flags, the owner and, for a collective, its creator. -/
def newBaton (b : Baton) (f : Word) (c : Coro) (core : Nat) : Baton :=
  let cl := f.getLsbD 4
  { b with
    live := true
    count := 0
    err := 0
    scope := Fin.ofNat 8 f.toNat
    opn := f.getLsbD 3
    cl := cl
    bar := f.getLsbD 5
    plog := bits f.toNat 10 6
    group := if cl then f.extractLsb' 16 16 else 0
    cgen := if cl then f.extractLsb' 32 8 else 0
    owner := c.asid
    creator := if cl then some (core, c.cnum.toNat) else none
    holds := 0
    hostSig := false }

/-- Which free record is taken is a free value (log 9). DESIGN CHOICE (log 92): each live collective baton takes one of the four
tags of R154, also one whose GROUP and CGEN another has. -/
def State.bnewOp (s : State) (d : Fin 32) (f : Word) : State :=
  let c := s.core.run
  let die := dieOf s.core.id
  if !flagsGood f c.tags.length then (s.setS d 0x02).advance
  else match s.freeRecord die (min (s.liveRecords die + 1) 262143) (Config.freeBaton s.fresh % 262143 + 1) with
    | none => (s.setS d 0x01).advance
    | some i =>
      let key := die * 2 ^ 18 + i
      let b := newBaton (s.baton key) f c s.core.id
      let s1 := { s.setBaton key b with fresh := s.fresh + 1 }
      let s2 := if b.cl then s1.modRun (fun k => { k with tags := k.tags ++ [(b.group, b.cgen)] }) else s1
      (s2.setS d (handleOf key b.gen.toNat)).advance

/-- Whether some coroutine has a wait armed on `h`. -/
def State.armedOn (s : State) (h : Word) : Bool :=
  s.cores.any (fun c => c.allCoros.any (fun k => (k.armed.map (·.1)) == some h))

/-- A tag leaves its creator's set. -/
def State.leaveTag (s : State) (b : Baton) : State :=
  match b.creator with
  | none => s
  | some (core, cnum) =>
    let drop (k : Coro) : Coro :=
      if k.cnum.toNat == cnum then { k with tags := k.tags.erase (b.group, b.cgen) } else k
    s.mapCores (fun c =>
      if c.id != core then c
      else
        let c1 := { c with coros := c.coros.map drop }
        if c1.liveness == .idle then c1 else c1.modCurrent drop)

/-- The next generation of a record (R130). -/
def nextGen (g : BitVec 24) : BitVec 24 := if g = 0xFFFFFF then 1 else g + 1

def State.bfreeOp (s : State) (d : Fin 32) (h : Word) : State :=
  let b := s.baton (handleKey h)
  if s.armedOn h || b.holds != 0 then (s.setS d 0x03).advance
  else
    let s1 := (s.setBaton (handleKey h) { b with live := false, gen := nextGen b.gen, creator := none }).leaveTag b
    (s1.setS d 0).advance

/-! ## Arming, signalling and querying (R135, R138 to R142) -/

/-- `barm` with an absolute target; `barm.rel` with one relative to COUNT. -/
def State.armOp (s : State) (h : Word) (t : Word) (rel : Bool) : State :=
  let b := s.baton (handleKey h)
  let target : BitVec 32 := if rel then b.count + t.setWidth 32 else t.setWidth 32
  if (if rel then decide (2 ^ 31 ≤ t.toNat) else (target - b.count).toNat == 2 ^ 31) then s.raise .batonArm
  else (s.modRun (fun c => { c with armed := some (h, target) })).advance

/-- A signal sent by a coroutine, after its release (R121, R138, R139). -/
def State.bsigOp (s : State) (h : Word) (amount : Nat) : State :=
  s.checked (s.signalCheck h) (fun s => s.noStrip (fun s => s.released (some (s.batonScope h)) (fun s =>
    (if handleModule h = Config.moduleNumber then s.signalLocal h amount
      else s.sendRemote h (.signal amount)).advance)))

/-- An error signal, with a code from 0x80 to 0xFF (R140). -/
def State.bsigErrOp (s : State) (h : Word) (code : Nat) : State :=
  s.checked (s.signalCheck h) (fun s => s.noStrip (fun s =>
    if code < 0x80 then s.raise .batonArm
    else s.released (some (s.batonScope h)) (fun s =>
      (if handleModule h = Config.moduleNumber then s.errLocal h code
        else s.sendRemote h (.err code)).advance)))

/-- The result word of `bqry` (Table 8). -/
def bqryWord (b : Baton) : Word :=
  w64 (b.plog * 2 ^ 42 + bit01 b.bar * 2 ^ 41 + bit01 b.cl * 2 ^ 40 + b.err.toNat * 2 ^ 32 + b.count.toNat)

/-- The target that an arrival of `n` on `b` returns (R142). -/
def arrivalTarget (b : Baton) (n : Nat) : BitVec 32 :=
  if b.bar then BitVec.ofNat 32 (b.count.toNat - b.count.toNat % 2 ^ b.plog + 2 ^ b.plog)
  else b.count + BitVec.ofNat 32 n

/-- The population count of the active elements of the tile, among the VLMAX that a mask has bits for (R142, R159). -/
def Coro.population (c : Coro) (lanes : Nat) (g : Guard) : Nat :=
  (c.tile.filter (fun p => c.inMask lanes p.1 p.2 && c.active g p.1 p.2)).length

/-- The arrival of `barv`, after its release; another module's reply is a free value (log 19). -/
def State.barvOp (s : State) (d : Fin 32) (h : Word) (n : Nat) : State :=
  s.checked (s.arrivalCheck h) (fun s => s.noStrip (fun s => s.released (some (s.batonScope h)) (fun s =>
    if handleModule h = Config.moduleNumber then
      let t := arrivalTarget (s.baton (handleKey h)) n
      ((s.signalLocal h n).setS d (t.setWidth 64)).advance
    else
      let r := Config.remoteArrival s.fresh
      let s1 := { s.sendRemote h (.arrive n) with fresh := s.fresh + 1 }
      if r.1 = 1 then s1.raise .batonStale
      else if r.1 = 2 then s1.raise .batonDenied
      else (s1.setS d (r.2.setWidth 64)).advance)))

/-! ## Meanings -/

def execBnew (g : Guard) (d a : Fin 32) (s : State) : Res :=
  .next (s.guarded g (fun s => s.bnewOp d (s.getS a)))

def execBfree (g : Guard) (d a : Fin 32) (s : State) : Res :=
  .next (s.guarded g (fun s => s.checked (s.ownCheck (s.getS a)) (fun s => s.bfreeOp d (s.getS a))))

/-- The amount is sb[15:0] (Table 6). -/
def execBsig (g : Guard) (a b : Fin 32) (s : State) : Res :=
  .next (s.guarded g (fun s => s.bsigOp (s.getS a) ((s.getS b).toNat % 2 ^ 16)))

/-- The one-operand form signals 1 (R213). -/
def execBsigOneOperand (g : Guard) (a : Fin 32) (s : State) : Res :=
  .next (s.guarded g (fun s => s.bsigOp (s.getS a) 1))

def execBsigErr (g : Guard) (a b : Fin 32) (s : State) : Res :=
  .next (s.guarded g (fun s => s.bsigErrOp (s.getS a) ((s.getS b).toNat % 2 ^ 8)))

/-- An acquire at the baton's scope (R122, R141). -/
def execBqry (g : Guard) (d a : Fin 32) (s : State) : Res :=
  .next (s.guarded g (fun s => s.checked (s.ownCheck (s.getS a)) (fun s =>
    ((s.setS d (bqryWord (s.baton (handleKey (s.getS a))))).acquire (s.batonScope (s.getS a))).advance)))

def execBarm (g : Guard) (a b : Fin 32) (s : State) : Res :=
  .next (s.guarded g (fun s => s.checked (s.ownCheck (s.getS a)) (fun s => s.armOp (s.getS a) (s.getS b) false)))

def execBarmRel (g : Guard) (a b : Fin 32) (s : State) : Res :=
  .next (s.guarded g (fun s => s.checked (s.ownCheck (s.getS a)) (fun s => s.armOp (s.getS a) (s.getS b) true)))

/-- `barv` is class V: its guard names a mask, and it is never disabled (R293). -/
def execBarv (g : Guard) (d a : Fin 32) (s : State) : Res :=
  .next (s.barvOp d (s.getS a) (s.core.run.population s.core.lanes g))

end Sys2Proof.Machine
end

