-- ==== Sys2Proof/Machine/MemSystem.lean ====
section
/-! DEFINITION. The memory system's own steps (spec/02_memory_hierarchy.md R56 to R66, spec/01 R30, R37): requests at
home slices, bank conflicts, writes of HDCFG and MCTL, hash-version migration, walks, and other register writes. -/

namespace Sys2Proof.Machine

/-! ## Walks (R30, R37) -/

/-- `x` joins a list of which at most `n` that `p` selects may stay; the oldest of those makes room (log 25). -/
def joinCapped {α : Type} [DecidableEq α] (p : α → Bool) (n : Nat) (x : α) (l : List α) : List α :=
  let mine := l.filter p
  match mine[n - 1]? with
  | none => x :: l
  | some old => x :: l.erase old

/-- The entry that a walk gives a translation cache. -/
def tlbOf (asid va leaf level : Nat) : TlbEntry :=
  ⟨asid, bitAt leaf 6, va / leafBytes level * leafBytes level, level, leaf⟩

/-- The fetch cache of 32 entries takes what the core's cache holds for an address, where its leaf has X = 1 (R48). -/
def Core.refillFetch (c : Core) (asid va : Nat) : Core :=
  if c.fetchTlb.any (·.covers asid va) then c
  else match c.tlb.find? (·.covers asid va) with
    | none => c
    | some e => if bitAt e.leaf 4 then { c with fetchTlb := joinCapped (fun _ => true) 32 e c.fetchTlb } else c

/-- A translation joins a core's cache of 256 entries, which the fetch cache refills from (Table 12, R48). -/
def Core.cacheWalk (c : Core) (asid va leaf level : Nat) : Core :=
  let e := tlbOf asid va leaf level
  ({ c with tlb := if c.tlb.any (·.covers asid va) then c.tlb else joinCapped (fun _ => true) 256 e c.tlb }).refillFetch
    asid va

/-- The pointer entries that a walk from a table of level `n` passes: their levels, and where the next tables lie. -/
def State.pointersFrom (s : State) (va table : Nat) : Nat → List (Nat × Nat)
  | 0 => []
  | n + 1 => match s.tableEntry table (n + 1) va with
    | .error _ => []
    | .ok e =>
      if bitAt e 0 && !bitAt e 1 && pointerFormed e then
        (n + 1, bits e 51 13 * 2 ^ 13) :: State.pointersFrom s va (bits e 51 13 * 2 ^ 13) n
      else []

/-- The pointer entries of a walk join the die's walk cache of 4,096 entries, and the ASID-table entry its cache of 256. An
entry that differs from the one held takes its place, and what was walked from the old one leaves (R33, Table 12, R48). -/
def Caches.cachePath (c : Caches) (die asid va entry : Nat) (path : List (Nat × Nat)) : Caches :=
  let stale := c.asids.any (fun e => e.1 == die && e.2.1 == asid && e.2.2 != entry)
  let old := if stale then c.walks.filter (fun w => !(w.die == die && w.asid == asid)) else c.walks
  let walks := path.foldl (fun ws p =>
    let w : WalkEntry := ⟨die, asid, p.1, va / leafBytes p.1, p.2⟩
    if ws.contains w then ws else joinCapped (fun x : WalkEntry => x.die == die) 4096 w ws) old
  let asids := if stale then c.asids.filter (fun e => !(e.1 == die && e.2.1 == asid)) else c.asids
  { c with
    walks := walks
    asids := if asids.any (fun e => e.1 == die && e.2.1 == asid) then asids
      else joinCapped (fun e : Nat × Nat × Nat => e.1 == die) 256 (die, asid, entry) asids }

/-- Whether a leaf passes checks 6 to 13 for an access of one of these kinds: only then is it held (R37). -/
def State.holdable (s : State) (who : Who) (accs : List Access) (leaf level va : Nat) : Bool :=
  accs.any (fun acc => match s.checkLeaf who acc true leaf level va with
    | .ok _ => true
    | .error _ => false)

/-- The walk for an access of one of these kinds at one address: what it found is cached, if it succeeded (R37, R48). -/
def State.walkFor (s : State) (asid : Nat) (accs : List Access) (a : Word) : State :=
  let va := a.toNat % 2 ^ 56
  let die := dieOf s.core.id
  let who : Who := { asid := BitVec.ofNat 16 asid, priv := s.core.run.priv, core := some s.core.id, slot := s.slotOf asid }
  if !canonical a || isNear a then s
  else match s.walk (some die) asid va with
    | .error _ => s
    | .ok (leaf, level) =>
      if !s.holdable who accs leaf level va then s
      else
        let entry := s.asidEntry asid
        let path := s.pointersFrom va (bits entry 51 13 * 2 ^ 13) 3
        { s.modCore (fun c => c.cacheWalk asid va leaf level) with
          caches := s.caches.cachePath die asid va entry path }

/-! ## Requests at home slices (R56, R115) -/

/-- The core that a CORO names (R157). -/
def coreOfCoro (w : Word) : Nat := bits w.toNat 53 50 * 384 + bits w.toNat 49 48 * 96 + bits w.toNat 47 41

/-- What a request does at its home: its line is there, and a write takes the words that other agents have registered
(R56, R115). -/
def State.homeServe (s : State) (r : HomeReq) : State :=
  let store := if r.host then hostStore + r.addr else r.addr
  let s1 := s.allocL2 (dieOfCoro r.coro) store r.addr (if r.host then 0 else r.skew) r.slot false
  if kindWrites r.kind then s1.revoke (fun c => 6 ≤ r.kind || c != coreOfCoro r.coro) store r.len else s1

/-! ## Meanings -/

/-- A walk of a core, for a read, a write or a fetch. -/
def execTranslationWalk (core asid : Nat) (va : Word) (s : State) : Res :=
  .next (s.onCore core (fun s => s.walkFor (asid % 2 ^ 16) [.read, .write, .fetch] va))

/-- A request is logged, counted and served at its home; one that waits for room in the access log is tried again
(R412). -/
def execHomeSliceRequest (r : HomeReq) (s : State) : Res :=
  .next (match s.homeArrive r with
    | some s1 => s1.homeServe r
    | none => s.push (.homeSliceRequest r))

/-- A request at an HBM offset has waited more than 32 clocks behind one ahead of it, to another row of its bank (R63). -/
def execBankConflict (d : BankWait) (s : State) : Res :=
  .next (if Config.hbmBytes ≤ d.off || Config.hbmBytes ≤ d.ahead || (s.hbmSlot d.off).1 != (s.hbmSlot d.ahead).1 ||
      (s.hbmSlot d.off).2 == (s.hbmSlot d.ahead).2 then s
    else s.bankConflictOp (d.off / 2 ^ 30))
def execHdcfgWrite (d : Nat) (value : Word) (s : State) : Res := .next (s.hdcfgOp d value)
def execGranuleMove (d : Nat) (s : State) : Res := .next (s.granuleMoveOp d)
def execMigrationComplete (d : Nat) (s : State) : Res := .next (s.migrationCompleteOp d)
def execMctlWrite (value : Word) (s : State) : Res := .next (s.mctlOp value)

/-- A write of an 8-byte register (R55, R58). -/
def execRegisterWrite (pa : Nat) (value : Word) (s : State) : Res :=
  .next (if Config.regBase ≤ pa && pa % 8 == 0 then s.regWrite false pa value else s)

end Sys2Proof.Machine
end

