-- ==== Sys2Proof/Machine/Pacer.lean ====
section
/-! DEFINITION. The pacer (spec/06_execution_model.md R174 to R177): which Ready coroutine runs next, what its restore
meets, and the pacer's own pre-emption. -/

namespace Sys2Proof.Machine

/-- A coroutine the pacer may select: Ready, with no datum pending (R373). -/
def Coro.selectable (c : Coro) : Bool := c.state == .ready && c.pending.isEmpty

/-- Whether the pacer prefers `a` to `b`: higher effective priority, then least recently run, then lower number
(R174). -/
def preferred (a b : Coro) : Bool :=
  if a.effPrio != b.effPrio then decide (b.effPrio < a.effPrio)
  else if a.lastRun != b.lastRun then decide (a.lastRun < b.lastRun)
  else decide (a.cnum.toNat < b.cnum.toNat)

/-- The coroutine preferred of a list. -/
def bestCoro : List Coro → Option Coro
  | [] => none
  | c :: cs => match bestCoro cs with
    | none => some c
    | some d => some (if preferred d c then d else c)

/-- The choice among some coroutines: the one that the starter placed last comes first (R174, R349). -/
def Core.choice (c : Core) (cs : List Coro) : Option Coro :=
  let ready := cs.filter Coro.selectable
  match ready.find? (fun k => some k.cnum.toNat == c.first) with
  | some k => some k
  | none => bestCoro ready

/-- A decision that selects `cnum`: every other Ready coroutine has been passed over once more (R175). -/
def Core.decided (c : Core) (cnum : BitVec 10) : Core :=
  { c with
    first := none
    coros := c.coros.map (fun k =>
      if k.cnum != cnum && k.state == .ready then { k with passed := k.passed + 1 } else k) }

/-- What the restore of a selected context meets (R161, R358, R370, R373, R418): the cause for which it parks. -/
def State.restoreTrap (s : State) (k : Coro) : Option Trap :=
  if k.badCtx then some { cause := .dataContext, insn := some 0 }
  else match k.deferred with
    | some d => some d.trap
    | none =>
      if k.lostVec && k.hasVec then some { cause := .laneRetired, insn := some 0 }
      else if !s.inSomeObject k.pc then some { cause := .codeObjectGone, insn := some 0 }
      else none

/-- A saved context that has been selected parks where it lies, with its record (R175, R361); a data error discards an open
strip (R376). -/
def State.parkSaved (s : State) (k : Coro) (t0 : Trap) : State :=
  let t := t0.inStrip k.strip
  let k1 := { k with
    state := .parked t.cause
    deferred := none
    strip := t.keeps k.strip
    passed := 0
    since := s.stamp }
  let s1 := s.modCore (fun c => { c with coros := c.coros.map (fun x => if x.cnum == k.cnum then k1 else x) })
  s1.appendRecord (dieOf s.core.id) true (trapRecord s.core.id k1 (t.member.getD 0) (t.insn.getD 0) t)

/-- The scope of the acquire that a resumption is: of a met `await`, that of its baton; of a met `vwait`, `.sys`; of any other,
none (R116, R122, R292). -/
def State.resumeScope (s : State) (k : Coro) : Nat :=
  match k.woken, k.armed with
  | true, some (h, _) => s.batonScope h
  | true, none => 7
  | false, _ => 0

/-- A decision of the core in focus, when no coroutine is in its register files (R174). A core out of service selects
none (R380). A restored context no longer counts as a reference of the object that its program counter lies in (R356). -/
def State.pace (s : State) : State :=
  if s.core.liveness != .idle || !s.core.inService then s
  else match s.core.choice s.core.coros with
    | none => s
    | some k =>
      let s1 := s.modCore (·.decided k.cnum)
      match s1.restoreTrap k with
      | some t => (s1.parkSaved k t).askPacer
      | none => (((s1.restore k).acquire (s1.resumeScope k)).touch k.asid).askUnloads

/-- The pacer pre-empts when another Ready coroutine has E at or above the running one's PRIO (R176). -/
def Core.pacerWants (c : Core) : Bool :=
  match c.current with
  | none => false
  | some r => c.coros.any (fun k => k.selectable && decide (r.prio.toNat ≤ k.effPrio))

/-- A request for pre-emption reaches the core in focus. `cut` names the group, or row, at which each member of the convoy
that its units then work on stops; without it, the coroutine stops before its next instruction. It waits for the message
slot's handler, and for what is not interrupted; members that have completed stop where they are (R275, R372). -/
def State.requestPreempt (s : State) (why : PreemptWhy) (cut : List Nat) (again : Event) : State :=
  if s.core.slot.isSome || s.core.uncut || s.core.drain.isSome then s.push again
  else if s.core.live != .running || (cut.isEmpty && !s.core.run.inMidst) then s.preemptFor why
  else s.modCore (fun c => { c with
    cut := some (cut, why)
    run := match c.run.convoy with
      | none => c.run
      | some v => c.run.stopMembers v.members v.at_ })

end Sys2Proof.Machine
end

