-- ==== Sys2Proof/Syntax.lean ====
section
/-! DEFINITION. The instructions of SIS 3.0 (spec/08_encoding.md Tables 4 to 7) and the device's other steps: one
constructor for each row of spec/opcode_table.json. An encoded instruction carries its operand fields as its word
holds them; a step without an encoding carries what it acts on. -/

namespace Sys2Proof

/-- The instructions and steps, one constructor per row of the opcode table. -/
inductive Instr where
  | nop
  | add (g : Guard) (d a b : Fin 32)
  | sub (g : Guard) (d a b : Fin 32)
  | and (g : Guard) (d a b : Fin 32)
  | or (g : Guard) (d a b : Fin 32)
  | xor (g : Guard) (d a b : Fin 32)
  | sll (g : Guard) (d a b : Fin 32)
  | srl (g : Guard) (d a b : Fin 32)
  | sra (g : Guard) (d a b : Fin 32)
  | mul (g : Guard) (d a b : Fin 32)
  | mulh (g : Guard) (d a b : Fin 32)
  | mulhu (g : Guard) (d a b : Fin 32)
  | div (g : Guard) (d a b : Fin 32)
  | divu (g : Guard) (d a b : Fin 32)
  | rem (g : Guard) (d a b : Fin 32)
  | remu (g : Guard) (d a b : Fin 32)
  | min (g : Guard) (d a b : Fin 32)
  | max (g : Guard) (d a b : Fin 32)
  | minu (g : Guard) (d a b : Fin 32)
  | maxu (g : Guard) (d a b : Fin 32)
  | clz (g : Guard) (d a : Fin 32)
  | ctz (g : Guard) (d a : Fin 32)
  | popc (g : Guard) (d a : Fin 32)
  | rev (g : Guard) (d a : Fin 32)
  | sel (g : Guard) (d a b : Fin 32)
  | bfx (g : Guard) (d a b : Fin 32)
  | bfxs (g : Guard) (d a b : Fin 32)
  | bfi (g : Guard) (d a b : Fin 32)
  | cmpEq (g : Guard) (d : Fin 64) (a b : Fin 32)
  | cmpNe (g : Guard) (d : Fin 64) (a b : Fin 32)
  | cmpLt (g : Guard) (d : Fin 64) (a b : Fin 32)
  | cmpLtu (g : Guard) (d : Fin 64) (a b : Fin 32)
  | cmpLe (g : Guard) (d : Fin 64) (a b : Fin 32)
  | cmpLeu (g : Guard) (d : Fin 64) (a b : Fin 32)
  | gand (g : Guard) (d : Fin 64) (a b : Fin 8)
  | gor (g : Guard) (d : Fin 64) (a b : Fin 8)
  | addi (g : Guard) (d a : Fin 32) (i : BitVec 9)
  | andi (g : Guard) (d a : Fin 32) (u : BitVec 6)
  | ori (g : Guard) (d a : Fin 32) (u : BitVec 6)
  | xori (g : Guard) (d a : Fin 32) (u : BitVec 6)
  | slli (g : Guard) (d a : Fin 32) (u : BitVec 6)
  | srli (g : Guard) (d a : Fin 32) (u : BitVec 6)
  | srai (g : Guard) (d a : Fin 32) (u : BitVec 6)
  | li (g : Guard) (d : Fin 32) (i : BitVec 15)
  | lis (g : Guard) (d : Fin 32) (i : BitVec 15)
  | loop (g : Guard) (k : Fin 4) (i : BitVec 15)
  | faddF64 (g : Guard) (d a b : Fin 32)
  | fsubF64 (g : Guard) (d a b : Fin 32)
  | fmulF64 (g : Guard) (d a b : Fin 32)
  | fdivF64 (g : Guard) (d a b : Fin 32)
  | fminF64 (g : Guard) (d a b : Fin 32)
  | fmaxF64 (g : Guard) (d a b : Fin 32)
  | fmaF64 (g : Guard) (d a b : Fin 32)
  | fsqrtF64 (g : Guard) (d a : Fin 32)
  | faddF32 (g : Guard) (d a b : Fin 32)
  | fsubF32 (g : Guard) (d a b : Fin 32)
  | fmulF32 (g : Guard) (d a b : Fin 32)
  | fdivF32 (g : Guard) (d a b : Fin 32)
  | fminF32 (g : Guard) (d a b : Fin 32)
  | fmaxF32 (g : Guard) (d a b : Fin 32)
  | fmaF32 (g : Guard) (d a b : Fin 32)
  | fsqrtF32 (g : Guard) (d a : Fin 32)
  | fcmpEqF64 (g : Guard) (d : Fin 64) (a b : Fin 32)
  | fcmpLtF64 (g : Guard) (d : Fin 64) (a b : Fin 32)
  | fcmpLeF64 (g : Guard) (d : Fin 64) (a b : Fin 32)
  | fcmpEqF32 (g : Guard) (d : Fin 64) (a b : Fin 32)
  | fcmpLtF32 (g : Guard) (d : Fin 64) (a b : Fin 32)
  | fcmpLeF32 (g : Guard) (d : Fin 64) (a b : Fin 32)
  | fcvt (g : Guard) (d a : Fin 32) (t sc : Fin 8)
  | b (g : Guard) (i : BitVec 21)
  | jal (g : Guard) (i : BitVec 21)
  | jr (g : Guard) (d a : Fin 32)
  | spawn (g : Guard) (d a b : Fin 32)
  | await (g : Guard) (k : Fin 64) (a b : Fin 32)
  | yield (g : Guard) (k : Fin 64) (b : Fin 32)
  | fin (g : Guard)
  | sys (g : Guard) (h l : Fin 64)
  | vadd (g : Guard) (c : Bool) (d a b : Fin 64)
  | vsub (g : Guard) (c : Bool) (d a b : Fin 64)
  | vand (g : Guard) (c : Bool) (d a b : Fin 64)
  | vor (g : Guard) (c : Bool) (d a b : Fin 64)
  | vxor (g : Guard) (c : Bool) (d a b : Fin 64)
  | vsll (g : Guard) (c : Bool) (d a b : Fin 64)
  | vsrl (g : Guard) (c : Bool) (d a b : Fin 64)
  | vsra (g : Guard) (c : Bool) (d a b : Fin 64)
  | vmul (g : Guard) (c : Bool) (d a b : Fin 64)
  | vmulh (g : Guard) (c : Bool) (d a b : Fin 64)
  | vmin (g : Guard) (c : Bool) (d a b : Fin 64)
  | vmax (g : Guard) (c : Bool) (d a b : Fin 64)
  | vminu (g : Guard) (c : Bool) (d a b : Fin 64)
  | vmaxu (g : Guard) (c : Bool) (d a b : Fin 64)
  | vadds (g : Guard) (c : Bool) (d a b : Fin 64)
  | vsubs (g : Guard) (c : Bool) (d a b : Fin 64)
  | vaddScalar (g : Guard) (c : Bool) (d a : Fin 64) (b : Fin 32)
  | vsubScalar (g : Guard) (c : Bool) (d a : Fin 64) (b : Fin 32)
  | vandScalar (g : Guard) (c : Bool) (d a : Fin 64) (b : Fin 32)
  | vorScalar (g : Guard) (c : Bool) (d a : Fin 64) (b : Fin 32)
  | vxorScalar (g : Guard) (c : Bool) (d a : Fin 64) (b : Fin 32)
  | vsllScalar (g : Guard) (c : Bool) (d a : Fin 64) (b : Fin 32)
  | vsrlScalar (g : Guard) (c : Bool) (d a : Fin 64) (b : Fin 32)
  | vsraScalar (g : Guard) (c : Bool) (d a : Fin 64) (b : Fin 32)
  | vmulScalar (g : Guard) (c : Bool) (d a : Fin 64) (b : Fin 32)
  | vmulhScalar (g : Guard) (c : Bool) (d a : Fin 64) (b : Fin 32)
  | vminScalar (g : Guard) (c : Bool) (d a : Fin 64) (b : Fin 32)
  | vmaxScalar (g : Guard) (c : Bool) (d a : Fin 64) (b : Fin 32)
  | vminuScalar (g : Guard) (c : Bool) (d a : Fin 64) (b : Fin 32)
  | vmaxuScalar (g : Guard) (c : Bool) (d a : Fin 64) (b : Fin 32)
  | vaddsScalar (g : Guard) (c : Bool) (d a : Fin 64) (b : Fin 32)
  | vsubsScalar (g : Guard) (c : Bool) (d a : Fin 64) (b : Fin 32)
  | vcmpEq (g : Guard) (c : Bool) (d a b : Fin 64)
  | vcmpNe (g : Guard) (c : Bool) (d a b : Fin 64)
  | vcmpLt (g : Guard) (c : Bool) (d a b : Fin 64)
  | vcmpLtu (g : Guard) (c : Bool) (d a b : Fin 64)
  | vcmpLe (g : Guard) (c : Bool) (d a b : Fin 64)
  | vcmpLeu (g : Guard) (c : Bool) (d a b : Fin 64)
  | vmerge (g : Guard) (c : Bool) (d a b : Fin 64)
  | vslideup (g : Guard) (c : Bool) (d a : Fin 64) (b : Fin 32)
  | vslidedn (g : Guard) (c : Bool) (d a : Fin 64) (b : Fin 32)
  | vcompress (g : Guard) (c : Bool) (d a : Fin 64)
  | viota (g : Guard) (c : Bool) (d : Fin 64)
  | vperm (g : Guard) (c : Bool) (d a b : Fin 64)
  | vbcast (g : Guard) (c : Bool) (d : Fin 64) (a : Fin 32)
  | vext (c : Bool) (d : Fin 32) (a : Fin 64) (b : Fin 32)
  | vmv (g : Guard) (c : Bool) (d a : Fin 64)
  | mand (g : Guard) (c : Bool) (d a b : Fin 8)
  | mor (g : Guard) (c : Bool) (d a b : Fin 8)
  | mxor (g : Guard) (c : Bool) (d a b : Fin 8)
  | mandn (g : Guard) (c : Bool) (d a b : Fin 8)
  | mpop (g : Guard) (c : Bool) (d : Fin 32) (a : Fin 8)
  | mfirst (g : Guard) (c : Bool) (d : Fin 32) (a : Fin 8)
  | vtom (g : Guard) (c : Bool) (d : Fin 8) (a : Fin 64)
  | mtov (g : Guard) (c : Bool) (d : Fin 64) (a : Fin 8)
  | vfadd (g : Guard) (c : Bool) (d a b : Fin 64)
  | vfsub (g : Guard) (c : Bool) (d a b : Fin 64)
  | vfmul (g : Guard) (c : Bool) (d a b : Fin 64)
  | vfdiv (g : Guard) (c : Bool) (d a b : Fin 64)
  | vfmin (g : Guard) (c : Bool) (d a b : Fin 64)
  | vfmax (g : Guard) (c : Bool) (d a b : Fin 64)
  | vfma (g : Guard) (c : Bool) (d a b : Fin 64)
  | vfsqrt (g : Guard) (c : Bool) (d a : Fin 64)
  | vfaddScalar (g : Guard) (c : Bool) (d a : Fin 64) (b : Fin 32)
  | vfsubScalar (g : Guard) (c : Bool) (d a : Fin 64) (b : Fin 32)
  | vfmulScalar (g : Guard) (c : Bool) (d a : Fin 64) (b : Fin 32)
  | vfdivScalar (g : Guard) (c : Bool) (d a : Fin 64) (b : Fin 32)
  | vfminScalar (g : Guard) (c : Bool) (d a : Fin 64) (b : Fin 32)
  | vfmaxScalar (g : Guard) (c : Bool) (d a : Fin 64) (b : Fin 32)
  | vfmaScalar (g : Guard) (c : Bool) (d a : Fin 64) (b : Fin 32)
  | vfcmpEq (g : Guard) (c : Bool) (d a b : Fin 64)
  | vfcmpLt (g : Guard) (c : Bool) (d a b : Fin 64)
  | vfcmpLe (g : Guard) (c : Bool) (d a b : Fin 64)
  | vfsgcopy (g : Guard) (c : Bool) (d a b : Fin 64)
  | vfsgflip (g : Guard) (c : Bool) (d a b : Fin 64)
  | vfsgmix (g : Guard) (c : Bool) (d a b : Fin 64)
  | vfkind (g : Guard) (c : Bool) (d a : Fin 64)
  | vexp2 (g : Guard) (c : Bool) (d a : Fin 64)
  | vlog2 (g : Guard) (c : Bool) (d a : Fin 64)
  | vrsqrt (g : Guard) (c : Bool) (d a : Fin 64)
  | vrcp (g : Guard) (c : Bool) (d a : Fin 64)
  | vcvt (g : Guard) (c : Bool) (d a : Fin 64) (t : Fin 16)
  | vcvtW (g : Guard) (c : Bool) (d a : Fin 64) (t : Fin 16)
  | vcvtN (g : Guard) (c : Bool) (d a : Fin 64) (t : Fin 16)
  | vquant (g : Guard) (c : Bool) (d a : Fin 64) (f : Bool) (b : Fin 32)
  | vquantS (g : Guard) (c : Bool) (d a : Fin 64) (f : Bool) (b : Fin 32)
  | vdequant (g : Guard) (c : Bool) (d a : Fin 64) (f : Bool) (b : Fin 32)
  | vquantPg (g : Guard) (c : Bool) (d a : Fin 64) (f : Bool) (b : Fin 32)
  | vredsum (g : Guard) (c : Bool) (d a : Fin 64)
  | vredmin (g : Guard) (c : Bool) (d a : Fin 64)
  | vredmax (g : Guard) (c : Bool) (d a : Fin 64)
  | vredand (g : Guard) (c : Bool) (d a : Fin 64)
  | vredor (g : Guard) (c : Bool) (d a : Fin 64)
  | vredxor (g : Guard) (c : Bool) (d a : Fin 64)
  | vscan (g : Guard) (c : Bool) (d a : Fin 64)
  | vscanmax (g : Guard) (c : Bool) (d a : Fin 64)
  | vsredsum (g : Guard) (c : Bool) (d a : Fin 64) (b : Fin 8)
  | vsredmin (g : Guard) (c : Bool) (d a : Fin 64) (b : Fin 8)
  | vsredmax (g : Guard) (c : Bool) (d a : Fin 64) (b : Fin 8)
  | vsscan (g : Guard) (c : Bool) (d a : Fin 64) (b : Fin 8)
  | ldB64 (g : Guard) (d a : Fin 32) (i : BitVec 9)
  | ldB32 (g : Guard) (d a : Fin 32) (i : BitVec 9)
  | stB64 (g : Guard) (d a : Fin 32) (i : BitVec 9)
  | stB32 (g : Guard) (d a : Fin 32) (i : BitVec 9)
  | ldB8 (g : Guard) (d a : Fin 32) (i : BitVec 6)
  | ldB16 (g : Guard) (d a : Fin 32) (i : BitVec 6)
  | ldI8 (g : Guard) (d a : Fin 32) (i : BitVec 6)
  | ldI16 (g : Guard) (d a : Fin 32) (i : BitVec 6)
  | ldI32 (g : Guard) (d a : Fin 32) (i : BitVec 6)
  | stB8 (g : Guard) (d a : Fin 32) (i : BitVec 6)
  | stB16 (g : Guard) (d a : Fin 32) (i : BitVec 6)
  | vld (g : Guard) (c : Bool) (d : Fin 64) (a : Fin 32) (sc : Fin 8) (o : Fin 4)
  | vlds (g : Guard) (c : Bool) (d : Fin 64) (a : Fin 32) (sc : Fin 8) (o : Fin 4)
  | vldx (g : Guard) (c : Bool) (d : Fin 64) (a : Fin 32) (b : Fin 64)
  | vldt (g : Guard) (c : Bool) (d : Fin 64) (a : Fin 32) (sc : Fin 8) (o : Fin 4)
  | vldn (g : Guard) (c : Bool) (d a : Fin 64)
  | vldWp (g : Guard) (c : Bool) (d : Fin 64) (a : Fin 32) (h : Fin 8)
  | vst (g : Guard) (c : Bool) (d : Fin 64) (a : Fin 32) (sc : Fin 8) (o : Fin 4)
  | vsts (g : Guard) (c : Bool) (d : Fin 64) (a : Fin 32) (sc : Fin 8) (o : Fin 4)
  | vstx (g : Guard) (c : Bool) (d : Fin 64) (a : Fin 32) (b : Fin 64)
  | vstt (g : Guard) (c : Bool) (d : Fin 64) (a : Fin 32) (sc : Fin 8) (o : Fin 4)
  | vstn (g : Guard) (c : Bool) (d a : Fin 64)
  | ldWp (g : Guard) (d a : Fin 32) (h : Fin 8) (w : Fin 4) (i : BitVec 4)
  | ldAcq (g : Guard) (d a : Fin 32) (sc : Fin 8) (w : Fin 4) (i : BitVec 2)
  | stRel (g : Guard) (d a : Fin 32) (sc : Fin 8) (w : Fin 4) (i : BitVec 2)
  | atomAdd (g : Guard) (d : Fin 16) (a : Fin 32) (sc : Fin 8) (o : Fin 4) (w : Bool)
  | atomMin (g : Guard) (d : Fin 16) (a : Fin 32) (sc : Fin 8) (o : Fin 4) (w : Bool)
  | atomMax (g : Guard) (d : Fin 16) (a : Fin 32) (sc : Fin 8) (o : Fin 4) (w : Bool)
  | atomMinu (g : Guard) (d : Fin 16) (a : Fin 32) (sc : Fin 8) (o : Fin 4) (w : Bool)
  | atomMaxu (g : Guard) (d : Fin 16) (a : Fin 32) (sc : Fin 8) (o : Fin 4) (w : Bool)
  | atomAnd (g : Guard) (d : Fin 16) (a : Fin 32) (sc : Fin 8) (o : Fin 4) (w : Bool)
  | atomOr (g : Guard) (d : Fin 16) (a : Fin 32) (sc : Fin 8) (o : Fin 4) (w : Bool)
  | atomXor (g : Guard) (d : Fin 16) (a : Fin 32) (sc : Fin 8) (o : Fin 4) (w : Bool)
  | atomSwap (g : Guard) (d : Fin 16) (a : Fin 32) (sc : Fin 8) (o : Fin 4) (w : Bool)
  | atomCas (g : Guard) (d : Fin 16) (a : Fin 32) (sc : Fin 8) (o : Fin 4) (w : Bool)
  | vatomAdd (g : Guard) (d a : Fin 64) (sc : Fin 8) (o : Fin 4)
  | vatomMin (g : Guard) (d a : Fin 64) (sc : Fin 8) (o : Fin 4)
  | vatomMax (g : Guard) (d a : Fin 64) (sc : Fin 8) (o : Fin 4)
  | vatomAnd (g : Guard) (d a : Fin 64) (sc : Fin 8) (o : Fin 4)
  | vatomOr (g : Guard) (d a : Fin 64) (sc : Fin 8) (o : Fin 4)
  | vatomXor (g : Guard) (d a : Fin 64) (sc : Fin 8) (o : Fin 4)
  | vatomSwap (g : Guard) (d a : Fin 64) (sc : Fin 8) (o : Fin 4)
  | vatomCas (g : Guard) (d : Fin 32) (a : Fin 64) (sc : Fin 8) (o : Fin 4)
  | vwait (g : Guard) (k a b : Fin 64)
  | barv (g : Guard) (d a : Fin 32)
  | bnew (g : Guard) (d a : Fin 32)
  | bfree (g : Guard) (d a : Fin 32)
  | bsig (g : Guard) (a b : Fin 32)
  | bsigOneOperand (g : Guard) (a : Fin 32)
  | bsigErr (g : Guard) (a b : Fin 32)
  | bqry (g : Guard) (d a : Fin 32)
  | barm (g : Guard) (a b : Fin 32)
  | barmRel (g : Guard) (a b : Fin 32)
  | rcopy (g : Guard) (h : Fin 8) (a b : Fin 16)
  | rcopyShape (g : Guard) (h : Fin 8) (a : Fin 64) (b : Fin 32)
  | rwp (g : Guard) (d : Fin 32) (h : Fin 8)
  | rcancel (g : Guard) (h : Fin 8)
  | rqry (g : Guard) (d : Fin 32) (h : Fin 8)
  | amsend (g : Guard) (a : Fin 32)
  | amreply (g : Guard) (a : Fin 32)
  | amreg (g : Guard) (a b : Fin 32)
  | swalloc (g : Guard) (d a b : Fin 32)
  | swfree (g : Guard) (d a : Fin 32)
  | swquota (g : Guard) (d a : Fin 32)
  | mmk (g : Guard) (c : Bool) (e : Fin 4) (a b : Fin 64) (t : Fin 16)
  | mmkScratchpad (g : Guard) (c : Bool) (e : Fin 4) (a : Fin 64) (b : Fin 32) (t : Fin 16)
  | mmga (g : Guard) (c : Bool) (e : Fin 4) (a b : Fin 64) (t : Fin 16)
  | mmgaScratchpad (g : Guard) (c : Bool) (e : Fin 4) (a : Fin 64) (b : Fin 32) (t : Fin 16)
  | mshape (d a : Fin 32)
  | mzero (g : Guard) (e : Fin 4)
  | mld (g : Guard) (e : Fin 4) (a : Fin 32)
  | mst (g : Guard) (e : Fin 4) (a : Fin 32)
  | mcvt (g : Guard) (d : Fin 64) (e : Fin 4) (t : Fin 16)
  | mseg (d a : Fin 32)
  | vtmask (g : Guard) (c : Bool) (d : Fin 8) (a : Fin 64) (b : Fin 32)
  | vexpm (g : Guard) (c : Bool) (d a b : Fin 64)
  | vscore (g : Guard) (c : Bool) (d : Fin 64) (q : Fin 16) (e : Fin 4) (b : Fin 32)
  | vpacc (g : Guard) (c : Bool) (d a b : Fin 64)
  | pxl (g : Guard) (d a : Fin 64) (b : Fin 32)
  | pxw (g : Guard) (a b : Fin 32)
  | pxwSh (g : Guard) (a : Fin 32) (k : Fin 8)
  | pxinv (g : Guard) (a b : Fin 32)
  | pxret (g : Guard)
  | dsadv (g : Guard) (d : Fin 64) (a b : Fin 32)
  | dstrunc (g : Guard) (a b : Fin 32)
  | dsframe (g : Guard) (d a b : Fin 32)
  | dsplay (g : Guard) (a b : Fin 32)
  | launch (g : Guard) (d a : Fin 32)
  | cancel (g : Guard) (d a : Fin 32)
  | cget (g : Guard) (d : Fin 32) (r : Fin 64)
  | cset (g : Guard) (r : Fin 64) (a : Fin 32)
  | vcfg (g : Guard) (d : Fin 32) (r w : Fin 4)
  | spsplit (g : Guard) (d : Fin 32) (k : Fin 16)
  | stripBegin (g : Guard) (a : Fin 32)
  | stripCommit (g : Guard)
  | asidBind (g : Guard) (d a : Fin 32)
  | asidRetire (g : Guard) (d a : Fin 32)
  | xlinvVa (g : Guard) (d a b : Fin 32)
  | xlinvAsid (g : Guard) (d a : Fin 32)
  | xlinvGlob (g : Guard) (d : Fin 32)
  | fence (g : Guard) (k : Fin 4) (sc : Fin 8)
  -- the steps without an encoding (spec/95_what_each_step_holds.md)
  | waitingRecordWrite (die : Nat)
  | deferredStoreFailure (core : Nat)
  | pendingDatumArrival (core cnum idx : Nat) (value : Word) (poisoned : Bool)
  | preemption (core : Nat) (why : StopAt)
  | pacerDecision (core : Nat)
  | pacerPreemption (core : PacerStop)
  | contextSpill (core cnum : Nat)
  | contextReturn (core cnum : Nat)
  | clusterWindowRequest (core : Nat)
  | activeMessageHandler (core : Nat)
  | handlerLimit (core : Nat)
  | amReplyDelivery (r : AmReply)
  | remoteSignalArrival (sender : Nat) (handle : Word) (kind : RemoteKind)
  | batonPoll (core cnum : Nat)
  | relayChunk (core ch : Nat)
  | relayBeat (core ch : Nat)
  | relayComplete (core ch : Nat)
  | relayCancelComplete (core ch : Nat)
  | translationWalk (core : Nat) (asid : Nat) (va : Word)
  | runAheadTranslation (core : Nat) (pc : Word)
  | maintenanceComplete (die idx : Nat)
  | asidRetirementComplete (asid : Nat)
  | homeSliceRequest (r : HomeReq)
  | bankConflict (d : BankWait)
  | hdcfgWrite (d : Nat) (value : Word)
  | granuleMove (d : Nat)
  | migrationComplete (d : Nat)
  | mctlWrite (value : Word)
  | switchAccess (r : SwitchReq)
  | mirrorImageInstall (r : MirrorImage)
  | failoverAccess (r : SwitchReq)
  | mergeLockLapse (plane granule : Nat)
  | planeDown (p : PlaneLoss)
  | planeUp (p gen : Nat)
  | collectiveAbortReceipt (sender group cgen : Nat)
  | starterDecision
  | starterTimedDecision
  | launchBlocking (seq : Nat)
  | dependenceFailed (seq : Nat)
  | launchCompletion (seq : Nat)
  | unloadComplete (obj : Nat)
  | ccmdOpen (die target inc : Nat)
  | ccmdResume (die target inc : Nat)
  | ccmdKill (die target inc : Nat)
  | ccmdClose (die target inc : Nat)
  | ccmdBadcmd (die : Nat)
  | machineCheck (core : UnitCheck)
  | truncationCleanup (rec : Nat)
  | cleanupComplete (rec : Nat)
  | cleanupFailed (rec : Nat) (lost : Bool) (cause : Cause)
  | hostAccess (r : HostReq)
  | hostSignal (master : Nat) (handle : Word) (amount : Nat)
  | hostsigWrite (value : Word)
  | linkLoss
  | linkReturn
  | ownClaim (x : Nat) (e n : Word)
  | ownRelease (x : Nat) (e n : Word)
  | ownHandover (x : Nat) (e n : Word)
  | leaseLapse
  | ownerScrubComplete
  | engagementScrub (req : Nat)
  | engagementScrubComplete
  | attestation (req : Nat)
  | attestationComplete
  | keyLoad (slot : Nat) (rec : Nat)
  | keyErase (slot : Nat)
  | moduleReset
  | memoryTrained
  | fabricTrained (planes : List (Nat × Nat))
  | hbmRepair (bank spare : Nat)
  | clockThrottle
  | clockRestore
  | thermalStop
  | registerWrite (pa : Nat) (value : Word)
  | vwaitRound (core cnum : Nat)
  | illegalInstruction (w : BitVec 32)
  | instructionFetchFault (cause : Cause)
  deriving DecidableEq, Repr

end Sys2Proof
end

