-- ==== Sys2Proof/Machine/Traits.lean ====
section
/-! DEFINITION. What the core must know of an instruction before it executes it: the scalar registers and guards that it
reads (spec/15_traps_preemption.md R380), what message-slot handlers (spec/06 R181, spec/09 R226) and position-miss
handlers (spec/12 R319) may run, and what each class C instruction brings into a convoy (spec/10_vector.md R274, spec/11
R286, spec/12 R307, R316). -/

namespace Sys2Proof

/-- A pair's registers, named by its odd member (R206). -/
def pairOdd (k : Fin 16) : Fin 32 := ⟨2 * k.val + 1, by omega⟩
def pairEven (k : Fin 16) : Fin 32 := ⟨2 * k.val, by omega⟩
/-- The vector pair of `vatom.cas`. -/
def vpairOdd (k : Fin 32) : Fin 64 := ⟨2 * k.val + 1, by omega⟩
def vpairEven (k : Fin 32) : Fin 64 := ⟨2 * k.val, by omega⟩

/-- Scalar registers that an instruction reads. -/
def Instr.scalars : Instr → List (Fin 32)
  | .add _ _ a y | .sub _ _ a y | .and _ _ a y | .or _ _ a y | .xor _ _ a y | .sll _ _ a y | .srl _ _ a y
  | .sra _ _ a y | .mul _ _ a y | .mulh _ _ a y | .mulhu _ _ a y | .div _ _ a y | .divu _ _ a y | .rem _ _ a y
  | .remu _ _ a y | .min _ _ a y | .max _ _ a y | .minu _ _ a y | .maxu _ _ a y | .sel _ _ a y | .bfx _ _ a y
  | .bfxs _ _ a y | .cmpEq _ _ a y | .cmpNe _ _ a y | .cmpLt _ _ a y | .cmpLtu _ _ a y | .cmpLe _ _ a y
  | .cmpLeu _ _ a y | .faddF64 _ _ a y | .fsubF64 _ _ a y | .fmulF64 _ _ a y | .fdivF64 _ _ a y
  | .fminF64 _ _ a y | .fmaxF64 _ _ a y | .faddF32 _ _ a y | .fsubF32 _ _ a y | .fmulF32 _ _ a y
  | .fdivF32 _ _ a y | .fminF32 _ _ a y | .fmaxF32 _ _ a y | .fcmpEqF64 _ _ a y | .fcmpLtF64 _ _ a y
  | .fcmpLeF64 _ _ a y | .fcmpEqF32 _ _ a y | .fcmpLtF32 _ _ a y | .fcmpLeF32 _ _ a y | .spawn _ _ a y
  | .await _ _ a y | .bsig _ a y | .bsigErr _ a y | .barm _ a y | .barmRel _ a y | .amreg _ a y
  | .swalloc _ _ a y | .pxw _ a y | .pxinv _ a y | .dsadv _ _ a y | .dstrunc _ a y | .dsframe _ _ a y
  | .dsplay _ a y => [a, y]
  | .clz _ _ a | .ctz _ _ a | .popc _ _ a | .rev _ _ a | .addi _ _ a _ | .andi _ _ a _ | .ori _ _ a _
  | .xori _ _ a _ | .slli _ _ a _ | .srli _ _ a _ | .srai _ _ a _ | .fsqrtF64 _ _ a | .fsqrtF32 _ _ a
  | .fcvt _ _ a _ _ | .jr _ _ a | .vbcast _ _ _ a | .ldB64 _ _ a _ | .ldB32 _ _ a _ | .ldB8 _ _ a _
  | .ldB16 _ _ a _ | .ldI8 _ _ a _ | .ldI16 _ _ a _ | .ldI32 _ _ a _ | .vld _ _ _ a _ _ | .vlds _ _ _ a _ _
  | .vldx _ _ _ a _ | .vldt _ _ _ a _ _ | .vldWp _ _ _ a _ | .vst _ _ _ a _ _ | .vsts _ _ _ a _ _
  | .vstx _ _ _ a _ | .vstt _ _ _ a _ _ | .ldWp _ _ a _ _ _ | .ldAcq _ _ a _ _ _ | .barv _ _ a | .bnew _ _ a
  | .bfree _ _ a | .bsigOneOperand _ a | .bqry _ _ a | .amsend _ a | .amreply _ a | .swfree _ _ a
  | .swquota _ _ a | .mshape _ a | .mld _ _ a | .mst _ _ a | .mseg _ a | .pxwSh _ a _ | .launch _ _ a
  | .cancel _ _ a | .cset _ _ a | .stripBegin _ a => [a]
  | .bfi _ d a y | .fmaF64 _ d a y | .fmaF32 _ d a y | .xlinvVa _ d a y => [d, a, y]
  | .lis _ d _ | .xlinvGlob _ d => [d]
  | .yield _ _ y | .vaddScalar _ _ _ _ y | .vsubScalar _ _ _ _ y | .vandScalar _ _ _ _ y | .vorScalar _ _ _ _ y
  | .vxorScalar _ _ _ _ y | .vsllScalar _ _ _ _ y | .vsrlScalar _ _ _ _ y | .vsraScalar _ _ _ _ y
  | .vmulScalar _ _ _ _ y | .vmulhScalar _ _ _ _ y | .vminScalar _ _ _ _ y | .vmaxScalar _ _ _ _ y
  | .vminuScalar _ _ _ _ y | .vmaxuScalar _ _ _ _ y | .vaddsScalar _ _ _ _ y | .vsubsScalar _ _ _ _ y
  | .vslideup _ _ _ _ y | .vslidedn _ _ _ _ y | .vext _ _ _ y | .vfaddScalar _ _ _ _ y | .vfsubScalar _ _ _ _ y
  | .vfmulScalar _ _ _ _ y | .vfdivScalar _ _ _ _ y | .vfminScalar _ _ _ _ y | .vfmaxScalar _ _ _ _ y
  | .vfmaScalar _ _ _ _ y | .rcopyShape _ _ _ y | .mmkScratchpad _ _ _ _ y _ | .mmgaScratchpad _ _ _ _ y _
  | .vtmask _ _ _ _ y | .vscore _ _ _ _ _ y | .pxl _ _ _ y => [y]
  | .stB64 _ d a _ | .stB32 _ d a _ | .stB8 _ d a _ | .stB16 _ d a _ | .stRel _ d a _ _ _ | .asidBind _ d a
  | .asidRetire _ d a | .xlinvAsid _ d a => [d, a]
  | .atomAdd _ d a _ _ _ | .atomMin _ d a _ _ _ | .atomMax _ d a _ _ _ | .atomMinu _ d a _ _ _ | .atomMaxu _ d a _ _ _
  | .atomAnd _ d a _ _ _ | .atomOr _ d a _ _ _ | .atomXor _ d a _ _ _ | .atomSwap _ d a _ _ _ => [pairEven d, a]
  | .atomCas _ d a _ _ _ => [pairEven d, pairOdd d, a]
  | .rcopy _ _ a y => [pairEven a, pairOdd a, pairEven y, pairOdd y]
  | _ => []

/-- The guard of a class S instruction, and the guards that `gand` and `gor` combine. -/
def Instr.guards : Instr → List (Fin 8)
  | .gand g _ a y | .gor g _ a y => [g.idx, a, y]
  | .add g _ _ _ | .sub g _ _ _ | .and g _ _ _ | .or g _ _ _ | .xor g _ _ _ | .sll g _ _ _ | .srl g _ _ _
  | .sra g _ _ _ | .mul g _ _ _ | .mulh g _ _ _ | .mulhu g _ _ _ | .div g _ _ _ | .divu g _ _ _ | .rem g _ _ _
  | .remu g _ _ _ | .min g _ _ _ | .max g _ _ _ | .minu g _ _ _ | .maxu g _ _ _ | .clz g _ _ | .ctz g _ _
  | .popc g _ _ | .rev g _ _ | .sel g _ _ _ | .bfx g _ _ _ | .bfxs g _ _ _ | .bfi g _ _ _ | .cmpEq g _ _ _
  | .cmpNe g _ _ _ | .cmpLt g _ _ _ | .cmpLtu g _ _ _ | .cmpLe g _ _ _ | .cmpLeu g _ _ _ | .addi g _ _ _
  | .andi g _ _ _ | .ori g _ _ _ | .xori g _ _ _ | .slli g _ _ _ | .srli g _ _ _ | .srai g _ _ _ | .li g _ _
  | .lis g _ _ | .loop g _ _ | .faddF64 g _ _ _ | .fsubF64 g _ _ _ | .fmulF64 g _ _ _ | .fdivF64 g _ _ _
  | .fminF64 g _ _ _ | .fmaxF64 g _ _ _ | .fmaF64 g _ _ _ | .fsqrtF64 g _ _ | .faddF32 g _ _ _
  | .fsubF32 g _ _ _ | .fmulF32 g _ _ _ | .fdivF32 g _ _ _ | .fminF32 g _ _ _ | .fmaxF32 g _ _ _
  | .fmaF32 g _ _ _ | .fsqrtF32 g _ _ | .fcmpEqF64 g _ _ _ | .fcmpLtF64 g _ _ _ | .fcmpLeF64 g _ _ _
  | .fcmpEqF32 g _ _ _ | .fcmpLtF32 g _ _ _ | .fcmpLeF32 g _ _ _ | .fcvt g _ _ _ _ | .b g _ | .jal g _
  | .jr g _ _ | .spawn g _ _ _ | .await g _ _ _ | .yield g _ _ | .fin g | .sys g _ _ | .ldB64 g _ _ _
  | .ldB32 g _ _ _ | .stB64 g _ _ _ | .stB32 g _ _ _ | .ldB8 g _ _ _ | .ldB16 g _ _ _ | .ldI8 g _ _ _
  | .ldI16 g _ _ _ | .ldI32 g _ _ _ | .stB8 g _ _ _ | .stB16 g _ _ _ | .ldWp g _ _ _ _ _ | .ldAcq g _ _ _ _ _
  | .stRel g _ _ _ _ _ | .atomAdd g _ _ _ _ _ | .atomMin g _ _ _ _ _ | .atomMax g _ _ _ _ _
  | .atomMinu g _ _ _ _ _ | .atomMaxu g _ _ _ _ _ | .atomAnd g _ _ _ _ _ | .atomOr g _ _ _ _ _
  | .atomXor g _ _ _ _ _ | .atomSwap g _ _ _ _ _ | .atomCas g _ _ _ _ _ | .bnew g _ _ | .bfree g _ _
  | .bsig g _ _ | .bsigOneOperand g _ | .bsigErr g _ _ | .bqry g _ _ | .barm g _ _ | .barmRel g _ _
  | .rcopy g _ _ _ | .rcopyShape g _ _ _ | .rwp g _ _ | .rcancel g _ | .rqry g _ _ | .amsend g _ | .amreply g _
  | .amreg g _ _ | .swalloc g _ _ _ | .swfree g _ _ | .swquota g _ _ | .pxw g _ _ | .pxwSh g _ _ | .pxinv g _ _
  | .pxret g | .dsadv g _ _ _ | .dstrunc g _ _ | .dsframe g _ _ _ | .dsplay g _ _ | .launch g _ _
  | .cancel g _ _ | .cget g _ _ | .cset g _ _ | .vcfg g _ _ _ | .spsplit g _ _ | .stripBegin g _
  | .stripCommit g | .asidBind g _ _ | .asidRetire g _ _ | .xlinvVa g _ _ _ | .xlinvAsid g _ _ | .xlinvGlob g _
  | .fence g _ _ => [g.idx]
  | _ => []

/-- Whether a slot register exists under this number (R179, R206). -/
def slotReg (r : Fin 32) : Bool := r.val < 8

/-- What handler code may run, with q0 to q7 alone (R181, R226): the integer instructions, `b`, `jr`, the scalar loads,
stores and atomics, and `amreply`. -/
def Instr.inHandler : Instr → Bool
  | .nop => true
  | .add _ d a y | .sub _ d a y | .and _ d a y | .or _ d a y | .xor _ d a y | .sll _ d a y | .srl _ d a y
  | .sra _ d a y | .mul _ d a y | .mulh _ d a y | .mulhu _ d a y | .div _ d a y | .divu _ d a y | .rem _ d a y
  | .remu _ d a y | .min _ d a y | .max _ d a y | .minu _ d a y | .maxu _ d a y | .sel _ d a y | .bfx _ d a y
  | .bfxs _ d a y | .bfi _ d a y => slotReg d && slotReg a && slotReg y
  | .clz _ d a | .ctz _ d a | .popc _ d a | .rev _ d a | .addi _ d a _ | .andi _ d a _ | .ori _ d a _
  | .xori _ d a _ | .slli _ d a _ | .srli _ d a _ | .srai _ d a _ | .jr _ d a | .ldB64 _ d a _ | .ldB32 _ d a _
  | .stB64 _ d a _ | .stB32 _ d a _ | .ldB8 _ d a _ | .ldB16 _ d a _ | .ldI8 _ d a _ | .ldI16 _ d a _
  | .ldI32 _ d a _ | .stB8 _ d a _ | .stB16 _ d a _ | .ldAcq _ d a _ _ _ | .stRel _ d a _ _ _ => slotReg d && slotReg a
  | .cmpEq _ _ a y | .cmpNe _ _ a y | .cmpLt _ _ a y | .cmpLtu _ _ a y | .cmpLe _ _ a y | .cmpLeu _ _ a y => slotReg a && slotReg y
  | .gand _ _ _ _ | .gor _ _ _ _ | .b _ _ => true
  | .li _ d _ | .lis _ d _ => slotReg d
  | .atomAdd _ d a _ _ _ | .atomMin _ d a _ _ _ | .atomMax _ d a _ _ _ | .atomMinu _ d a _ _ _
  | .atomMaxu _ d a _ _ _ | .atomAnd _ d a _ _ _ | .atomOr _ d a _ _ _ | .atomXor _ d a _ _ _
  | .atomSwap _ d a _ _ _ | .atomCas _ d a _ _ _ => slotReg (pairOdd d) && slotReg a
  | .amreply _ a => slotReg a
  | _ => false

/-- What a position-miss handler may run (R319): the integer and immediate instructions of majors 0x00 to 0x08, `b`,
the plain scalar loads, `pxw`, `pxinv` and `pxret`. -/
def Instr.inMissHandler : Instr → Bool
  | .nop => true
  | .add _ _ _ _ | .sub _ _ _ _ | .and _ _ _ _ | .or _ _ _ _ | .xor _ _ _ _ | .sll _ _ _ _ | .srl _ _ _ _
  | .sra _ _ _ _ | .mul _ _ _ _ | .mulh _ _ _ _ | .mulhu _ _ _ _ | .div _ _ _ _ | .divu _ _ _ _ | .rem _ _ _ _
  | .remu _ _ _ _ | .min _ _ _ _ | .max _ _ _ _ | .minu _ _ _ _ | .maxu _ _ _ _ | .clz _ _ _ | .ctz _ _ _
  | .popc _ _ _ | .rev _ _ _ | .sel _ _ _ _ | .bfx _ _ _ _ | .bfxs _ _ _ _ | .bfi _ _ _ _ | .cmpEq _ _ _ _
  | .cmpNe _ _ _ _ | .cmpLt _ _ _ _ | .cmpLtu _ _ _ _ | .cmpLe _ _ _ _ | .cmpLeu _ _ _ _ | .gand _ _ _ _
  | .gor _ _ _ _ | .addi _ _ _ _ | .andi _ _ _ _ | .ori _ _ _ _ | .xori _ _ _ _ | .slli _ _ _ _ | .srli _ _ _ _
  | .srai _ _ _ _ | .li _ _ _ | .lis _ _ _ | .b _ _ | .ldB64 _ _ _ _ | .ldB32 _ _ _ _ | .ldB8 _ _ _ _
  | .ldB16 _ _ _ _ | .ldI8 _ _ _ _ | .ldI16 _ _ _ _ | .ldI32 _ _ _ _ | .pxw _ _ _ | .pxinv _ _ _ | .pxret _ => true
  | _ => false

/-- Instructions of handler code that may wait: one that is issued again is not counted again. -/
def Instr.mayWait : Instr → Bool
  | .ldB64 _ _ _ _ | .ldB32 _ _ _ _ | .ldB8 _ _ _ _ | .ldB16 _ _ _ _ | .ldI8 _ _ _ _ | .ldI16 _ _ _ _
  | .ldI32 _ _ _ _ | .stB64 _ _ _ _ | .stB32 _ _ _ _ | .stB8 _ _ _ _ | .stB16 _ _ _ _ | .ldAcq _ _ _ _ _ _
  | .stRel _ _ _ _ _ _ | .atomAdd _ _ _ _ _ _ | .atomMin _ _ _ _ _ _ | .atomMax _ _ _ _ _ _
  | .atomMinu _ _ _ _ _ _ | .atomMaxu _ _ _ _ _ _ | .atomAnd _ _ _ _ _ _ | .atomOr _ _ _ _ _ _
  | .atomXor _ _ _ _ _ _ | .atomSwap _ _ _ _ _ _ | .atomCas _ _ _ _ _ _ => true
  | _ => false

/-- Instructions marked P (R208). -/
def Instr.privOnly : Instr → Bool
  | .launch _ _ _ | .cancel _ _ _ | .swalloc _ _ _ _ | .swfree _ _ _ | .asidBind _ _ _ | .asidRetire _ _ _
  | .xlinvVa _ _ _ _ | .xlinvAsid _ _ _ | .xlinvGlob _ _ | .pxwSh _ _ _ => true
  | _ => false

/-- The control register that `cget` or `cset` names, and whether it is written. -/
def Instr.creg : Instr → Option (Fin 64 × Bool)
  | .cget _ _ r => some (r, false)
  | .cset _ r _ => some (r, true)
  | _ => none

/-- Matrix instructions outside convoys, which stop for a pre-emption between rows (R309, R372). -/
def Instr.byRows : Instr → Bool
  | .mld _ _ _ | .mst _ _ _ | .mcvt _ _ _ _ => true
  | _ => false

/-! ## Convoys (R274) -/

/-- Unit classes of convoy members (Table 6 of spec/10_vector.md). -/
inductive VUnit where
  | i | p | k | f | x | q | d | m | a
  deriving DecidableEq, Repr

/-- What a class C instruction brings into a convoy: its unit, the vector registers, masks, scalar registers and guard g6
that it writes, the vector registers that it reads, its index or shape register, and what the rules single out. -/
structure Member where
  unit   : VUnit
  wv     : List (Fin 64) := []
  wm     : List (Fin 8) := []
  ws     : List (Fin 32) := []
  wg     : Bool := false
  rv     : List (Fin 64) := []
  index  : Option (Fin 64) := none      -- of `vldx`, `vstx`, `vldn`, `vstn` (R286)
  cross  : Bool := false                -- a cross-element member (R256, R313)
  reduce : Bool := false                -- a full or segmented reduction
  mixed  : Bool := false                -- elements of two widths in its registers
  ord    : Bool := false                -- ORD not 0 (R286)
  wp     : Bool := false                -- `vld.wp` (R286)
  matrix : Bool := false                -- `mmk`, `mmga` (R307)
  sb     : Option (Fin 32) := none      -- scalar register that `mmk` or `mmga` reads
  deriving DecidableEq, Repr

/-- Both masks of a compare's destination field (R249). -/
def maskPair (d : Fin 64) : List (Fin 8) :=
  let x : Fin 8 := ⟨d.val % 8, Nat.mod_lt _ (by decide)⟩
  let y : Fin 8 := ⟨d.val / 8, by have := d.isLt; omega⟩
  if x = y then [x] else [x, y]

/-- The convoy bit and the member of a class C instruction; none for any other. -/
def Instr.member : Instr → Option (Bool × Member)
  | .vadd _ c d a y | .vsub _ c d a y | .vand _ c d a y | .vor _ c d a y | .vxor _ c d a y | .vsll _ c d a y
  | .vsrl _ c d a y | .vsra _ c d a y | .vmul _ c d a y | .vmulh _ c d a y | .vmin _ c d a y | .vmax _ c d a y
  | .vminu _ c d a y | .vmaxu _ c d a y | .vadds _ c d a y | .vsubs _ c d a y | .vmerge _ c d a y => some (c, { unit := .i, wv := [d], rv := [a, y] })
  | .vaddScalar _ c d a _ | .vsubScalar _ c d a _ | .vandScalar _ c d a _ | .vorScalar _ c d a _
  | .vxorScalar _ c d a _ | .vsllScalar _ c d a _ | .vsrlScalar _ c d a _ | .vsraScalar _ c d a _
  | .vmulScalar _ c d a _ | .vmulhScalar _ c d a _ | .vminScalar _ c d a _ | .vmaxScalar _ c d a _
  | .vminuScalar _ c d a _ | .vmaxuScalar _ c d a _ | .vaddsScalar _ c d a _ | .vsubsScalar _ c d a _
  | .vmv _ c d a => some (c, { unit := .i, wv := [d], rv := [a] })
  | .vcmpEq _ c d a y | .vcmpNe _ c d a y | .vcmpLt _ c d a y | .vcmpLtu _ c d a y | .vcmpLe _ c d a y
  | .vcmpLeu _ c d a y => some (c, { unit := .i, wm := maskPair d, rv := [a, y] })
  | .vbcast _ c d _ => some (c, { unit := .i, wv := [d] })
  | .mand _ c d _ _ | .mor _ c d _ _ | .mxor _ c d _ _ | .mandn _ c d _ _ => some (c, { unit := .i, wm := [d] })
  | .vtom _ c d a => some (c, { unit := .i, wm := [d], rv := [a] })
  | .mtov _ c d _ => some (c, { unit := .i, wv := [d] })
  | .vslideup _ c d a _ | .vslidedn _ c d a _ | .vcompress _ c d a => some (c, { unit := .p, wv := [d], rv := [a], cross := true })
  | .viota _ c d => some (c, { unit := .p, wv := [d], cross := true })
  | .vperm _ c d a y => some (c, { unit := .p, wv := [d], rv := [a, y], cross := true })
  | .vext c d a _ => some (c, { unit := .p, ws := [d], rv := [a], cross := true })
  | .mpop _ c d _ | .mfirst _ c d _ => some (c, { unit := .k, ws := [d], cross := true })
  | .vfadd _ c d a y | .vfsub _ c d a y | .vfmul _ c d a y | .vfdiv _ c d a y | .vfmin _ c d a y
  | .vfmax _ c d a y | .vfsgcopy _ c d a y | .vfsgflip _ c d a y | .vfsgmix _ c d a y => some (c, { unit := .f, wv := [d], rv := [a, y] })
  | .vfma _ c d a y => some (c, { unit := .f, wv := [d], rv := [a, y, d] })
  | .vfaddScalar _ c d a _ | .vfsubScalar _ c d a _ | .vfmulScalar _ c d a _ | .vfdivScalar _ c d a _
  | .vfminScalar _ c d a _ | .vfmaxScalar _ c d a _ | .vfsqrt _ c d a | .vfkind _ c d a => some (c, { unit := .f, wv := [d], rv := [a] })
  | .vfmaScalar _ c d a _ => some (c, { unit := .f, wv := [d], rv := [a, d] })
  | .vfcmpEq _ c d a y | .vfcmpLt _ c d a y | .vfcmpLe _ c d a y => some (c, { unit := .f, wm := maskPair d, rv := [a, y] })
  | .vexp2 _ c d a | .vlog2 _ c d a | .vrsqrt _ c d a | .vrcp _ c d a => some (c, { unit := .x, wv := [d], rv := [a] })
  | .vcvt _ c d a _ => some (c, { unit := .q, wv := [d], rv := [a] })
  | .vcvtW _ c d a _ | .vcvtN _ c d a _ => some (c, { unit := .q, wv := [d], rv := [a], mixed := true })
  | .vquant _ c d a _ y => some (c, { unit := .q, wv := [d, y.castLE (by decide)], wg := true, rv := [a], mixed := true })
  | .vquantS _ c d a _ y | .vquantPg _ c d a _ y => some (c, { unit := .q, wv := [d], wg := true, rv := [a, y.castLE (by decide)], mixed := true })
  | .vdequant _ c d a _ y => some (c, { unit := .q, wv := [d], rv := [a, y.castLE (by decide)], mixed := true })
  | .vredsum _ c d a | .vredmin _ c d a | .vredmax _ c d a | .vredand _ c d a | .vredor _ c d a
  | .vredxor _ c d a | .vsredsum _ c d a _ | .vsredmin _ c d a _ | .vsredmax _ c d a _ => some (c, { unit := .d, wv := [d], rv := [a], cross := true, reduce := true })
  | .vscan _ c d a | .vscanmax _ c d a | .vsscan _ c d a _ => some (c, { unit := .d, wv := [d], rv := [a] })
  | .vld _ c d _ _ o | .vlds _ c d _ _ o | .vldt _ c d _ _ o => some (c, { unit := .m, wv := [d], ord := o != 0 })
  | .vldx _ c d _ y => some (c, { unit := .m, wv := [d], rv := [y], index := some y, mixed := true })
  | .vldn _ c d a => some (c, { unit := .m, wv := [d], rv := [a], index := some a, mixed := true })
  | .vldWp _ c d _ _ => some (c, { unit := .m, wv := [d], wp := true })
  | .vst _ c d _ _ o | .vsts _ c d _ _ o | .vstt _ c d _ _ o => some (c, { unit := .m, rv := [d], ord := o != 0 })
  | .vstx _ c d _ y => some (c, { unit := .m, rv := [d, y], index := some y, mixed := true })
  | .vstn _ c d a => some (c, { unit := .m, rv := [d, a], index := some a, mixed := true })
  | .mmk _ c _ a y _ | .mmga _ c _ a y _ => some (c, { unit := .a, rv := [a, y], matrix := true, mixed := true })
  | .mmkScratchpad _ c _ a y _ | .mmgaScratchpad _ c _ a y _ => some (c, { unit := .a, rv := [a], matrix := true, sb := some y, mixed := true })
  | .vtmask _ c d a _ => some (c, { unit := .a, wm := [d], rv := [a], mixed := true })
  | .vexpm _ c d a y => some (c, { unit := .a, wv := [d, y], rv := [a, y], cross := true, mixed := true })
  | .vscore _ c d _ _ _ => some (c, { unit := .a, wv := [d], mixed := true })
  | .vpacc _ c d a y => some (c, { unit := .a, wv := [d], rv := [d, a, y], mixed := true })
  | _ => none

/-- Two lists that share an element. -/
def meet {α : Type} [BEq α] (x y : List α) : Bool := x.any y.contains

/-- Whether a member writes or reads something that an earlier one keeps it from (R274 rules 4 and 5, R286, R307,
R316). -/
def Member.clash (e n : Member) : Bool :=
  meet e.wv n.wv || meet e.wm n.wm || meet e.ws n.ws || (e.wg && n.wg) ||
    ((e.cross || e.unit == .a) && meet e.rv n.wv) ||
    (match e.sb with
      | some r => n.ws.contains r
      | none => false) ||
    (match n.index with
      | some v => e.wv.contains v
      | none => false)

/-- Whether `n` cannot join a convoy of `es`, first member first (R210, R274, R286, R307). -/
def Member.conflicts (es : List Member) (n : Member) : Bool :=
  decide (4 ≤ es.length) ||
    decide ((if n.unit == .i then 2 else 1) ≤ (es.filter (fun e => e.unit == n.unit)).length) ||
    n.unit == .p || n.unit == .k || n.wp || n.matrix ||
    es.any (·.reduce) || (es.drop 1).any (·.ord) || es.any (fun e => e.clash n)

end Sys2Proof
end

