-- ==== Sys2Proof/Machine/ScalarMem.lean ====
section
/-! DEFINITION. Scalar loads, stores and atomics (spec/11_memory_sync_instr.md R276 to R279, R288, R289): majors 0x20 to
0x24 and 0x27 to 0x2A. -/

namespace Sys2Proof.Machine

/-! ## Addresses -/

/-- Whether every byte lies in the own-scratchpad range, which is all that handler code reaches (R181). -/
def ownRange (a : Word) (n : Nat) : Bool := 2 ^ 64 - 2 ^ 18 ≤ a.toNat && a.toNat + n ≤ 2 ^ 64

/-- In handler code an address outside the core's own scratchpad ends the request (R181, R300). -/
def State.handlerRange (s : State) (a : Word) (n : Nat) (f : State → State) : State :=
  if s.core.slot.isSome && !ownRange a n then s.raise .messageFault else f s

/-- Whether a part of an access fails to translate, or fails when it is performed. -/
def State.partFails (s : State) (acc : Access) (performed : Bool) (p : Word × Nat) : Bool :=
  match s.translate s.me acc false p.1 with
  | .error _ => true
  | .ok x => performed && (match s.partDo s.issuer x p.2 true false (fun _ => none) with
    | .error (.cause _ _) => true
    | _ => false)

/-- Bytes of an open strip that the vector unit sees: all of them (R127, R287). -/
def Coro.heldBytes (c : Coro) : List (Nat × Byte) :=
  match c.strip with
  | none => []
  | some st => st.heldBytes

/-- ADDR of a failed access: the access's first byte in the part that fails, and in an uncorrectable scratchpad word; 0 for
an entry of the strip buffer (R379). -/
def State.dataAddr (s : State) (acc : Access) (c : Cause) (a : Word) (n : Nat) : Word :=
  if c = .dataSram && (match s.translateAccess s.me acc true a n with
      | .error _ => false
      | .ok ps => s.core.run.stripBad s.core.run.heldBytes ps) then 0
  else if c = .dataSram && isNear a then
    match nearTarget s.core.id a with
    | none => a
    | some (k, off) =>
      match (List.range n).find? (fun i => s.padPoison.contains ((padStore k + off + i) / 4)) with
      | none => a
      | some i => a + w64 i
  else
    let ps := partsOf a n
    match ps.find? (s.partFails acc false), ps.find? (s.partFails acc true) with
    | some p, _ => p.1
    | none, some p => p.1
    | none, none => a

/-- A cause met by an access of `n` bytes at `a`, of sweep index `index`. -/
def State.failAccess (s : State) (acc : Access) (c : Cause) (index : Nat) (a : Word) (n : Nat) : State :=
  s.raiseAccess c index (s.dataAddr acc c a n)

/-- Bytes of an open strip that the scalar unit sees. -/
def Coro.shownBytes (c : Coro) : List (Nat × Byte) :=
  match c.strip with
  | none => []
  | some st => st.shown

/-! ## Loads and stores (R276 to R278) -/

/-- What one part of a load's or atomic's datum is written into when the instruction is stopped, with what its access needs to
be performed later (R227, R373). -/
def State.pendOf (s : State) (acc : Access) (dst : Nat → Nat → PendingDst) (op : Option (AtomOp × Nat × Nat)) (a : Word)
    (acq : Nat) (off : Nat) : List (Xlat × Nat) → List Pending
  | [] => []
  | (x, n) :: ps =>
    { dst := dst off n, addr := a, part := some (x, n), op := op, pages := s.pagesOf acc (a + w64 off) n, acq := acq,
      coro := s.issuer.coro, asid := s.issuer.asid, eslot := s.issuer.slot } ::
      State.pendOf s acc dst op a acq (off + n) ps

/-- A load: it waits, raises its cause, or writes its register and makes its acquire (R116, R278). -/
def State.loadOp (s : State) (d : Fin 32) (a : Word) (n : Nat) (signed : Bool) (acq : Nat) : State :=
  s.handlerRange a n (fun s =>
    match s.translateAccess s.me .read true a n with
    | .error c => s.failAccess .read c 0 a n
    | .ok ps =>
      let p := s.pendOf .read (.load d n signed) none a acq 0 ps
      match s.ask p (s.farReads none ps) with
      | some s1 => s1
      | none => match s.readOver s.issuer s.core.run.shownBytes ps with
        | .error .wait => s.setFlight (s.core.run.flightOr p)
        | .error (.cause c s1) => s1.failAccess .read c 0 a n
        | .ok (bs, s1) => (((s1.setS d (extBytes n signed bs)).acquire acq).landed).advance)

/-- Whether a store reaches the register that signals the host: it is a release at `.sys`, whatever its code (R124, R399). -/
def signalsHost (ps : List (Xlat × Nat)) : Bool := ps.any (fun p => p.1.target == .reg hostsigAt)

/-- A store of the low `n` bytes of a register, after its release, if it is one (R104, R114, R278). -/
def State.storeOp (s : State) (d : Fin 32) (a : Word) (n : Nat) (rel : Option Nat) : State :=
  s.handlerRange a n (fun s =>
    match s.translateAccess s.me .write true a n with
    | .error c => s.failAccess .write c 0 a n
    | .ok ps =>
      let r := if signalsHost ps then some 7 else rel
      let go (s : State) : State := s.released r (fun s =>
        match s.store s.issuer a (lowBytes n (s.getS d)) ps with
        | .wait s1 => s1
        | .cause c s1 => s1.failAccess .write c 0 a n
        | .ok () s1 => (((s1.performed r).modRun (·.hideShown ps)).landed).advance)
      if signalsHost ps then s.noStrip go else go s)

/-! ## Waiting loads (R119, R279) -/

/-- What a `.wp` load of bytes from `lo` up to but not including `hi` meets on a channel. -/
inductive WpGate where
  | below
  | passed
  | wait
  | range
  deriving DecidableEq, Repr

def Chan.gate (ch : Chan) (lo n : Nat) : WpGate :=
  let hi := lo + n
  let busy := ch.state != .idle
  if hi ≤ ch.dst.toNat then .below
  else if busy && !ch.contig then .wait
  else if hi ≤ ch.wp.toNat then .passed
  else if busy then .wait
  else .range

def State.loadWpOp (s : State) (d : Fin 32) (a : Word) (h : Fin 8) (n : Nat) : State :=
  match s.translateAccess s.me .read true a n with
  | .error c => s.failAccess .read c 0 a n
  | .ok _ => match (s.core.chans[h]).gate a.toNat n with
    | .wait => s
    | .range => s.raiseAt .wpOutOfRange 0 a
    | _ => s.loadOp d a n false 0

/-! ## Atomics (R288, R289) -/

/-- Whether an ordering code and scope make a release at `.core` or wider (R103, R127). -/
def wideRelease (o : Fin 4) (sc : Fin 8) : Bool := 2 ≤ o.val && sc != 0

/-- An ordering code's release and acquire, with their scope (R103). -/
def relOf (o : Fin 4) (sc : Fin 8) : Option Nat := if 2 ≤ o.val then some sc.val else none
def acqOf (o : Fin 4) (sc : Fin 8) : Nat := if o.val % 2 = 1 then sc.val else 0

/-- The pair's even member holds the operand, and its odd member the replacement; the odd member receives the old
value. A CAS that fails writes nothing (R289). -/
def State.atomApply (s : State) (d : Fin 16) (a : Word) (n : Nat) (op : AtomOp) (acq : Nat) : State :=
  match s.translateAccess s.me .atomic false a n with
  | .error c => s.failAccess .atomic c 0 a n
  | .ok ps =>
    let x := (s.getS (pairEven d)).toNat % 2 ^ (8 * n)
    let y := (s.getS (pairOdd d)).toNat % 2 ^ (8 * n)
    let p := s.pendOf .atomic (.load (pairOdd d) n false) (some (op, x, y)) a acq 0 ps
    match s.ask p (s.farReads (some (op, x, y)) ps) with
    | some s1 => s1
    | none =>
      match s.atomicDo s.issuer ((ps.map (·.1)).headD { target := .zero }) n (fun old => atomNew op n old x y) with
      | .wait _ => s.setFlight (s.core.run.flightOr p)
      | .cause c s1 => s1.failAccess .atomic c 0 a n
      | .ok old s1 =>
        let s2 := if (atomNew op n old x y).isSome then s1.modRun (·.hideShown ps) else s1
        (((s2.setS (pairOdd d) (w64 old)).acquire acq).landed).advance

def State.atomOp (s : State) (g : Guard) (d : Fin 16) (a : Fin 32) (sc : Fin 8) (o : Fin 4) (w : Bool) (op : AtomOp) : State :=
  s.guarded g (fun s =>
    let n := if w then 8 else 4
    let at_ := s.getS a
    let go (s : State) : State :=
      s.handlerRange at_ n (fun s =>
        if at_.toNat % n != 0 then s.raiseAt .atomicMisaligned 0 at_
        else match s.translateAccess s.me .atomic false at_ n with
          | .error c => s.failAccess .atomic c 0 at_ n
          | .ok _ => s.released (relOf o sc) (fun s => s.atomApply d at_ n op (acqOf o sc)))
    if wideRelease o sc then s.noStrip go else go s)

/-! ## Meanings -/

def execLdB64 (g : Guard) (d a : Fin 32) (i : BitVec 9) (s : State) : Res :=
  .next (s.guarded g (fun s => s.loadOp d (s.addr a i 8) 8 false 0))
def execLdB32 (g : Guard) (d a : Fin 32) (i : BitVec 9) (s : State) : Res :=
  .next (s.guarded g (fun s => s.loadOp d (s.addr a i 4) 4 false 0))
def execStB64 (g : Guard) (d a : Fin 32) (i : BitVec 9) (s : State) : Res :=
  .next (s.guarded g (fun s => s.storeOp d (s.addr a i 8) 8 none))
def execStB32 (g : Guard) (d a : Fin 32) (i : BitVec 9) (s : State) : Res :=
  .next (s.guarded g (fun s => s.storeOp d (s.addr a i 4) 4 none))
def execLdB8 (g : Guard) (d a : Fin 32) (i : BitVec 6) (s : State) : Res :=
  .next (s.guarded g (fun s => s.loadOp d (s.addr a i 1) 1 false 0))
def execLdB16 (g : Guard) (d a : Fin 32) (i : BitVec 6) (s : State) : Res :=
  .next (s.guarded g (fun s => s.loadOp d (s.addr a i 2) 2 false 0))
def execLdI8 (g : Guard) (d a : Fin 32) (i : BitVec 6) (s : State) : Res :=
  .next (s.guarded g (fun s => s.loadOp d (s.addr a i 1) 1 true 0))
def execLdI16 (g : Guard) (d a : Fin 32) (i : BitVec 6) (s : State) : Res :=
  .next (s.guarded g (fun s => s.loadOp d (s.addr a i 2) 2 true 0))
def execLdI32 (g : Guard) (d a : Fin 32) (i : BitVec 6) (s : State) : Res :=
  .next (s.guarded g (fun s => s.loadOp d (s.addr a i 4) 4 true 0))
def execStB8 (g : Guard) (d a : Fin 32) (i : BitVec 6) (s : State) : Res :=
  .next (s.guarded g (fun s => s.storeOp d (s.addr a i 1) 1 none))
def execStB16 (g : Guard) (d a : Fin 32) (i : BitVec 6) (s : State) : Res :=
  .next (s.guarded g (fun s => s.storeOp d (s.addr a i 2) 2 none))

/-- The offset of a `.wp` load is imm4 × size, signed (R279). -/
def execLdWp (g : Guard) (d a : Fin 32) (h : Fin 8) (w : Fin 4) (i : BitVec 4) (s : State) : Res :=
  .next (s.guarded g (fun s => s.loadWpOp d (s.addr a i (widthOf w)) h (widthOf w)))

def execLdAcq (g : Guard) (d a : Fin 32) (sc : Fin 8) (w : Fin 4) (i : BitVec 2) (s : State) : Res :=
  .next (s.guarded g (fun s => s.loadOp d (s.addr32 a i) (widthOf w) false sc.val))

/-- A release at `.core` or wider raises STRIP_SYNC inside an open strip (R127). -/
def execStRel (g : Guard) (d a : Fin 32) (sc : Fin 8) (w : Fin 4) (i : BitVec 2) (s : State) : Res :=
  .next (s.guarded g (fun s =>
    let go (s : State) : State := s.storeOp d (s.addr32 a i) (widthOf w) (some sc.val)
    if sc = 0 then go s else s.noStrip go))

def execAtomAdd (g : Guard) (d : Fin 16) (a : Fin 32) (sc : Fin 8) (o : Fin 4) (w : Bool) (s : State) : Res :=
  .next (s.atomOp g d a sc o w .add)
def execAtomMin (g : Guard) (d : Fin 16) (a : Fin 32) (sc : Fin 8) (o : Fin 4) (w : Bool) (s : State) : Res :=
  .next (s.atomOp g d a sc o w .min)
def execAtomMax (g : Guard) (d : Fin 16) (a : Fin 32) (sc : Fin 8) (o : Fin 4) (w : Bool) (s : State) : Res :=
  .next (s.atomOp g d a sc o w .max)
def execAtomMinu (g : Guard) (d : Fin 16) (a : Fin 32) (sc : Fin 8) (o : Fin 4) (w : Bool) (s : State) : Res :=
  .next (s.atomOp g d a sc o w .minu)
def execAtomMaxu (g : Guard) (d : Fin 16) (a : Fin 32) (sc : Fin 8) (o : Fin 4) (w : Bool) (s : State) : Res :=
  .next (s.atomOp g d a sc o w .maxu)
def execAtomAnd (g : Guard) (d : Fin 16) (a : Fin 32) (sc : Fin 8) (o : Fin 4) (w : Bool) (s : State) : Res :=
  .next (s.atomOp g d a sc o w .and)
def execAtomOr (g : Guard) (d : Fin 16) (a : Fin 32) (sc : Fin 8) (o : Fin 4) (w : Bool) (s : State) : Res :=
  .next (s.atomOp g d a sc o w .or)
def execAtomXor (g : Guard) (d : Fin 16) (a : Fin 32) (sc : Fin 8) (o : Fin 4) (w : Bool) (s : State) : Res :=
  .next (s.atomOp g d a sc o w .xor)
def execAtomSwap (g : Guard) (d : Fin 16) (a : Fin 32) (sc : Fin 8) (o : Fin 4) (w : Bool) (s : State) : Res :=
  .next (s.atomOp g d a sc o w .swap)
def execAtomCas (g : Guard) (d : Fin 16) (a : Fin 32) (sc : Fin 8) (o : Fin 4) (w : Bool) (s : State) : Res :=
  .next (s.atomOp g d a sc o w .cas)

end Sys2Proof.Machine
end

