-- ==== Sys2Proof/Machine/Starter.lean ====
section
/-! DEFINITION. Launches, queues, the starter and code objects (spec/14_scheduling.md R341 to R357, spec/12 R323, R324,
spec/06 R162, R163, spec/08 R222 to R224): major 0x36, and the starter's own steps. -/

namespace Sys2Proof.Machine

/-! ## Records (R341, R342) -/

/-- `n` bytes at offset `o` of a record, as a number. -/
def recField (bs : List Byte) (o n : Nat) : Nat := leNat ((bs.drop o).take n)

/-- Level checks (R342): no present level after an absent one, at most 4 temporal, at most 16 dies. -/
def levelsGood (ls : List (Nat × Nat)) : Bool :=
  ls.all (fun l => l.1 < 4) && (ls.dropWhile (fun l => l.1 != 0)).all (fun l => l.1 == 0) &&
    (ls.filter (fun l => l.1 == 1)).length ≤ 4 &&
    ((ls.filter (fun l => l.1 == 3)).map (·.2)).prod ≤ 16

/-- Levels given by the record itself. -/
def recLevels (bs : List Byte) : List (Nat × Nat) :=
  (List.range 6).map (fun j => (recField bs 10 2 / 4 ^ j % 4, recField bs (24 + 4 * j) 4))

/-- The bytes that must be zero in a record of a type (Table 1, Table 2). -/
def recReserved (bs : List Byte) : Bool :=
  let z (o n : Nat) : Bool := recField bs o n == 0
  let f := recField bs 3 1
  match recField bs 0 1 with
  | 1 => z 12 4 && z 120 8 && f % 128 / 8 % 2 == 0 && f < 128 && recField bs 10 2 < 4096
  | 2 => f == 0 && z 6 2 && z 8 8 && z 32 64 && z 104 8 && z 120 8
  | 3 => f / 128 == 0 && f % 16 == 0 && z 6 2 && z 8 40 && z 104 8 && z 120 8
  | 4 => f / 128 == 0 && f % 16 == 0 && z 4 4 && z 8 8 && z 26 22 && z 104 8 && z 120 8
  | _ => false

/-- The dependences that a record names. -/
def recDeps (bs : List Byte) : List (Word × BitVec 32) :=
  if recField bs 0 1 = 2 then []
  else (List.range (recField bs 3 1 / 16 % 8)).map (fun i =>
    (w64 (recField bs (48 + 8 * i) 8), BitVec.ofNat 32 (recField bs (80 + 4 * i) 4)))

/-- The record as the starter copies it, before it has a sequence number. -/
def parseRec (bs : List Byte) : QRec where
  seq := 0
  type := recField bs 0 1
  queue := recField bs 1 1
  prio := recField bs 2 1
  flags := recField bs 3 1
  code := recField bs 4 2
  asid := BitVec.ofNat 16 (recField bs 6 2)
  entry := recField bs 8 2
  levels := recLevels bs
  pc := 0
  arg := w64 (recField bs 16 8)
  deps := recDeps bs
  sbaton := w64 (recField bs 16 8)
  amount := recField bs 24 2
  cbaton := w64 (recField bs 96 8)
  cwaddr := w64 (recField bs 104 8)
  tag := w64 (recField bs 112 8)
  state := .queued
  passed := 0
  heldFor := 0
  blocking := false
  ncoro := 0
  alive := 0
  killed := false
  fflags := 0

/-- A handle that a record may name: live, of this module; the privileged issuer may name it (R130, R132). -/
def State.recHandle (s : State) (h : Word) : Bool := s.liveHere h

/-- Stage 1 of R342: whether the record alone is good. -/
def State.recGood (s : State) (bs : List Byte) : Bool :=
  let r := parseRec bs
  let launch := r.type == 1
  decide (1 ≤ r.type) && decide (r.type ≤ 4) && decide (r.queue < 64) && (s.qcfg r.queue).en && decide (r.prio ≤ 31) &&
    decide (r.flags / 16 % 8 ≤ 4) && recReserved bs && (r.type == 4 || decide (r.code < 1024)) &&
    r.deps.all (fun d => s.recHandle d.1) && (r.cbaton == 0 || s.recHandle r.cbaton) &&
    (r.type != 4 || s.recHandle r.sbaton) &&
    (!launch || (s.asidEn && s.asidEntry r.asid.toNat % 4 == 1)) &&
    (!launch || r.cwaddr == 0 || (r.cwaddr.toNat % 8 == 0 && !isNear r.cwaddr)) &&
    (!launch || (if bitAt r.flags 1 then r.levels.all (fun l => l == (0, 0)) else levelsGood r.levels))

/-! ## Images (R222 to R224, R354) -/

/-- `n` records of `size` bytes from address `a` on, or why reading stops. -/
def State.readTable (s : State) (who : Who) (iss : Issuer) (a : Word) (size : Nat) :
    Nat → Except Stop (List (List Byte) × State)
  | 0 => .ok ([], s)
  | n + 1 => match s.loadAs who iss a size with
    | .error e => .error e
    | .ok (b, s1) => match State.readTable s1 who iss (a + w64 size) size n with
      | .error e => .error e
      | .ok (bs, s2) => .ok (b :: bs, s2)

/-- Whether a header is one that a load accepts: its magic and its version (R222, R224). DESIGN CHOICE (log 93): a wrong MAGIC is
refused too, and bytes 6 and 7 and the alignment of the table offsets are not looked at. -/
def headerGood (h : List Byte) : Bool :=
  recField h 0 4 == 0x4E594C50 && recField h 4 1 == 3 && recField h 5 1 == 0

/-- Whether a section lies within SIZE. -/
def sectionGood (size : Nat) (b : List Byte) : Bool := recField b 8 8 + recField b 16 8 ≤ size

/-- An entry's start address and levels; none when it names no section, or lies outside SIZE. DESIGN CHOICE (log 93): its level
word is not looked at here; a kind above 3 or a nonzero bit 31..8 fails the level checks of a launch with DEFLOOP (R223). -/
def entryOf (image : Word) (size : Nat) (secs : List (List Byte)) (b : List Byte) : Option (Word × List (Nat × Nat)) :=
  match secs[recField b 4 4]? with
  | none => none
  | some sec =>
    if size ≤ recField sec 8 8 + recField b 8 8 then none
    else some (image + w64 (recField sec 8 8) + w64 (recField b 8 8),
      (List.range 6).map (fun j =>
        let w := recField b (16 + 8 * j) 8
        (if bits w 31 8 = 0 then bits w 7 0 else 4, bits w 63 32)))

/-- The entries of an image; none where R354 refuses it. -/
def State.readImage (s : State) (who : Who) (iss : Issuer) (image : Word) (size : Nat) :
    Except Stop (Option (List (Word × List (Nat × Nat))) × State) :=
  match s.loadAs who iss image 64 with
  | .error e => .error e
  | .ok (h, s1) =>
    let ns := recField h 8 4
    let ne := recField h 12 4
    let so := recField h 24 8
    let eo := recField h 32 8
    if !headerGood h || size < so + 32 * ns || size < eo + 64 * ne then .ok (none, s1)
    else match s1.readTable who iss (image + w64 so) 32 ns with
      | .error e => .error e
      | .ok (secs, s2) => match s2.readTable who iss (image + w64 eo) 64 ne with
        | .error e => .error e
        | .ok (ents, s3) =>
          let es := ents.map (entryOf image size secs)
          .ok (if secs.all (sectionGood size) && es.all Option.isSome then some (es.filterMap id) else none, s3)

/-! ## Completion (R351) -/

/-- The completion word (Table 5). -/
def QRec.completionWord (r : QRec) (status : Nat) : Nat :=
  r.ncoro % 2 ^ 32 * 2 ^ 32 + status * 2 ^ 16 + r.fflags.toNat

/-- The store of the completion word: a failure makes an advisory record of die 0; none where it waits. -/
def State.storeCompletion (s : State) (r : QRec) (status : Nat) : Option State :=
  if r.type != 1 || r.cwaddr == 0 then some s
  else match s.storeAs (s.agent r.asid (bitAt r.flags 0)) ⟨0, r.asid.toNat, s.slotOf r.asid.toNat, .device⟩ r.cwaddr
      (leBytes 8 (r.completionWord status)) with
    | .error .wait => none
    | .error (.cause c _) =>
      some (s.appendRecord 0 false (advisory 4 c.code 0 0 0 0 0 (w64 (r.seq * 256)) r.cwaddr 0))
    | .ok s1 => some s1

/-- The record leaves the starter: completion word, complete entry, and CBATON, error-signalled with `err`; none where
the store must wait. -/
def State.completeRec (s : State) (r : QRec) (status : Nat) (err : Option Nat) : Option State :=
  (s.storeCompletion r status).map (fun s1 =>
    let s2 := s1.journal r 4 status
    let s3 := { s2 with starter := { s2.starter with recs := s2.starter.recs.filter (·.seq != r.seq) } }
    let s4 := s3.releaseBaton r.cbaton
    (match err with
      | none => s4.deviceSignal r.cbaton 1
      | some e => s4.deviceErr r.cbaton e).askStarter)

/-- The record leaves its queue: its dependence batons are free to go, and an unload's queue takes launches again. -/
def State.unqueue (s : State) (r : QRec) : State :=
  let s1 := r.deps.foldl (fun t d => t.releaseBaton d.1) s
  if r.type != 3 then s1
  else { s1 with starter := { s1.starter with objs := s1.starter.objs.map (fun (o : CodeObj) =>
      if o.num = r.code then { o with closed := o.closed.erase r.queue } else o) } }

/-! ## Accepting (R343, R354) -/

/-- The next sequence number, the accept entry and the references on the batons that the record names (R133). -/
def State.accept (s : State) (r : QRec) : QRec × State :=
  let q := { r with seq := s.starter.jno + 1 }
  let s1 := s.journal q 1 0
  let s2 := q.deps.foldl (fun t d => t.holdBaton d.1) (s1.holdBaton q.cbaton)
  (q, if q.type = 4 then s2.holdBaton q.sbaton else s2)

/-- A record that waits in its queue; one whose dependence has failed already completes at once (R345). -/
def State.enqueue (s : State) (r : QRec) : QRec × State :=
  let a := s.accept r
  let s1 := { a.2 with starter := { a.2.starter with
    recs := a.2.starter.recs ++ [a.1]
    objs := if r.type != 3 then a.2.starter.objs
      else a.2.starter.objs.map (fun (o : CodeObj) => if o.num = r.code then { o with closed := r.queue :: o.closed } else o) } }
  (a.1, (if r.deps.any (fun d => (s1.baton (handleKey d.1)).err != 0) then s1.push (.dependenceFailed a.1.seq)
    else s1).askStarter)

/-- The object after a load by queue `q` (R354, Table 8). -/
def State.holdObj (s : State) (o : CodeObj) (q : Nat) : State :=
  let o1 := if o.holders.contains q then o else { o with holders := q :: o.holders }
  { s with starter := { s.starter with objs := o1 :: s.starter.objs.filter (·.num != o.num) } }

/-- What `launch` answers: its word, or that it waits. -/
abbrev Answer := Option (Word × State)

/-- A load record (R354, R355): read under the issuer's address space, it completes at acceptance. -/
def State.acceptLoad (s : State) (bs : List Byte) : Answer :=
  let r := parseRec bs
  let image := r.arg
  let size := recField bs 24 8
  let bad : Answer := some (0x02, s)
  if image.toNat % 4096 != 0 || isNear image then bad
  else match s.readImage { s.me with core := none } { s.issuer with via := .device } image size with
    | .error .wait => none
    | .error (.cause _ _) => bad
    | .ok (none, _) => bad
    | .ok (some es, s1) =>
      let old := s.findObj r.code
      let load (o : CodeObj) : Answer :=
        let a := (s1.holdObj o r.queue).accept r
        (a.2.completeRec a.1 0 none).map (fun t => (w64 (a.1.seq * 256), t))
      match old with
      | none => load ⟨r.code, false, image, size, es, [], []⟩
      | some o =>
        if o.pending then some (0x03, s)
        else if o.image != image || o.size != size then bad
        else load o

/-- Whether a queue holds an object that is not unload pending. -/
def holdsObj (o : CodeObj) (q : Nat) : Bool := !o.pending && o.holders.contains q

/-- A launch whose object its queue holds: stage 4 of R342. -/
def State.acceptLaunch (s : State) (r : QRec) (o : CodeObj) : Word × State :=
  match o.entries[r.entry]? with
  | none => (0x02, s)
  | some (pc, ls) =>
    let levels := if bitAt r.flags 1 then ls else r.levels
    if !levelsGood levels then (0x02, s)
    else
      let a := s.enqueue { r with pc := pc, levels := levels }
      (w64 (a.1.seq * 256), a.2)

/-- The four stages of R342. -/
def State.submit (s : State) (bs : List Byte) : Answer :=
  let r := parseRec bs
  if s.sys.scrub || !s.recGood bs then some (0x02, s)
  else if r.type = 2 then s.acceptLoad bs
  else if (s.qcfg r.queue).depth.toNat + 1 ≤ s.occ r.queue then some (0x01, s)
  else if r.type = 4 then
    let a := s.enqueue r
    some (w64 (a.1.seq * 256), a.2)
  else match s.findObj r.code with
    | none => some (0x03, s)
    | some o =>
      if !holdsObj o r.queue || (r.type == 1 && o.closed.contains r.queue) then some (0x03, s)
      else if r.type = 1 then some (s.acceptLaunch r o)
      else
        let a := s.enqueue r
        some (w64 (a.1.seq * 256), a.2)

/-- `launch`, after its release at `.mod` (R323). -/
def State.launchOp (s : State) (d : Fin 32) (a : Word) : State :=
  s.released (some 4) (fun s =>
    if a.toNat % 128 != 0 then (s.setS d 0x02).advance
    else match s.load s.me s.issuer true a 128 with
      | .wait s1 => s1
      | .cause c s1 => s1.failAccess .read c 0 a 128
      | .ok bs s1 => match s1.submit bs with
        | none => s
        | some (w, s2) => ((s2.setS d w).landed).advance)

/-! ## Conditions and candidates (R345, R346) -/

/-- Whether a record's conditions hold. -/
def State.condition (s : State) (r : QRec) : Bool :=
  r.deps.all (fun d =>
    let b := s.baton (handleKey d.1)
    b.err == 0 && satisfied b.count d.2) &&
    (r.type == 1 || s.starter.recs.all (fun x => x.queue != r.queue || r.seq ≤ x.seq))

/-- The record that comes first: of highest PRIO, and of lowest SEQ among equals. -/
def bestRec : List QRec → Option QRec
  | [] => none
  | r :: rs => match bestRec rs with
    | none => some r
    | some x => some (if x.prio < r.prio || (x.prio == r.prio && r.seq < x.seq) then r else x)

/-- The oldest of a list. -/
def oldestRec : List QRec → Option QRec
  | [] => none
  | r :: rs => match oldestRec rs with
    | none => some r
    | some x => some (if r.seq < x.seq then r else x)

/-- The candidate of a queue. -/
def State.candidate (s : State) (q : Nat) : Option QRec :=
  let mine := s.starter.recs.filter (fun r => r.queue == q && r.state == .queued)
  if (s.qcfg q).free then bestRec (mine.filter s.condition)
  else match oldestRec mine with
    | none => none
    | some r => if s.condition r then some r else none

/-- A list sorted by insertion: `le` says which of two comes first. -/
def insertBy {α : Type} (le : α → α → Bool) (x : α) : List α → List α
  | [] => [x]
  | y :: ys => if le x y then x :: y :: ys else y :: insertBy le x ys
def sortBy {α : Type} (le : α → α → Bool) (xs : List α) : List α := xs.foldr (insertBy le) []

/-- E of a candidate. -/
def QRec.eff (r : QRec) : Nat := min 31 (r.prio + r.passed / 65536)

/-- A launch held in 65,536 consecutive decisions blocks (R348). -/
def QRec.blocks (r : QRec) : Bool := r.blocking || 65536 ≤ r.heldFor

/-- The place of a queue in the round-robin order at some E. -/
def State.robin (s : State) (r : QRec) : Nat :=
  let last := ((s.starter.lastQ.find? (·.1 = r.eff)).map (·.2)).getD 63
  (r.queue + 63 - last) % 64

/-- Candidates in the order in which a decision takes them. -/
def State.candidates (s : State) : List QRec :=
  sortBy (fun a b => if a.eff != b.eff then decide (b.eff < a.eff) else decide (s.robin a ≤ s.robin b))
    ((List.range 64).filterMap s.candidate)

/-! ## The coroutines of a launch (R163) -/

/-- The indices of the spatial levels for linear index `lin`, one for each level, 0 for the others. -/
def levelIndices (ls : List (Nat × Nat)) (lin : Nat) : List Nat :=
  (ls.foldr (fun l (acc : List Nat × Nat) =>
    if l.1 = 2 || l.1 = 3 then (acc.2 % max 1 l.2 :: acc.1, acc.2 / max 1 l.2) else (0 :: acc.1, acc.2)) ([], lin)).1

/-- The die index of those indices, and the index among the coroutines of the die. -/
def mixed (ls : List (Nat × Nat)) (kind : Nat) (ix : List Nat) : Nat :=
  (ls.zip ix).foldl (fun n l => if l.1.1 = kind then n * l.1.2 + l.2 else n) 0

/-- The trip counts of the temporal levels, the innermost first. -/
def loopCounts (ls : List (Nat × Nat)) : List Nat := ((ls.filter (fun l => l.1 == 1)).map (·.2)).reverse

/-- The coroutine of a launch with linear index `lin`, before it has a number (R163). -/
def QRec.coro (r : QRec) (lanes lin : Nat) : Coro :=
  let c := Coro.fresh lanes
  let ix := levelIndices r.levels lin
  let lcs := loopCounts r.levels
  { c with
    priv := bitAt r.flags 0
    asid := r.asid
    launch := r.seq
    obj := some r.code
    s := Vector.ofFn (fun i : Fin 32 =>
      if i.val = 1 then r.arg
      else if i.val = 2 then w64 lin
      else if 3 ≤ i.val && i.val < 9 then w64 (ix.getD (i.val - 3) 0)
      else 0)
    pc := r.pc
    prio := BitVec.ofNat 5 r.prio
    ceil := BitVec.ofNat 5 r.prio
    lc := Vector.ofFn (fun i : Fin 4 => BitVec.ofNat 32 (lcs.getD i.val 0)) }

/-! ## Placement (R162, R347) -/

/-- Coroutines of launches on a core: each fills a slot. -/
def Core.slotsUsed (c : Core) : Nat := (c.allCoros.filter (fun k => k.launch != 0)).length

/-- How many new contexts such as that of `k`, `n` at most, the call room and the spill region take, from `stamp` on (R164,
R170, R171). -/
def Core.roomFor (k : Coro) : Nat → Nat → Core → Nat
  | 0, _, _ => 0
  | n + 1, stamp, c =>
    match c.placeContext { k.smallContext with
      cnum := BitVec.ofNat 10 (c.freeNumber c.allCoros.length 0), lastRun := stamp, since := stamp } with
    | none => 0
    | some c1 => Core.roomFor k n (stamp + 1) c1 + 1

/-- Whether a core takes launches at all (R378, R380). -/
def Core.takes (c : Core) : Bool := c.inService && c.lanes != 0

/-- Free slots of a core for coroutines such as `k`. -/
def Core.freeSlots (c : Core) (k : Coro) (stamp slots : Nat) : Nat :=
  if !c.takes then 0 else c.roomFor k (min (slots - c.slotsUsed) (1024 - c.allCoros.length)) stamp

/-- The cores of a die in the order in which the starter considers them (log 10). -/
def State.dieCores (s : State) (die : Nat) : List Nat :=
  let k := Config.freeCore s.fresh % 384
  (List.range 384).map (fun i => die * 384 + (i + k) % 384)

/-- Placements on free slots, round by round, so that cores are shared only once each has one (R162). -/
def spread (free : List (Nat × Nat)) (round : Nat) : Nat → List Nat
  | 0 => []
  | n + 1 => (free.filter (fun f => round < f.2)).map (·.1) ++ spread free (round + 1) n

/-- The PRIO of the running coroutine of a core that step 3 of R347 may use: it takes one context more than its free
slots. -/
def Core.pushable (c : Core) (k : Coro) (stamp prio free : Nat) : Option Nat :=
  match c.current with
  | some x =>
    if c.takes && c.liveness == .running && x.prio.toNat < prio && c.allCoros.length + free < 1024 &&
        c.roomFor k (free + 1) stamp == free + 1 then some x.prio.toNat
    else none
  | none => none

/-- Cores for the coroutines of one die index, with those that are pre-empted last, and how many these are; none when
they do not fit. -/
def State.placeOn (s : State) (r : QRec) (die n : Nat) : Option (List Nat × Nat) :=
  let free := (s.dieCores die).map (fun id =>
    let c := s.coreAt id
    (id, c.freeSlots (r.coro c.lanes 0) s.stamp s.starter.stcap.toNat))
  let total := (free.map (·.2)).sum
  if n ≤ total then some ((spread free 0 n).take n, 0)
  else
    let push := sortBy (fun (a b : Nat × Nat) => if a.1 != b.1 then decide (a.1 < b.1) else decide (a.2 ≤ b.2))
      (free.filterMap (fun f =>
        let c := s.coreAt f.1
        (c.pushable (r.coro c.lanes 0) s.stamp r.prio f.2).map (fun p => (p, f.1))))
    let short := n - total
    if push.length < short then none
    else some ((spread free 0 total).take total ++ (push.take short).map (·.2), short)

/-- Every die index on a die of its own: `left` of them still to place, on dies not used yet. -/
def State.placeDies (s : State) (r : QRec) (n : Nat) : Nat → List Nat → Option (List (List Nat × Nat))
  | 0, _ => some []
  | left + 1, dies =>
    match dies.find? (fun d => (s.placeOn r d n).isSome) with
    | none => none
    | some d => match s.placeOn r d n with
      | none => none
      | some p => (State.placeDies s r n left (dies.filter (· != d))).map (p :: ·)

/-- Counts of the levels of a kind multiplied. -/
def levelCount (ls : List (Nat × Nat)) (k : Nat) : Nat := ((ls.filter (fun l => l.1 == k)).map (·.2)).prod

/-- The placement of a launch; none when it does not place. -/
def State.place (s : State) (r : QRec) : Option (List (List Nat × Nat)) :=
  let nd := levelCount r.levels 3
  let nc := levelCount r.levels 2
  if nd * nc = 0 then some []
  else
    let k := Config.freeDie s.fresh % 16
    s.placeDies r nc nd ((List.range 16).map (fun i => (i + k) % 16))

/-! ## Dispatch (R349) -/

/-- The coroutines of a launch begin as if resumed from each dependence baton: the core makes the acquires (R116, R122). -/
def State.acquireDeps (s : State) (r : QRec) : State :=
  r.deps.foldl (fun t d => t.acquire (t.batonScope d.1)) s

/-- One coroutine created on core `id`; on a core that is pre-empted for it, it is selected next (R174, R349). -/
def State.createOn (s : State) (r : QRec) (lin id : Nat) (push : Bool) : State :=
  let made := s.onCore id (fun t =>
    match (t.acquireDeps r).addCoro (r.coro t.core.lanes lin) with
    | none => t
    | some (n, t1) => if push then t1.modCore (fun c => { c with first := some n }) else t1)
  if push then made.push (.preemption id ⟨.starter, []⟩) else made

/-- The coroutines of a launch from linear index `lin` on, `n` of them. -/
def State.createAll (s : State) (r : QRec) (plan : List (List Nat × Nat)) (lin : Nat) : Nat → State
  | 0 => s
  | n + 1 =>
    let ix := levelIndices r.levels lin
    let die := plan.getD (mixed r.levels 3 ix) ([], 0)
    let k := mixed r.levels 2 ix
    State.createAll (s.createOn r lin (die.1.getD k 0) (decide (die.1.length - die.2 ≤ k))) r plan (lin + 1) n

/-- A launch dispatches. -/
def State.dispatchLaunch (s : State) (r : QRec) (plan : List (List Nat × Nat)) : State :=
  let n := levelCount r.levels 2 * levelCount r.levels 3
  let r1 := { r with state := .running, ncoro := n, alive := n }
  let s1 := { s.setRec r1 with fresh := s.fresh + 1 }
  if n = 0 then
    match s1.completeRec r1 0 none with
    | some t => t.askUnloads
    | none => s1.push (.launchCompletion r.seq)
  else s1.createAll r1 plan 0 n

/-- An unload dispatches (R357): its queue's load reference goes. -/
def State.dispatchUnload (s : State) (r : QRec) : State :=
  match s.findObj r.code with
  | none => (s.completeRec r 0 none).getD s
  | some o =>
    let hs := o.holders.erase r.queue
    let o1 := { o with holders := hs, pending := o.pending || hs.isEmpty }
    let s1 := s.setRec { r with state := .unloading }
    ({ s1 with starter := { s1.starter with objs := s1.starter.objs.map (fun (x : CodeObj) => if x.num = o.num then o1 else x) } }
      ).askUnloads

/-- A candidate that places dispatches (R346, R349). -/
def State.dispatch (s : State) (r : QRec) (plan : List (List Nat × Nat)) : State :=
  let t := s.starter
  let s1 := ({ s with starter := { t with lastQ := (r.eff, r.queue) :: t.lastQ.filter (·.1 != r.eff) } }).unqueue r
  let s2 := s1.journal r 2 0
  match r.type with
  | 1 => s2.dispatchLaunch r plan
  | 3 => s2.dispatchUnload r
  | _ => (((s2.releaseBaton r.sbaton).deviceSignal r.sbaton r.amount).completeRec r 0 none).getD s2

/-- The candidates taken in order: the record that dispatches, with its placement. -/
def State.takeFirst (s : State) (block : Option Nat) : List QRec → Option (QRec × List (List Nat × Nat))
  | [] => none
  | r :: rs =>
    if (match block with
      | some e => decide (r.eff < e)
      | none => false) then none
    else match (if r.type = 1 then s.place r else some []) with
      | some p => some (r, p)
      | none => State.takeFirst s block rs

/-- The highest E of the blocking candidates. -/
def blockLevel (cs : List QRec) : Option Nat :=
  (cs.filter QRec.blocks).foldl (fun o r => match o with
    | none => some r.eff
    | some e => some (max e r.eff)) none

/-- Whether a launch is held in a decision: its conditions hold, it is a candidate or was held in the decision before, and
it does not place; whether the decision came to it does not matter (R346, R348). -/
def State.holds (s : State) (cs : List QRec) (r : QRec) : Bool :=
  r.type == 1 && r.state == .queued && (r.heldFor != 0 || cs.any (·.seq == r.seq)) && s.condition r && (s.place r).isNone

/-- The launches held once more, and those held no longer; one held in 65,536 decisions in a row becomes blocking, and stays
so (R348). -/
def State.holdRecs (s : State) (cs : List QRec) : State :=
  let up (r : QRec) : QRec :=
    if s.holds cs r then { r with heldFor := r.heldFor + 1 }
    else if 65536 ≤ r.heldFor then r else { r with heldFor := 0 }
  let now := s.starter.recs.filter (fun r => s.holds cs r && r.heldFor + 1 == 65536)
  let s1 := { s with starter := { s.starter with recs := s.starter.recs.map up } }
  now.foldl (fun t r => t.push (.launchBlocking r.seq)) s1

/-- Whether a launch is held. -/
def State.anyHeld (s : State) : Bool := s.starter.recs.any (fun r => r.state == .queued && r.heldFor != 0)

/-- A decision (R346). -/
def State.decision (s : State) : State :=
  let cs := s.candidates
  let s1 := s.holdRecs cs
  match s.takeFirst (blockLevel cs) cs with
  | none => s1
  | some (r, plan) =>
    let others := cs.filter (fun c => c.seq != r.seq)
    let up (y : QRec) : QRec := if others.any (fun c => c.seq == y.seq) then { y with passed := y.passed + 1 } else y
    let s2 := { s1 with starter := { s1.starter with recs := s1.starter.recs.map up } }
    (s2.dispatch r plan).askStarter

/-- While a launch is held, decisions come in every interval (R346). -/
def State.askTimed (s : State) : State :=
  if s.anyHeld && !s.agenda.contains .starterTimedDecision then s.push .starterTimedDecision else s

/-! ## Cancelling (R350) -/

/-- A queued record releases the batons that it names, but for CBATON (R133). -/
def State.unname (s : State) (r : QRec) : State :=
  let s1 := s.unqueue r
  if r.type = 4 then s1.releaseBaton r.sbaton else s1

/-- A queued record completes with `status`. -/
def State.endQueued (s : State) (r : QRec) (entry : Bool) (status : Nat) (err : Option Nat) : Option State :=
  let s2 := s.unname r
  let s3 := if entry then s2.journal r 3 0 else s2
  (s3.completeRec r status err).map State.askUnloads

def State.cancelOp (s : State) (d : Fin 32) (id : Word) : State :=
  match s.starter.recs.find? (fun r => w64 (r.seq * 256) == id) with
  | none => (s.setS d 0x05).advance
  | some r =>
    if r.state != .queued then (s.setS d 0x04).advance
    else match s.endQueued r true 2 none with
      | none => s
      | some s1 => (s1.setS d 0).advance

/-! ## Meanings -/

def execLaunch (g : Guard) (d a : Fin 32) (s : State) : Res :=
  .next (s.privileged (fun s => s.guarded g (fun s => s.noStrip (fun s => s.launchOp d (s.getS a)))))

def execCancel (g : Guard) (d a : Fin 32) (s : State) : Res :=
  .next (s.privileged (fun s => s.guarded g (fun s => s.cancelOp d (s.getS a))))

def execStarterDecision (s : State) : Res := .next s.decision.askTimed

/-- The decision of an interval of 1,024 clocks, made while a launch is held. -/
def execStarterTimedDecision (s : State) : Res := .next (if s.anyHeld then s.decision.askTimed else s)

/-- A launch held in 65,536 consecutive decisions becomes blocking (R348). -/
def execLaunchBlocking (seq : Nat) (s : State) : Res :=
  .next (match s.findRec seq with
    | none => s
    | some r => if r.state == .queued && 65536 ≤ r.heldFor then s.setRec { r with blocking := true } else s)

/-- A dependence baton has failed: the record completes with DEP_FAILED and its CBATON takes the code (R345). -/
def execDependenceFailed (seq : Nat) (s : State) : Res :=
  .next (match s.findRec seq with
    | none => s
    | some r =>
      let errs := (r.deps.map (fun d => (s.baton (handleKey d.1)).err.toNat)).filter (· != 0)
      match errs.head? with
      | none => s
      | some e =>
        if r.state != .queued then s
        else match s.endQueued r false 3 (some e) with
          | none => s.push (.dependenceFailed seq)
          | some s1 => s1)

/-- A launch whose last coroutine has ended completes (R351). -/
def execLaunchCompletion (seq : Nat) (s : State) : Res :=
  .next (match s.findRec seq with
    | none => s
    | some r =>
      if r.state != .running || r.alive != 0 then s
      else match s.completeRec r (bit01 r.killed) none with
        | none => s.push (.launchCompletion seq)
        | some s1 => s1.askUnloads)

/-- REFS of an unload-pending object has reached zero: the object is absent and its waiting unloads complete (R357). -/
def execUnloadComplete (obj : Nat) (s : State) : Res :=
  .next (match s.findObj obj with
    | none => s
    | some o =>
      if !o.pending || s.objRefs o != 0 then s
      else
        let done := s.starter.recs.filter (fun r => r.type == 3 && r.state == .unloading && r.code == obj)
        let s1 := { s with starter := { s.starter with objs := s.starter.objs.filter (·.num != obj) } }
        done.foldl (fun t r => (t.completeRec r 0 none).getD t) s1)

end Sys2Proof.Machine
end

