-- ==== Sys2Proof/WellFormed.lean ====
section
/-! DEFINITION. Which instructions a word can hold: the reserved operand values of spec/08_encoding.md R203, R205 and
R206, of spec/04_consistency.md R103 and of the instructions' own entries. A reserved bit needs no check here: an
instruction that `encode` writes has none set. Of a step without an encoding it says that its numbers name something. -/

namespace Sys2Proof

/-- NEG = 1 with GUARD = 7 is reserved (R203). -/
def Guard.ok (g : Guard) : Bool := !(g.neg && g.idx == 7)

/-- Naming g7 or m7 as a destination is reserved (R206 rule 4): a mask field, and a field of two (R230, R249). -/
def maskOk (d : Fin 8) : Bool := d != 7
def pairOk (d : Fin 64) : Bool := d.val % 8 != 7 && d.val / 8 != 7

/-- `fcvt`: both kinds integer, and both kinds the same, are reserved (R234). -/
def kindsOk (t sc : Fin 8) : Bool := !(t.val < 4 && sc.val < 4) && t != sc

/-- Ordering codes (R103): loads take 0 and 1, stores 0 and 2, atomics all; without order the scope is 0. -/
def loadOrder (o : Fin 4) (sc : Fin 8) : Bool := (o == 0 && sc == 0) || o == 1
def storeOrder (o : Fin 4) (sc : Fin 8) : Bool := (o == 0 && sc == 0) || o == 2
def atomOrder (o : Fin 4) (sc : Fin 8) : Bool := o != 0 || sc == 0

/-- The types that `mmk` and `mmga` permit: 4, 8, 9 and 12 to 15 (R205). -/
def productType (t : Fin 16) : Bool := t == 4 || t == 8 || t == 9 || 12 ≤ t.val

/-- The instruction's operand values are all permitted. -/
def Instr.wellFormed : Instr → Bool
  | .nop => true
  | .add g _ _ _ => g.ok
  | .sub g _ _ _ => g.ok
  | .and g _ _ _ => g.ok
  | .or g _ _ _ => g.ok
  | .xor g _ _ _ => g.ok
  | .sll g _ _ _ => g.ok
  | .srl g _ _ _ => g.ok
  | .sra g _ _ _ => g.ok
  | .mul g _ _ _ => g.ok
  | .mulh g _ _ _ => g.ok
  | .mulhu g _ _ _ => g.ok
  | .div g _ _ _ => g.ok
  | .divu g _ _ _ => g.ok
  | .rem g _ _ _ => g.ok
  | .remu g _ _ _ => g.ok
  | .min g _ _ _ => g.ok
  | .max g _ _ _ => g.ok
  | .minu g _ _ _ => g.ok
  | .maxu g _ _ _ => g.ok
  | .clz g _ _ => g.ok
  | .ctz g _ _ => g.ok
  | .popc g _ _ => g.ok
  | .rev g _ _ => g.ok
  | .sel g _ _ _ => g.ok
  | .bfx g _ _ _ => g.ok
  | .bfxs g _ _ _ => g.ok
  | .bfi g _ _ _ => g.ok
  | .cmpEq g d _ _ => g.ok && pairOk d
  | .cmpNe g d _ _ => g.ok && pairOk d
  | .cmpLt g d _ _ => g.ok && pairOk d
  | .cmpLtu g d _ _ => g.ok && pairOk d
  | .cmpLe g d _ _ => g.ok && pairOk d
  | .cmpLeu g d _ _ => g.ok && pairOk d
  | .gand g d _ _ => g.ok && pairOk d
  | .gor g d _ _ => g.ok && pairOk d
  | .addi g _ _ _ => g.ok
  | .andi g _ _ _ => g.ok
  | .ori g _ _ _ => g.ok
  | .xori g _ _ _ => g.ok
  | .slli g _ _ _ => g.ok
  | .srli g _ _ _ => g.ok
  | .srai g _ _ _ => g.ok
  | .li g _ _ => g.ok
  | .lis g _ _ => g.ok
  | .loop g _ _ => g.ok
  | .faddF64 g _ _ _ => g.ok
  | .fsubF64 g _ _ _ => g.ok
  | .fmulF64 g _ _ _ => g.ok
  | .fdivF64 g _ _ _ => g.ok
  | .fminF64 g _ _ _ => g.ok
  | .fmaxF64 g _ _ _ => g.ok
  | .fmaF64 g _ _ _ => g.ok
  | .fsqrtF64 g _ _ => g.ok
  | .faddF32 g _ _ _ => g.ok
  | .fsubF32 g _ _ _ => g.ok
  | .fmulF32 g _ _ _ => g.ok
  | .fdivF32 g _ _ _ => g.ok
  | .fminF32 g _ _ _ => g.ok
  | .fmaxF32 g _ _ _ => g.ok
  | .fmaF32 g _ _ _ => g.ok
  | .fsqrtF32 g _ _ => g.ok
  | .fcmpEqF64 g d _ _ => g.ok && pairOk d
  | .fcmpLtF64 g d _ _ => g.ok && pairOk d
  | .fcmpLeF64 g d _ _ => g.ok && pairOk d
  | .fcmpEqF32 g d _ _ => g.ok && pairOk d
  | .fcmpLtF32 g d _ _ => g.ok && pairOk d
  | .fcmpLeF32 g d _ _ => g.ok && pairOk d
  | .fcvt g _ _ t sc => g.ok && kindsOk t sc
  | .b g _ => g.ok
  | .jal g _ => g.ok
  | .jr g _ _ => g.ok
  | .spawn g _ _ _ => g.ok
  | .await g _ _ _ => g.ok
  | .yield g _ _ => g.ok
  | .fin g => g.ok
  | .sys g _ _ => g.ok
  | .vadd g _ _ _ _ => g.ok
  | .vsub g _ _ _ _ => g.ok
  | .vand g _ _ _ _ => g.ok
  | .vor g _ _ _ _ => g.ok
  | .vxor g _ _ _ _ => g.ok
  | .vsll g _ _ _ _ => g.ok
  | .vsrl g _ _ _ _ => g.ok
  | .vsra g _ _ _ _ => g.ok
  | .vmul g _ _ _ _ => g.ok
  | .vmulh g _ _ _ _ => g.ok
  | .vmin g _ _ _ _ => g.ok
  | .vmax g _ _ _ _ => g.ok
  | .vminu g _ _ _ _ => g.ok
  | .vmaxu g _ _ _ _ => g.ok
  | .vadds g _ _ _ _ => g.ok
  | .vsubs g _ _ _ _ => g.ok
  | .vaddScalar g _ _ _ _ => g.ok
  | .vsubScalar g _ _ _ _ => g.ok
  | .vandScalar g _ _ _ _ => g.ok
  | .vorScalar g _ _ _ _ => g.ok
  | .vxorScalar g _ _ _ _ => g.ok
  | .vsllScalar g _ _ _ _ => g.ok
  | .vsrlScalar g _ _ _ _ => g.ok
  | .vsraScalar g _ _ _ _ => g.ok
  | .vmulScalar g _ _ _ _ => g.ok
  | .vmulhScalar g _ _ _ _ => g.ok
  | .vminScalar g _ _ _ _ => g.ok
  | .vmaxScalar g _ _ _ _ => g.ok
  | .vminuScalar g _ _ _ _ => g.ok
  | .vmaxuScalar g _ _ _ _ => g.ok
  | .vaddsScalar g _ _ _ _ => g.ok
  | .vsubsScalar g _ _ _ _ => g.ok
  | .vcmpEq g _ d _ _ => g.ok && pairOk d
  | .vcmpNe g _ d _ _ => g.ok && pairOk d
  | .vcmpLt g _ d _ _ => g.ok && pairOk d
  | .vcmpLtu g _ d _ _ => g.ok && pairOk d
  | .vcmpLe g _ d _ _ => g.ok && pairOk d
  | .vcmpLeu g _ d _ _ => g.ok && pairOk d
  | .vmerge g _ _ _ _ => g.ok
  | .vslideup g _ d a _ => g.ok && d.val != a.val
  | .vslidedn g _ d a _ => g.ok && d.val != a.val
  | .vcompress g _ d a => g.ok && d.val != a.val
  | .viota g _ _ => g.ok
  | .vperm g _ d a y => g.ok && d.val != a.val && d.val != y.val
  | .vbcast g _ _ _ => g.ok
  | .vext _ _ _ _ => true
  | .vmv g _ _ _ => g.ok
  | .mand g _ d _ _ => g.ok && maskOk d
  | .mor g _ d _ _ => g.ok && maskOk d
  | .mxor g _ d _ _ => g.ok && maskOk d
  | .mandn g _ d _ _ => g.ok && maskOk d
  | .mpop g _ _ _ => g.ok
  | .mfirst g _ _ _ => g.ok
  | .vtom g _ d _ => g.ok && maskOk d
  | .mtov g _ _ _ => g.ok
  | .vfadd g _ _ _ _ => g.ok
  | .vfsub g _ _ _ _ => g.ok
  | .vfmul g _ _ _ _ => g.ok
  | .vfdiv g _ _ _ _ => g.ok
  | .vfmin g _ _ _ _ => g.ok
  | .vfmax g _ _ _ _ => g.ok
  | .vfma g _ _ _ _ => g.ok
  | .vfsqrt g _ _ _ => g.ok
  | .vfaddScalar g _ _ _ _ => g.ok
  | .vfsubScalar g _ _ _ _ => g.ok
  | .vfmulScalar g _ _ _ _ => g.ok
  | .vfdivScalar g _ _ _ _ => g.ok
  | .vfminScalar g _ _ _ _ => g.ok
  | .vfmaxScalar g _ _ _ _ => g.ok
  | .vfmaScalar g _ _ _ _ => g.ok
  | .vfcmpEq g _ d _ _ => g.ok && pairOk d
  | .vfcmpLt g _ d _ _ => g.ok && pairOk d
  | .vfcmpLe g _ d _ _ => g.ok && pairOk d
  | .vfsgcopy g _ _ _ _ => g.ok
  | .vfsgflip g _ _ _ _ => g.ok
  | .vfsgmix g _ _ _ _ => g.ok
  | .vfkind g _ _ _ => g.ok
  | .vexp2 g _ _ _ => g.ok
  | .vlog2 g _ _ _ => g.ok
  | .vrsqrt g _ _ _ => g.ok
  | .vrcp g _ _ _ => g.ok
  | .vcvt g _ _ _ t => g.ok && t.val < 14
  | .vcvtW g _ d a t => g.ok && d.val != a.val && t.val < 14
  | .vcvtN g _ d a t => g.ok && d.val != a.val && t.val < 14
  | .vquant g _ d a _ y => g.ok && d.val != a.val && d.val != y.val
  | .vquantS g _ d a _ y => g.ok && d.val != a.val && d.val != y.val
  | .vdequant g _ d a _ y => g.ok && d.val != a.val && d.val != y.val
  | .vquantPg g _ d a _ y => g.ok && d.val != a.val && d.val != y.val
  | .vredsum g _ _ _ => g.ok
  | .vredmin g _ _ _ => g.ok
  | .vredmax g _ _ _ => g.ok
  | .vredand g _ _ _ => g.ok
  | .vredor g _ _ _ => g.ok
  | .vredxor g _ _ _ => g.ok
  | .vscan g _ _ _ => g.ok
  | .vscanmax g _ _ _ => g.ok
  | .vsredsum g _ d a _ => g.ok && d.val != a.val
  | .vsredmin g _ d a _ => g.ok && d.val != a.val
  | .vsredmax g _ d a _ => g.ok && d.val != a.val
  | .vsscan g _ _ _ _ => g.ok
  | .ldB64 g _ _ _ => g.ok
  | .ldB32 g _ _ _ => g.ok
  | .stB64 g _ _ _ => g.ok
  | .stB32 g _ _ _ => g.ok
  | .ldB8 g _ _ _ => g.ok
  | .ldB16 g _ _ _ => g.ok
  | .ldI8 g _ _ _ => g.ok
  | .ldI16 g _ _ _ => g.ok
  | .ldI32 g _ _ _ => g.ok
  | .stB8 g _ _ _ => g.ok
  | .stB16 g _ _ _ => g.ok
  | .vld g _ _ _ sc o => g.ok && loadOrder o sc
  | .vlds g _ _ _ sc o => g.ok && loadOrder o sc
  | .vldx g _ _ _ _ => g.ok
  | .vldt g _ _ _ sc o => g.ok && loadOrder o sc
  | .vldn g _ _ _ => g.ok
  | .vldWp g _ _ _ _ => g.ok
  | .vst g _ _ _ sc o => g.ok && storeOrder o sc
  | .vsts g _ _ _ sc o => g.ok && storeOrder o sc
  | .vstx g _ _ _ _ => g.ok
  | .vstt g _ _ _ sc o => g.ok && storeOrder o sc
  | .vstn g _ _ _ => g.ok
  | .ldWp g _ _ _ _ _ => g.ok
  | .ldAcq g _ _ _ _ _ => g.ok
  | .stRel g _ _ _ _ _ => g.ok
  | .atomAdd g _ _ sc o _ => g.ok && atomOrder o sc
  | .atomMin g _ _ sc o _ => g.ok && atomOrder o sc
  | .atomMax g _ _ sc o _ => g.ok && atomOrder o sc
  | .atomMinu g _ _ sc o _ => g.ok && atomOrder o sc
  | .atomMaxu g _ _ sc o _ => g.ok && atomOrder o sc
  | .atomAnd g _ _ sc o _ => g.ok && atomOrder o sc
  | .atomOr g _ _ sc o _ => g.ok && atomOrder o sc
  | .atomXor g _ _ sc o _ => g.ok && atomOrder o sc
  | .atomSwap g _ _ sc o _ => g.ok && atomOrder o sc
  | .atomCas g _ _ sc o _ => g.ok && atomOrder o sc
  | .vatomAdd g _ _ sc o => g.ok && atomOrder o sc
  | .vatomMin g _ _ sc o => g.ok && atomOrder o sc
  | .vatomMax g _ _ sc o => g.ok && atomOrder o sc
  | .vatomAnd g _ _ sc o => g.ok && atomOrder o sc
  | .vatomOr g _ _ sc o => g.ok && atomOrder o sc
  | .vatomXor g _ _ sc o => g.ok && atomOrder o sc
  | .vatomSwap g _ _ sc o => g.ok && atomOrder o sc
  | .vatomCas g _ _ sc o => g.ok && atomOrder o sc
  | .vwait g k _ _ => g.ok && k.val ≤ 4
  | .barv g _ _ => g.ok
  | .bnew g _ _ => g.ok
  | .bfree g _ _ => g.ok
  | .bsig g _ _ => g.ok
  | .bsigOneOperand g _ => g.ok
  | .bsigErr g _ _ => g.ok
  | .bqry g _ _ => g.ok
  | .barm g _ _ => g.ok
  | .barmRel g _ _ => g.ok
  | .rcopy g _ _ _ => g.ok
  | .rcopyShape g _ _ _ => g.ok
  | .rwp g _ _ => g.ok
  | .rcancel g _ => g.ok
  | .rqry g _ _ => g.ok
  | .amsend g _ => g.ok
  | .amreply g _ => g.ok
  | .amreg g _ _ => g.ok
  | .swalloc g _ _ _ => g.ok
  | .swfree g _ _ => g.ok
  | .swquota g _ _ => g.ok
  | .mmk g _ _ _ _ t => g.ok && productType t
  | .mmkScratchpad g _ _ _ _ t => g.ok && productType t
  | .mmga g _ _ _ _ t => g.ok && productType t
  | .mmgaScratchpad g _ _ _ _ t => g.ok && productType t
  | .mshape _ _ => true
  | .mzero g _ => g.ok
  | .mld g _ _ => g.ok
  | .mst g _ _ => g.ok
  | .mcvt g _ _ _ => g.ok
  | .mseg _ _ => true
  | .vtmask g _ d _ _ => g.ok && maskOk d
  | .vexpm g _ d a y => g.ok && d.val != y.val && a.val != y.val
  | .vscore g _ _ _ _ _ => g.ok
  | .vpacc g _ d _ y => g.ok && d.val != y.val
  | .pxl g _ _ _ => g.ok
  | .pxw g _ _ => g.ok
  | .pxwSh g _ _ => g.ok
  | .pxinv g _ _ => g.ok
  | .pxret g => g.ok
  | .dsadv g d _ _ => g.ok && pairOk d
  | .dstrunc g _ _ => g.ok
  | .dsframe g _ _ _ => g.ok
  | .dsplay g _ _ => g.ok
  | .launch g _ _ => g.ok
  | .cancel g _ _ => g.ok
  | .cget g _ _ => g.ok
  | .cset g _ _ => g.ok
  | .vcfg g _ _ _ => g.ok
  | .spsplit g _ k => g.ok && k.val ≤ 8
  | .stripBegin g _ => g.ok
  | .stripCommit g => g.ok
  | .asidBind g _ _ => g.ok
  | .asidRetire g _ _ => g.ok
  | .xlinvVa g _ _ _ => g.ok
  | .xlinvAsid g _ _ => g.ok
  | .xlinvGlob g _ => g.ok
  | .fence g _ _ => g.ok
  | .waitingRecordWrite die => decide (die < 16)
  | .deferredStoreFailure core => decide (core < 6144)
  | .pendingDatumArrival core cnum _ _ _ => decide (core < 6144) && decide (cnum < 1024)
  | .preemption core _ => decide (core < 6144)
  | .pacerDecision core => decide (core < 6144)
  | .pacerPreemption r => decide (r.core < 6144)
  | .contextSpill core cnum => decide (core < 6144) && decide (cnum < 1024)
  | .contextReturn core cnum => decide (core < 6144) && decide (cnum < 1024)
  | .clusterWindowRequest core => decide (core < 6144)
  | .activeMessageHandler core => decide (core < 6144)
  | .handlerLimit core => decide (core < 6144)
  | .amReplyDelivery _ => true
  | .remoteSignalArrival _ _ _ => true
  | .batonPoll core cnum => decide (core < 6144) && decide (cnum < 1024)
  | .relayChunk core ch => decide (core < 6144) && decide (ch < 8)
  | .relayBeat core ch => decide (core < 6144) && decide (ch < 8)
  | .relayComplete core ch => decide (core < 6144) && decide (ch < 8)
  | .relayCancelComplete core ch => decide (core < 6144) && decide (ch < 8)
  | .translationWalk core asid _ => decide (core < 6144) && decide (asid < 65536)
  | .runAheadTranslation core _ => decide (core < 6144)
  | .maintenanceComplete die _ => decide (die < 16)
  | .asidRetirementComplete asid => decide (asid < 65536)
  | .homeSliceRequest _ => true
  | .bankConflict d => decide (d.off < Config.hbmBytes) && decide (d.ahead < Config.hbmBytes)
  | .hdcfgWrite d _ => decide (d < 1024)
  | .granuleMove d => decide (d < 1024)
  | .migrationComplete d => decide (d < 1024)
  | .mctlWrite _ => true
  | .switchAccess _ => true
  | .mirrorImageInstall _ => true
  | .failoverAccess _ => true
  | .mergeLockLapse plane _ => decide (plane < 18)
  | .planeDown r => decide (r.plane < 18)
  | .planeUp p _ => decide (p < 18)
  | .collectiveAbortReceipt _ _ _ => true
  | .starterDecision => true
  | .starterTimedDecision => true
  | .launchBlocking _ => true
  | .dependenceFailed _ => true
  | .launchCompletion _ => true
  | .unloadComplete _ => true
  | .ccmdOpen die _ _ => decide (die < 16)
  | .ccmdResume die _ _ => decide (die < 16)
  | .ccmdKill die _ _ => decide (die < 16)
  | .ccmdClose die _ _ => decide (die < 16)
  | .ccmdBadcmd die => decide (die < 16)
  | .machineCheck r => decide (r.core < 6144)
  | .truncationCleanup _ => true
  | .cleanupComplete _ => true
  | .cleanupFailed _ _ _ => true
  | .hostAccess _ => true
  | .hostSignal master _ _ => decide (master < 4)
  | .hostsigWrite _ => true
  | .linkLoss => true
  | .linkReturn => true
  | .ownClaim x _ _ => decide (x < 4)
  | .ownRelease x _ _ => decide (x < 4)
  | .ownHandover x _ _ => decide (x < 4)
  | .leaseLapse => true
  | .ownerScrubComplete => true
  | .engagementScrub _ => true
  | .engagementScrubComplete => true
  | .attestation _ => true
  | .attestationComplete => true
  | .keyLoad slot _ => decide (slot < 64)
  | .keyErase slot => decide (slot < 64)
  | .moduleReset => true
  | .memoryTrained => true
  | .fabricTrained _ => true
  | .hbmRepair bank spare => decide (bank < 1024) && decide (spare < 1024)
  | .clockThrottle => true
  | .clockRestore => true
  | .thermalStop => true
  | .registerWrite _ _ => true
  | .vwaitRound core cnum => decide (core < 6144) && decide (cnum < 1024)
  | .illegalInstruction _ => true
  | .instructionFetchFault _ => true

end Sys2Proof
end

