-- ==== Sys2Proof/Decode.lean ====
section
/-! DEFINITION. Decoding of instruction words (spec/08_encoding.md R201 to R208) and, after it, the encoder. `decodeRaw`
finds the instruction that MAJOR and the selector name and reads its fields; the word is accepted when those fields
are permitted and no other bit is set, which is when the instruction's own word is this one. -/

namespace Sys2Proof

/-! ## Fields -/

/-- NEG and GUARD (R202, Table 1). -/
def guardOf (w : Nat) : Guard := ⟨bitAt w 25, Fin.ofNat 8 (w / 2 ^ 22)⟩

/-- The field at bit `lo` that takes `n` values, `n` a power of two (R205). -/
def fieldAt (w lo n : Nat) [NeZero n] : Fin n := Fin.ofNat n (w / 2 ^ lo)

/-- The immediate in the low `n` bits (R205, R207). -/
def immOf (w n : Nat) : BitVec n := BitVec.ofNat n w

/-! ## Majors (R211, Tables 4 to 7): the instruction a word names, or none where its selector is unassigned -/

def dec00 (w : Nat) : Option Instr :=
  match w % 8 with
  | 0 => some (.add (guardOf w) (fieldAt w 15 32) (fieldAt w 9 32) (fieldAt w 3 32))
  | 1 => some (.sub (guardOf w) (fieldAt w 15 32) (fieldAt w 9 32) (fieldAt w 3 32))
  | 2 => some (.and (guardOf w) (fieldAt w 15 32) (fieldAt w 9 32) (fieldAt w 3 32))
  | 3 => some (.or (guardOf w) (fieldAt w 15 32) (fieldAt w 9 32) (fieldAt w 3 32))
  | 4 => some (.xor (guardOf w) (fieldAt w 15 32) (fieldAt w 9 32) (fieldAt w 3 32))
  | 5 => some (.sll (guardOf w) (fieldAt w 15 32) (fieldAt w 9 32) (fieldAt w 3 32))
  | 6 => some (.srl (guardOf w) (fieldAt w 15 32) (fieldAt w 9 32) (fieldAt w 3 32))
  | _ => some (.sra (guardOf w) (fieldAt w 15 32) (fieldAt w 9 32) (fieldAt w 3 32))

def dec01 (w : Nat) : Option Instr :=
  match w % 8 with
  | 0 => some (.mul (guardOf w) (fieldAt w 15 32) (fieldAt w 9 32) (fieldAt w 3 32))
  | 1 => some (.mulh (guardOf w) (fieldAt w 15 32) (fieldAt w 9 32) (fieldAt w 3 32))
  | 2 => some (.mulhu (guardOf w) (fieldAt w 15 32) (fieldAt w 9 32) (fieldAt w 3 32))
  | 3 => some (.div (guardOf w) (fieldAt w 15 32) (fieldAt w 9 32) (fieldAt w 3 32))
  | 4 => some (.divu (guardOf w) (fieldAt w 15 32) (fieldAt w 9 32) (fieldAt w 3 32))
  | 5 => some (.rem (guardOf w) (fieldAt w 15 32) (fieldAt w 9 32) (fieldAt w 3 32))
  | 6 => some (.remu (guardOf w) (fieldAt w 15 32) (fieldAt w 9 32) (fieldAt w 3 32))
  | _ => none

def dec02 (w : Nat) : Option Instr :=
  match w % 8 with
  | 0 => some (.min (guardOf w) (fieldAt w 15 32) (fieldAt w 9 32) (fieldAt w 3 32))
  | 1 => some (.max (guardOf w) (fieldAt w 15 32) (fieldAt w 9 32) (fieldAt w 3 32))
  | 2 => some (.minu (guardOf w) (fieldAt w 15 32) (fieldAt w 9 32) (fieldAt w 3 32))
  | 3 => some (.maxu (guardOf w) (fieldAt w 15 32) (fieldAt w 9 32) (fieldAt w 3 32))
  | 4 => some (.clz (guardOf w) (fieldAt w 15 32) (fieldAt w 9 32))
  | 5 => some (.ctz (guardOf w) (fieldAt w 15 32) (fieldAt w 9 32))
  | 6 => some (.popc (guardOf w) (fieldAt w 15 32) (fieldAt w 9 32))
  | _ => some (.rev (guardOf w) (fieldAt w 15 32) (fieldAt w 9 32))

def dec03 (w : Nat) : Option Instr :=
  match w % 8 with
  | 0 => some (.sel (guardOf w) (fieldAt w 15 32) (fieldAt w 9 32) (fieldAt w 3 32))
  | 1 => some (.bfx (guardOf w) (fieldAt w 15 32) (fieldAt w 9 32) (fieldAt w 3 32))
  | 2 => some (.bfxs (guardOf w) (fieldAt w 15 32) (fieldAt w 9 32) (fieldAt w 3 32))
  | 3 => some (.bfi (guardOf w) (fieldAt w 15 32) (fieldAt w 9 32) (fieldAt w 3 32))
  | _ => none

def dec04 (w : Nat) : Option Instr :=
  match w % 8 with
  | 0 => some (.cmpEq (guardOf w) (fieldAt w 15 64) (fieldAt w 9 32) (fieldAt w 3 32))
  | 1 => some (.cmpNe (guardOf w) (fieldAt w 15 64) (fieldAt w 9 32) (fieldAt w 3 32))
  | 2 => some (.cmpLt (guardOf w) (fieldAt w 15 64) (fieldAt w 9 32) (fieldAt w 3 32))
  | 3 => some (.cmpLtu (guardOf w) (fieldAt w 15 64) (fieldAt w 9 32) (fieldAt w 3 32))
  | 4 => some (.cmpLe (guardOf w) (fieldAt w 15 64) (fieldAt w 9 32) (fieldAt w 3 32))
  | 5 => some (.cmpLeu (guardOf w) (fieldAt w 15 64) (fieldAt w 9 32) (fieldAt w 3 32))
  | 6 => some (.gand (guardOf w) (fieldAt w 15 64) (fieldAt w 9 8) (fieldAt w 3 8))
  | _ => some (.gor (guardOf w) (fieldAt w 15 64) (fieldAt w 9 8) (fieldAt w 3 8))

def dec05 (w : Nat) : Option Instr := some (.addi (guardOf w) (fieldAt w 15 32) (fieldAt w 9 32) (immOf w 9))

def dec06 (w : Nat) : Option Instr :=
  match w / 2 ^ 6 % 8 with
  | 0 => some (.andi (guardOf w) (fieldAt w 15 32) (fieldAt w 9 32) (immOf w 6))
  | 1 => some (.ori (guardOf w) (fieldAt w 15 32) (fieldAt w 9 32) (immOf w 6))
  | 2 => some (.xori (guardOf w) (fieldAt w 15 32) (fieldAt w 9 32) (immOf w 6))
  | 3 => some (.slli (guardOf w) (fieldAt w 15 32) (fieldAt w 9 32) (immOf w 6))
  | 4 => some (.srli (guardOf w) (fieldAt w 15 32) (fieldAt w 9 32) (immOf w 6))
  | 5 => some (.srai (guardOf w) (fieldAt w 15 32) (fieldAt w 9 32) (immOf w 6))
  | _ => none

def dec07 (w : Nat) : Option Instr := some (.li (guardOf w) (fieldAt w 15 32) (immOf w 15))

def dec08 (w : Nat) : Option Instr := some (.lis (guardOf w) (fieldAt w 15 32) (immOf w 15))

def dec09 (w : Nat) : Option Instr := some (.loop (guardOf w) (fieldAt w 15 4) (immOf w 15))

def dec0A (w : Nat) : Option Instr :=
  match w % 8 with
  | 0 => some (.faddF64 (guardOf w) (fieldAt w 15 32) (fieldAt w 9 32) (fieldAt w 3 32))
  | 1 => some (.fsubF64 (guardOf w) (fieldAt w 15 32) (fieldAt w 9 32) (fieldAt w 3 32))
  | 2 => some (.fmulF64 (guardOf w) (fieldAt w 15 32) (fieldAt w 9 32) (fieldAt w 3 32))
  | 3 => some (.fdivF64 (guardOf w) (fieldAt w 15 32) (fieldAt w 9 32) (fieldAt w 3 32))
  | 4 => some (.fminF64 (guardOf w) (fieldAt w 15 32) (fieldAt w 9 32) (fieldAt w 3 32))
  | 5 => some (.fmaxF64 (guardOf w) (fieldAt w 15 32) (fieldAt w 9 32) (fieldAt w 3 32))
  | 6 => some (.fmaF64 (guardOf w) (fieldAt w 15 32) (fieldAt w 9 32) (fieldAt w 3 32))
  | _ => some (.fsqrtF64 (guardOf w) (fieldAt w 15 32) (fieldAt w 9 32))

def dec0B (w : Nat) : Option Instr :=
  match w % 8 with
  | 0 => some (.faddF32 (guardOf w) (fieldAt w 15 32) (fieldAt w 9 32) (fieldAt w 3 32))
  | 1 => some (.fsubF32 (guardOf w) (fieldAt w 15 32) (fieldAt w 9 32) (fieldAt w 3 32))
  | 2 => some (.fmulF32 (guardOf w) (fieldAt w 15 32) (fieldAt w 9 32) (fieldAt w 3 32))
  | 3 => some (.fdivF32 (guardOf w) (fieldAt w 15 32) (fieldAt w 9 32) (fieldAt w 3 32))
  | 4 => some (.fminF32 (guardOf w) (fieldAt w 15 32) (fieldAt w 9 32) (fieldAt w 3 32))
  | 5 => some (.fmaxF32 (guardOf w) (fieldAt w 15 32) (fieldAt w 9 32) (fieldAt w 3 32))
  | 6 => some (.fmaF32 (guardOf w) (fieldAt w 15 32) (fieldAt w 9 32) (fieldAt w 3 32))
  | _ => some (.fsqrtF32 (guardOf w) (fieldAt w 15 32) (fieldAt w 9 32))

def dec0C (w : Nat) : Option Instr :=
  match w % 8 with
  | 0 => some (.fcmpEqF64 (guardOf w) (fieldAt w 15 64) (fieldAt w 9 32) (fieldAt w 3 32))
  | 1 => some (.fcmpLtF64 (guardOf w) (fieldAt w 15 64) (fieldAt w 9 32) (fieldAt w 3 32))
  | 2 => some (.fcmpLeF64 (guardOf w) (fieldAt w 15 64) (fieldAt w 9 32) (fieldAt w 3 32))
  | 3 => some (.fcmpEqF32 (guardOf w) (fieldAt w 15 64) (fieldAt w 9 32) (fieldAt w 3 32))
  | 4 => some (.fcmpLtF32 (guardOf w) (fieldAt w 15 64) (fieldAt w 9 32) (fieldAt w 3 32))
  | 5 => some (.fcmpLeF32 (guardOf w) (fieldAt w 15 64) (fieldAt w 9 32) (fieldAt w 3 32))
  | 6 => some (.fcvt (guardOf w) (fieldAt w 15 32) (fieldAt w 9 32) (fieldAt w 6 8) (fieldAt w 3 8))
  | _ => none

def dec0D (w : Nat) : Option Instr := some (.b (guardOf w) (immOf w 21))

def dec0E (w : Nat) : Option Instr := some (.jal (guardOf w) (immOf w 21))

def dec0F (w : Nat) : Option Instr :=
  match w % 8 with
  | 0 => some (.jr (guardOf w) (fieldAt w 15 32) (fieldAt w 9 32))
  | 1 => some (.spawn (guardOf w) (fieldAt w 15 32) (fieldAt w 9 32) (fieldAt w 3 32))
  | 2 => some (.await (guardOf w) (fieldAt w 15 64) (fieldAt w 9 32) (fieldAt w 3 32))
  | 3 => some (.yield (guardOf w) (fieldAt w 15 64) (fieldAt w 3 32))
  | 4 => some (.fin (guardOf w))
  | 5 => some (.sys (guardOf w) (fieldAt w 9 64) (fieldAt w 3 64))
  | _ => none

def dec10 (w : Nat) : Option Instr :=
  match w % 8 with
  | 0 => some (.vadd (guardOf w) (bitAt w 21) (fieldAt w 15 64) (fieldAt w 9 64) (fieldAt w 3 64))
  | 1 => some (.vsub (guardOf w) (bitAt w 21) (fieldAt w 15 64) (fieldAt w 9 64) (fieldAt w 3 64))
  | 2 => some (.vand (guardOf w) (bitAt w 21) (fieldAt w 15 64) (fieldAt w 9 64) (fieldAt w 3 64))
  | 3 => some (.vor (guardOf w) (bitAt w 21) (fieldAt w 15 64) (fieldAt w 9 64) (fieldAt w 3 64))
  | 4 => some (.vxor (guardOf w) (bitAt w 21) (fieldAt w 15 64) (fieldAt w 9 64) (fieldAt w 3 64))
  | 5 => some (.vsll (guardOf w) (bitAt w 21) (fieldAt w 15 64) (fieldAt w 9 64) (fieldAt w 3 64))
  | 6 => some (.vsrl (guardOf w) (bitAt w 21) (fieldAt w 15 64) (fieldAt w 9 64) (fieldAt w 3 64))
  | _ => some (.vsra (guardOf w) (bitAt w 21) (fieldAt w 15 64) (fieldAt w 9 64) (fieldAt w 3 64))

def dec11 (w : Nat) : Option Instr :=
  match w % 8 with
  | 0 => some (.vmul (guardOf w) (bitAt w 21) (fieldAt w 15 64) (fieldAt w 9 64) (fieldAt w 3 64))
  | 1 => some (.vmulh (guardOf w) (bitAt w 21) (fieldAt w 15 64) (fieldAt w 9 64) (fieldAt w 3 64))
  | 2 => some (.vmin (guardOf w) (bitAt w 21) (fieldAt w 15 64) (fieldAt w 9 64) (fieldAt w 3 64))
  | 3 => some (.vmax (guardOf w) (bitAt w 21) (fieldAt w 15 64) (fieldAt w 9 64) (fieldAt w 3 64))
  | 4 => some (.vminu (guardOf w) (bitAt w 21) (fieldAt w 15 64) (fieldAt w 9 64) (fieldAt w 3 64))
  | 5 => some (.vmaxu (guardOf w) (bitAt w 21) (fieldAt w 15 64) (fieldAt w 9 64) (fieldAt w 3 64))
  | 6 => some (.vadds (guardOf w) (bitAt w 21) (fieldAt w 15 64) (fieldAt w 9 64) (fieldAt w 3 64))
  | _ => some (.vsubs (guardOf w) (bitAt w 21) (fieldAt w 15 64) (fieldAt w 9 64) (fieldAt w 3 64))

def dec12 (w : Nat) : Option Instr :=
  match w % 8 with
  | 0 => some (.vaddScalar (guardOf w) (bitAt w 21) (fieldAt w 15 64) (fieldAt w 9 64) (fieldAt w 3 32))
  | 1 => some (.vsubScalar (guardOf w) (bitAt w 21) (fieldAt w 15 64) (fieldAt w 9 64) (fieldAt w 3 32))
  | 2 => some (.vandScalar (guardOf w) (bitAt w 21) (fieldAt w 15 64) (fieldAt w 9 64) (fieldAt w 3 32))
  | 3 => some (.vorScalar (guardOf w) (bitAt w 21) (fieldAt w 15 64) (fieldAt w 9 64) (fieldAt w 3 32))
  | 4 => some (.vxorScalar (guardOf w) (bitAt w 21) (fieldAt w 15 64) (fieldAt w 9 64) (fieldAt w 3 32))
  | 5 => some (.vsllScalar (guardOf w) (bitAt w 21) (fieldAt w 15 64) (fieldAt w 9 64) (fieldAt w 3 32))
  | 6 => some (.vsrlScalar (guardOf w) (bitAt w 21) (fieldAt w 15 64) (fieldAt w 9 64) (fieldAt w 3 32))
  | _ => some (.vsraScalar (guardOf w) (bitAt w 21) (fieldAt w 15 64) (fieldAt w 9 64) (fieldAt w 3 32))

def dec13 (w : Nat) : Option Instr :=
  match w % 8 with
  | 0 => some (.vmulScalar (guardOf w) (bitAt w 21) (fieldAt w 15 64) (fieldAt w 9 64) (fieldAt w 3 32))
  | 1 => some (.vmulhScalar (guardOf w) (bitAt w 21) (fieldAt w 15 64) (fieldAt w 9 64) (fieldAt w 3 32))
  | 2 => some (.vminScalar (guardOf w) (bitAt w 21) (fieldAt w 15 64) (fieldAt w 9 64) (fieldAt w 3 32))
  | 3 => some (.vmaxScalar (guardOf w) (bitAt w 21) (fieldAt w 15 64) (fieldAt w 9 64) (fieldAt w 3 32))
  | 4 => some (.vminuScalar (guardOf w) (bitAt w 21) (fieldAt w 15 64) (fieldAt w 9 64) (fieldAt w 3 32))
  | 5 => some (.vmaxuScalar (guardOf w) (bitAt w 21) (fieldAt w 15 64) (fieldAt w 9 64) (fieldAt w 3 32))
  | 6 => some (.vaddsScalar (guardOf w) (bitAt w 21) (fieldAt w 15 64) (fieldAt w 9 64) (fieldAt w 3 32))
  | _ => some (.vsubsScalar (guardOf w) (bitAt w 21) (fieldAt w 15 64) (fieldAt w 9 64) (fieldAt w 3 32))

def dec14 (w : Nat) : Option Instr :=
  match w % 8 with
  | 0 => some (.vcmpEq (guardOf w) (bitAt w 21) (fieldAt w 15 64) (fieldAt w 9 64) (fieldAt w 3 64))
  | 1 => some (.vcmpNe (guardOf w) (bitAt w 21) (fieldAt w 15 64) (fieldAt w 9 64) (fieldAt w 3 64))
  | 2 => some (.vcmpLt (guardOf w) (bitAt w 21) (fieldAt w 15 64) (fieldAt w 9 64) (fieldAt w 3 64))
  | 3 => some (.vcmpLtu (guardOf w) (bitAt w 21) (fieldAt w 15 64) (fieldAt w 9 64) (fieldAt w 3 64))
  | 4 => some (.vcmpLe (guardOf w) (bitAt w 21) (fieldAt w 15 64) (fieldAt w 9 64) (fieldAt w 3 64))
  | 5 => some (.vcmpLeu (guardOf w) (bitAt w 21) (fieldAt w 15 64) (fieldAt w 9 64) (fieldAt w 3 64))
  | 6 => some (.vmerge (guardOf w) (bitAt w 21) (fieldAt w 15 64) (fieldAt w 9 64) (fieldAt w 3 64))
  | _ => none

def dec15 (w : Nat) : Option Instr :=
  match w % 8 with
  | 0 => some (.vslideup (guardOf w) (bitAt w 21) (fieldAt w 15 64) (fieldAt w 9 64) (fieldAt w 3 32))
  | 1 => some (.vslidedn (guardOf w) (bitAt w 21) (fieldAt w 15 64) (fieldAt w 9 64) (fieldAt w 3 32))
  | 2 => some (.vcompress (guardOf w) (bitAt w 21) (fieldAt w 15 64) (fieldAt w 9 64))
  | 3 => some (.viota (guardOf w) (bitAt w 21) (fieldAt w 15 64))
  | 4 => some (.vperm (guardOf w) (bitAt w 21) (fieldAt w 15 64) (fieldAt w 9 64) (fieldAt w 3 64))
  | 5 => some (.vbcast (guardOf w) (bitAt w 21) (fieldAt w 15 64) (fieldAt w 9 32))
  | 6 => some (.vext (bitAt w 21) (fieldAt w 15 32) (fieldAt w 9 64) (fieldAt w 3 32))
  | _ => some (.vmv (guardOf w) (bitAt w 21) (fieldAt w 15 64) (fieldAt w 9 64))

def dec16 (w : Nat) : Option Instr :=
  match w % 8 with
  | 0 => some (.mand (guardOf w) (bitAt w 21) (fieldAt w 15 8) (fieldAt w 9 8) (fieldAt w 3 8))
  | 1 => some (.mor (guardOf w) (bitAt w 21) (fieldAt w 15 8) (fieldAt w 9 8) (fieldAt w 3 8))
  | 2 => some (.mxor (guardOf w) (bitAt w 21) (fieldAt w 15 8) (fieldAt w 9 8) (fieldAt w 3 8))
  | 3 => some (.mandn (guardOf w) (bitAt w 21) (fieldAt w 15 8) (fieldAt w 9 8) (fieldAt w 3 8))
  | 4 => some (.mpop (guardOf w) (bitAt w 21) (fieldAt w 15 32) (fieldAt w 9 8))
  | 5 => some (.mfirst (guardOf w) (bitAt w 21) (fieldAt w 15 32) (fieldAt w 9 8))
  | 6 => some (.vtom (guardOf w) (bitAt w 21) (fieldAt w 15 8) (fieldAt w 9 64))
  | _ => some (.mtov (guardOf w) (bitAt w 21) (fieldAt w 15 64) (fieldAt w 9 8))

def dec17 (w : Nat) : Option Instr :=
  match w % 8 with
  | 0 => some (.vfadd (guardOf w) (bitAt w 21) (fieldAt w 15 64) (fieldAt w 9 64) (fieldAt w 3 64))
  | 1 => some (.vfsub (guardOf w) (bitAt w 21) (fieldAt w 15 64) (fieldAt w 9 64) (fieldAt w 3 64))
  | 2 => some (.vfmul (guardOf w) (bitAt w 21) (fieldAt w 15 64) (fieldAt w 9 64) (fieldAt w 3 64))
  | 3 => some (.vfdiv (guardOf w) (bitAt w 21) (fieldAt w 15 64) (fieldAt w 9 64) (fieldAt w 3 64))
  | 4 => some (.vfmin (guardOf w) (bitAt w 21) (fieldAt w 15 64) (fieldAt w 9 64) (fieldAt w 3 64))
  | 5 => some (.vfmax (guardOf w) (bitAt w 21) (fieldAt w 15 64) (fieldAt w 9 64) (fieldAt w 3 64))
  | 6 => some (.vfma (guardOf w) (bitAt w 21) (fieldAt w 15 64) (fieldAt w 9 64) (fieldAt w 3 64))
  | _ => some (.vfsqrt (guardOf w) (bitAt w 21) (fieldAt w 15 64) (fieldAt w 9 64))

def dec18 (w : Nat) : Option Instr :=
  match w % 8 with
  | 0 => some (.vfaddScalar (guardOf w) (bitAt w 21) (fieldAt w 15 64) (fieldAt w 9 64) (fieldAt w 3 32))
  | 1 => some (.vfsubScalar (guardOf w) (bitAt w 21) (fieldAt w 15 64) (fieldAt w 9 64) (fieldAt w 3 32))
  | 2 => some (.vfmulScalar (guardOf w) (bitAt w 21) (fieldAt w 15 64) (fieldAt w 9 64) (fieldAt w 3 32))
  | 3 => some (.vfdivScalar (guardOf w) (bitAt w 21) (fieldAt w 15 64) (fieldAt w 9 64) (fieldAt w 3 32))
  | 4 => some (.vfminScalar (guardOf w) (bitAt w 21) (fieldAt w 15 64) (fieldAt w 9 64) (fieldAt w 3 32))
  | 5 => some (.vfmaxScalar (guardOf w) (bitAt w 21) (fieldAt w 15 64) (fieldAt w 9 64) (fieldAt w 3 32))
  | 6 => some (.vfmaScalar (guardOf w) (bitAt w 21) (fieldAt w 15 64) (fieldAt w 9 64) (fieldAt w 3 32))
  | _ => none

def dec19 (w : Nat) : Option Instr :=
  match w % 8 with
  | 0 => some (.vfcmpEq (guardOf w) (bitAt w 21) (fieldAt w 15 64) (fieldAt w 9 64) (fieldAt w 3 64))
  | 1 => some (.vfcmpLt (guardOf w) (bitAt w 21) (fieldAt w 15 64) (fieldAt w 9 64) (fieldAt w 3 64))
  | 2 => some (.vfcmpLe (guardOf w) (bitAt w 21) (fieldAt w 15 64) (fieldAt w 9 64) (fieldAt w 3 64))
  | 3 => some (.vfsgcopy (guardOf w) (bitAt w 21) (fieldAt w 15 64) (fieldAt w 9 64) (fieldAt w 3 64))
  | 4 => some (.vfsgflip (guardOf w) (bitAt w 21) (fieldAt w 15 64) (fieldAt w 9 64) (fieldAt w 3 64))
  | 5 => some (.vfsgmix (guardOf w) (bitAt w 21) (fieldAt w 15 64) (fieldAt w 9 64) (fieldAt w 3 64))
  | 6 => some (.vfkind (guardOf w) (bitAt w 21) (fieldAt w 15 64) (fieldAt w 9 64))
  | _ => none

def dec1A (w : Nat) : Option Instr :=
  match w % 8 with
  | 0 => some (.vexp2 (guardOf w) (bitAt w 21) (fieldAt w 15 64) (fieldAt w 9 64))
  | 1 => some (.vlog2 (guardOf w) (bitAt w 21) (fieldAt w 15 64) (fieldAt w 9 64))
  | 2 => some (.vrsqrt (guardOf w) (bitAt w 21) (fieldAt w 15 64) (fieldAt w 9 64))
  | 3 => some (.vrcp (guardOf w) (bitAt w 21) (fieldAt w 15 64) (fieldAt w 9 64))
  | _ => none

def dec1B (w : Nat) : Option Instr :=
  match w % 8 with
  | 0 => some (.vcvt (guardOf w) (bitAt w 21) (fieldAt w 15 64) (fieldAt w 9 64) (fieldAt w 3 16))
  | 1 => some (.vcvtW (guardOf w) (bitAt w 21) (fieldAt w 15 64) (fieldAt w 9 64) (fieldAt w 3 16))
  | 2 => some (.vcvtN (guardOf w) (bitAt w 21) (fieldAt w 15 64) (fieldAt w 9 64) (fieldAt w 3 16))
  | 3 => some (.vquant (guardOf w) (bitAt w 21) (fieldAt w 15 64) (fieldAt w 9 64) (bitAt w 8) (fieldAt w 3 32))
  | 4 => some (.vquantS (guardOf w) (bitAt w 21) (fieldAt w 15 64) (fieldAt w 9 64) (bitAt w 8) (fieldAt w 3 32))
  | 5 => some (.vdequant (guardOf w) (bitAt w 21) (fieldAt w 15 64) (fieldAt w 9 64) (bitAt w 8) (fieldAt w 3 32))
  | 6 => some (.vquantPg (guardOf w) (bitAt w 21) (fieldAt w 15 64) (fieldAt w 9 64) (bitAt w 8) (fieldAt w 3 32))
  | _ => none

def dec1C (w : Nat) : Option Instr :=
  match w % 8 with
  | 0 => some (.vredsum (guardOf w) (bitAt w 21) (fieldAt w 15 64) (fieldAt w 9 64))
  | 1 => some (.vredmin (guardOf w) (bitAt w 21) (fieldAt w 15 64) (fieldAt w 9 64))
  | 2 => some (.vredmax (guardOf w) (bitAt w 21) (fieldAt w 15 64) (fieldAt w 9 64))
  | 3 => some (.vredand (guardOf w) (bitAt w 21) (fieldAt w 15 64) (fieldAt w 9 64))
  | 4 => some (.vredor (guardOf w) (bitAt w 21) (fieldAt w 15 64) (fieldAt w 9 64))
  | 5 => some (.vredxor (guardOf w) (bitAt w 21) (fieldAt w 15 64) (fieldAt w 9 64))
  | 6 => some (.vscan (guardOf w) (bitAt w 21) (fieldAt w 15 64) (fieldAt w 9 64))
  | _ => some (.vscanmax (guardOf w) (bitAt w 21) (fieldAt w 15 64) (fieldAt w 9 64))

def dec1D (w : Nat) : Option Instr :=
  match w % 8 with
  | 0 => some (.vsredsum (guardOf w) (bitAt w 21) (fieldAt w 15 64) (fieldAt w 9 64) (fieldAt w 3 8))
  | 1 => some (.vsredmin (guardOf w) (bitAt w 21) (fieldAt w 15 64) (fieldAt w 9 64) (fieldAt w 3 8))
  | 2 => some (.vsredmax (guardOf w) (bitAt w 21) (fieldAt w 15 64) (fieldAt w 9 64) (fieldAt w 3 8))
  | 3 => some (.vsscan (guardOf w) (bitAt w 21) (fieldAt w 15 64) (fieldAt w 9 64) (fieldAt w 3 8))
  | _ => none

def dec20 (w : Nat) : Option Instr := some (.ldB64 (guardOf w) (fieldAt w 15 32) (fieldAt w 9 32) (immOf w 9))

def dec21 (w : Nat) : Option Instr := some (.ldB32 (guardOf w) (fieldAt w 15 32) (fieldAt w 9 32) (immOf w 9))

def dec22 (w : Nat) : Option Instr := some (.stB64 (guardOf w) (fieldAt w 15 32) (fieldAt w 9 32) (immOf w 9))

def dec23 (w : Nat) : Option Instr := some (.stB32 (guardOf w) (fieldAt w 15 32) (fieldAt w 9 32) (immOf w 9))

def dec24 (w : Nat) : Option Instr :=
  match w / 2 ^ 6 % 8 with
  | 0 => some (.ldB8 (guardOf w) (fieldAt w 15 32) (fieldAt w 9 32) (immOf w 6))
  | 1 => some (.ldB16 (guardOf w) (fieldAt w 15 32) (fieldAt w 9 32) (immOf w 6))
  | 2 => some (.ldI8 (guardOf w) (fieldAt w 15 32) (fieldAt w 9 32) (immOf w 6))
  | 3 => some (.ldI16 (guardOf w) (fieldAt w 15 32) (fieldAt w 9 32) (immOf w 6))
  | 4 => some (.ldI32 (guardOf w) (fieldAt w 15 32) (fieldAt w 9 32) (immOf w 6))
  | 5 => some (.stB8 (guardOf w) (fieldAt w 15 32) (fieldAt w 9 32) (immOf w 6))
  | 6 => some (.stB16 (guardOf w) (fieldAt w 15 32) (fieldAt w 9 32) (immOf w 6))
  | _ => none

def dec25 (w : Nat) : Option Instr :=
  match w % 8 with
  | 0 => some (.vld (guardOf w) (bitAt w 21) (fieldAt w 15 64) (fieldAt w 9 32) (fieldAt w 6 8) (fieldAt w 4 4))
  | 1 => some (.vlds (guardOf w) (bitAt w 21) (fieldAt w 15 64) (fieldAt w 9 32) (fieldAt w 6 8) (fieldAt w 4 4))
  | 2 => some (.vldx (guardOf w) (bitAt w 21) (fieldAt w 15 64) (fieldAt w 9 32) (fieldAt w 3 64))
  | 3 => some (.vldt (guardOf w) (bitAt w 21) (fieldAt w 15 64) (fieldAt w 9 32) (fieldAt w 6 8) (fieldAt w 4 4))
  | 4 => some (.vldn (guardOf w) (bitAt w 21) (fieldAt w 15 64) (fieldAt w 9 64))
  | 5 => some (.vldWp (guardOf w) (bitAt w 21) (fieldAt w 15 64) (fieldAt w 9 32) (fieldAt w 3 8))
  | _ => none

def dec26 (w : Nat) : Option Instr :=
  match w % 8 with
  | 0 => some (.vst (guardOf w) (bitAt w 21) (fieldAt w 15 64) (fieldAt w 9 32) (fieldAt w 6 8) (fieldAt w 4 4))
  | 1 => some (.vsts (guardOf w) (bitAt w 21) (fieldAt w 15 64) (fieldAt w 9 32) (fieldAt w 6 8) (fieldAt w 4 4))
  | 2 => some (.vstx (guardOf w) (bitAt w 21) (fieldAt w 15 64) (fieldAt w 9 32) (fieldAt w 3 64))
  | 3 => some (.vstt (guardOf w) (bitAt w 21) (fieldAt w 15 64) (fieldAt w 9 32) (fieldAt w 6 8) (fieldAt w 4 4))
  | 4 => some (.vstn (guardOf w) (bitAt w 21) (fieldAt w 15 64) (fieldAt w 9 64))
  | _ => none

def dec27 (w : Nat) : Option Instr := some (.ldWp (guardOf w) (fieldAt w 15 32) (fieldAt w 9 32) (fieldAt w 6 8) (fieldAt w 4 4) (immOf w 4))

/-- ORD 2 is a store, ORD 1 a load; ORD 0 and 3 are reserved, as no word of a load has them. -/
def dec28 (w : Nat) : Option Instr :=
  if w / 2 ^ 4 % 4 = 2 then some (.stRel (guardOf w) (fieldAt w 15 32) (fieldAt w 9 32) (fieldAt w 6 8) (fieldAt w 2 4) (immOf w 2))
  else some (.ldAcq (guardOf w) (fieldAt w 15 32) (fieldAt w 9 32) (fieldAt w 6 8) (fieldAt w 2 4) (immOf w 2))

def dec29 (w : Nat) : Option Instr :=
  match w % 8 with
  | 0 => some (.atomAdd (guardOf w) (fieldAt w 16 16) (fieldAt w 9 32) (fieldAt w 6 8) (fieldAt w 4 4) (bitAt w 3))
  | 1 => some (.atomMin (guardOf w) (fieldAt w 16 16) (fieldAt w 9 32) (fieldAt w 6 8) (fieldAt w 4 4) (bitAt w 3))
  | 2 => some (.atomMax (guardOf w) (fieldAt w 16 16) (fieldAt w 9 32) (fieldAt w 6 8) (fieldAt w 4 4) (bitAt w 3))
  | 3 => some (.atomMinu (guardOf w) (fieldAt w 16 16) (fieldAt w 9 32) (fieldAt w 6 8) (fieldAt w 4 4) (bitAt w 3))
  | 4 => some (.atomMaxu (guardOf w) (fieldAt w 16 16) (fieldAt w 9 32) (fieldAt w 6 8) (fieldAt w 4 4) (bitAt w 3))
  | 5 => some (.atomAnd (guardOf w) (fieldAt w 16 16) (fieldAt w 9 32) (fieldAt w 6 8) (fieldAt w 4 4) (bitAt w 3))
  | 6 => some (.atomOr (guardOf w) (fieldAt w 16 16) (fieldAt w 9 32) (fieldAt w 6 8) (fieldAt w 4 4) (bitAt w 3))
  | _ => some (.atomXor (guardOf w) (fieldAt w 16 16) (fieldAt w 9 32) (fieldAt w 6 8) (fieldAt w 4 4) (bitAt w 3))

def dec2A (w : Nat) : Option Instr :=
  match w % 8 with
  | 0 => some (.atomSwap (guardOf w) (fieldAt w 16 16) (fieldAt w 9 32) (fieldAt w 6 8) (fieldAt w 4 4) (bitAt w 3))
  | 1 => some (.atomCas (guardOf w) (fieldAt w 16 16) (fieldAt w 9 32) (fieldAt w 6 8) (fieldAt w 4 4) (bitAt w 3))
  | _ => none

def dec2B (w : Nat) : Option Instr :=
  match w / 2 % 8 with
  | 0 => some (.vatomAdd (guardOf w) (fieldAt w 15 64) (fieldAt w 9 64) (fieldAt w 6 8) (fieldAt w 4 4))
  | 1 => some (.vatomMin (guardOf w) (fieldAt w 15 64) (fieldAt w 9 64) (fieldAt w 6 8) (fieldAt w 4 4))
  | 2 => some (.vatomMax (guardOf w) (fieldAt w 15 64) (fieldAt w 9 64) (fieldAt w 6 8) (fieldAt w 4 4))
  | 3 => some (.vatomAnd (guardOf w) (fieldAt w 15 64) (fieldAt w 9 64) (fieldAt w 6 8) (fieldAt w 4 4))
  | 4 => some (.vatomOr (guardOf w) (fieldAt w 15 64) (fieldAt w 9 64) (fieldAt w 6 8) (fieldAt w 4 4))
  | 5 => some (.vatomXor (guardOf w) (fieldAt w 15 64) (fieldAt w 9 64) (fieldAt w 6 8) (fieldAt w 4 4))
  | 6 => some (.vatomSwap (guardOf w) (fieldAt w 15 64) (fieldAt w 9 64) (fieldAt w 6 8) (fieldAt w 4 4))
  | _ => some (.vatomCas (guardOf w) (fieldAt w 16 32) (fieldAt w 9 64) (fieldAt w 6 8) (fieldAt w 4 4))

def dec2C (w : Nat) : Option Instr :=
  match w % 8 with
  | 0 => some (.vwait (guardOf w) (fieldAt w 15 64) (fieldAt w 9 64) (fieldAt w 3 64))
  | 1 => some (.barv (guardOf w) (fieldAt w 15 32) (fieldAt w 9 32))
  | _ => none

def dec2D (w : Nat) : Option Instr :=
  match w % 8 with
  | 0 => some (.bnew (guardOf w) (fieldAt w 15 32) (fieldAt w 9 32))
  | 1 => some (.bfree (guardOf w) (fieldAt w 15 32) (fieldAt w 9 32))
  | 2 => if w / 2 ^ 15 % 64 = 1 then some (.bsigOneOperand (guardOf w) (fieldAt w 9 32)) else some (.bsig (guardOf w) (fieldAt w 9 32) (fieldAt w 3 32))
  | 3 => some (.bsigErr (guardOf w) (fieldAt w 9 32) (fieldAt w 3 32))
  | 4 => some (.bqry (guardOf w) (fieldAt w 15 32) (fieldAt w 9 32))
  | 5 => some (.barm (guardOf w) (fieldAt w 9 32) (fieldAt w 3 32))
  | 6 => some (.barmRel (guardOf w) (fieldAt w 9 32) (fieldAt w 3 32))
  | _ => none

def dec2E (w : Nat) : Option Instr :=
  match w % 8 with
  | 0 => some (.rcopy (guardOf w) (fieldAt w 15 8) (fieldAt w 10 16) (fieldAt w 4 16))
  | 1 => some (.rcopyShape (guardOf w) (fieldAt w 15 8) (fieldAt w 9 64) (fieldAt w 3 32))
  | 2 => some (.rwp (guardOf w) (fieldAt w 15 32) (fieldAt w 9 8))
  | 3 => some (.rcancel (guardOf w) (fieldAt w 15 8))
  | 4 => some (.rqry (guardOf w) (fieldAt w 15 32) (fieldAt w 9 8))
  | 5 => some (.amsend (guardOf w) (fieldAt w 9 32))
  | 6 => some (.amreply (guardOf w) (fieldAt w 9 32))
  | _ => some (.amreg (guardOf w) (fieldAt w 9 32) (fieldAt w 3 32))

def dec2F (w : Nat) : Option Instr :=
  match w % 8 with
  | 0 => some (.swalloc (guardOf w) (fieldAt w 15 32) (fieldAt w 9 32) (fieldAt w 3 32))
  | 1 => some (.swfree (guardOf w) (fieldAt w 15 32) (fieldAt w 9 32))
  | 2 => some (.swquota (guardOf w) (fieldAt w 15 32) (fieldAt w 9 32))
  | _ => none

noncomputable def dec30 (w : Nat) : Option Instr :=
  match w / 2 ^ 2 % 2 with
  | 0 => some (.mmk (guardOf w) (bitAt w 21) (fieldAt w 19 4) (fieldAt w 13 64) (fieldAt w 7 64) (fieldAt w 3 16))
  | _ => some (.mmkScratchpad (guardOf w) (bitAt w 21) (fieldAt w 19 4) (fieldAt w 13 64) (fieldAt w 7 32) (fieldAt w 3 16))

noncomputable def dec31 (w : Nat) : Option Instr :=
  match w / 2 ^ 2 % 2 with
  | 0 => some (.mmga (guardOf w) (bitAt w 21) (fieldAt w 19 4) (fieldAt w 13 64) (fieldAt w 7 64) (fieldAt w 3 16))
  | _ => some (.mmgaScratchpad (guardOf w) (bitAt w 21) (fieldAt w 19 4) (fieldAt w 13 64) (fieldAt w 7 32) (fieldAt w 3 16))

noncomputable def dec32 (w : Nat) : Option Instr :=
  match w % 8 with
  | 0 => some (.mshape (fieldAt w 15 32) (fieldAt w 9 32))
  | 1 => some (.mzero (guardOf w) (fieldAt w 15 4))
  | 2 => some (.mld (guardOf w) (fieldAt w 15 4) (fieldAt w 9 32))
  | 3 => some (.mst (guardOf w) (fieldAt w 15 4) (fieldAt w 9 32))
  | 4 => some (.mcvt (guardOf w) (fieldAt w 15 64) (fieldAt w 9 4) (fieldAt w 3 16))
  | 5 => some (.mseg (fieldAt w 15 32) (fieldAt w 9 32))
  | _ => none

noncomputable def dec33 (w : Nat) : Option Instr :=
  match w % 8 with
  | 0 => some (.vtmask (guardOf w) (bitAt w 21) (fieldAt w 15 8) (fieldAt w 9 64) (fieldAt w 3 32))
  | 1 => some (.vexpm (guardOf w) (bitAt w 21) (fieldAt w 15 64) (fieldAt w 9 64) (fieldAt w 3 64))
  | 2 => some (.vscore (guardOf w) (bitAt w 21) (fieldAt w 15 64) (fieldAt w 11 16) (fieldAt w 9 4) (fieldAt w 3 32))
  | 3 => some (.vpacc (guardOf w) (bitAt w 21) (fieldAt w 15 64) (fieldAt w 9 64) (fieldAt w 3 64))
  | _ => none

noncomputable def dec34 (w : Nat) : Option Instr :=
  match w % 8 with
  | 0 => some (.pxl (guardOf w) (fieldAt w 15 64) (fieldAt w 9 64) (fieldAt w 3 32))
  | 1 => if w / 2 ^ 15 % 64 = 1 then some (.pxwSh (guardOf w) (fieldAt w 9 32) (fieldAt w 3 8)) else some (.pxw (guardOf w) (fieldAt w 9 32) (fieldAt w 3 32))
  | 2 => some (.pxinv (guardOf w) (fieldAt w 9 32) (fieldAt w 3 32))
  | 3 => some (.pxret (guardOf w))
  | _ => none

noncomputable def dec35 (w : Nat) : Option Instr :=
  match w % 8 with
  | 0 => some (.dsadv (guardOf w) (fieldAt w 15 64) (fieldAt w 9 32) (fieldAt w 3 32))
  | 1 => some (.dstrunc (guardOf w) (fieldAt w 9 32) (fieldAt w 3 32))
  | 2 => some (.dsframe (guardOf w) (fieldAt w 15 32) (fieldAt w 9 32) (fieldAt w 3 32))
  | 3 => some (.dsplay (guardOf w) (fieldAt w 9 32) (fieldAt w 3 32))
  | _ => none

noncomputable def dec36 (w : Nat) : Option Instr :=
  match w % 8 with
  | 0 => some (.launch (guardOf w) (fieldAt w 15 32) (fieldAt w 9 32))
  | 1 => some (.cancel (guardOf w) (fieldAt w 15 32) (fieldAt w 9 32))
  | _ => none

noncomputable def dec38 (w : Nat) : Option Instr :=
  match w % 8 with
  | 0 => some (.cget (guardOf w) (fieldAt w 15 32) (fieldAt w 9 64))
  | 1 => some (.cset (guardOf w) (fieldAt w 15 64) (fieldAt w 9 32))
  | 2 => some (.vcfg (guardOf w) (fieldAt w 15 32) (fieldAt w 9 4) (fieldAt w 3 4))
  | 3 => some (.spsplit (guardOf w) (fieldAt w 15 32) (fieldAt w 9 16))
  | 4 => some (.stripBegin (guardOf w) (fieldAt w 9 32))
  | 5 => some (.stripCommit (guardOf w))
  | 6 => some (.asidBind (guardOf w) (fieldAt w 15 32) (fieldAt w 9 32))
  | _ => some (.asidRetire (guardOf w) (fieldAt w 15 32) (fieldAt w 9 32))

noncomputable def dec39 (w : Nat) : Option Instr :=
  match w % 8 with
  | 0 => some (.xlinvVa (guardOf w) (fieldAt w 15 32) (fieldAt w 9 32) (fieldAt w 3 32))
  | 1 => some (.xlinvAsid (guardOf w) (fieldAt w 15 32) (fieldAt w 9 32))
  | 2 => some (.xlinvGlob (guardOf w) (fieldAt w 15 32))
  | 3 => some (.fence (guardOf w) (fieldAt w 9 4) (fieldAt w 3 8))
  | _ => none

/-- The instruction that MAJOR and the selector of a word name (R208), for the majors of Tables 4 to 6. -/
def decodeLow (w : Nat) : Option Instr :=
  match w / 2 ^ 26 % 64 with
  | 0x00 => dec00 w
  | 0x01 => dec01 w
  | 0x02 => dec02 w
  | 0x03 => dec03 w
  | 0x04 => dec04 w
  | 0x05 => dec05 w
  | 0x06 => dec06 w
  | 0x07 => dec07 w
  | 0x08 => dec08 w
  | 0x09 => dec09 w
  | 0x0A => dec0A w
  | 0x0B => dec0B w
  | 0x0C => dec0C w
  | 0x0D => dec0D w
  | 0x0E => dec0E w
  | 0x0F => dec0F w
  | 0x10 => dec10 w
  | 0x11 => dec11 w
  | 0x12 => dec12 w
  | 0x13 => dec13 w
  | 0x14 => dec14 w
  | 0x15 => dec15 w
  | 0x16 => dec16 w
  | 0x17 => dec17 w
  | 0x18 => dec18 w
  | 0x19 => dec19 w
  | 0x1A => dec1A w
  | 0x1B => dec1B w
  | 0x1C => dec1C w
  | 0x1D => dec1D w
  | 0x20 => dec20 w
  | 0x21 => dec21 w
  | 0x22 => dec22 w
  | 0x23 => dec23 w
  | 0x24 => dec24 w
  | 0x25 => dec25 w
  | 0x26 => dec26 w
  | 0x27 => dec27 w
  | 0x28 => dec28 w
  | 0x29 => dec29 w
  | 0x2A => dec2A w
  | 0x2B => dec2B w
  | 0x2C => dec2C w
  | 0x2D => dec2D w
  | 0x2E => dec2E w
  | 0x2F => dec2F w
  | _ => none

/-- The same for those of Table 7. -/
noncomputable def decodeHigh (w : Nat) : Option Instr :=
  match w / 2 ^ 26 % 64 with
  | 0x30 => dec30 w
  | 0x31 => dec31 w
  | 0x32 => dec32 w
  | 0x33 => dec33 w
  | 0x34 => dec34 w
  | 0x35 => dec35 w
  | 0x36 => dec36 w
  | 0x38 => dec38 w
  | 0x39 => dec39 w
  | _ => none

/-- The instruction that a word names; the canonical no-op is a word of its own. -/
noncomputable def decodeRaw (w : Nat) : Option Instr :=
  if w / 2 ^ 26 % 64 < 0x30 then decodeLow w else decodeHigh w

/-! ## Encoding -/

/-- Bits 31 to 22 of a word (R202). -/
def head (major : Nat) (g : Guard) : Nat := major * 2 ^ 26 + bit01 g.neg * 2 ^ 25 + g.idx.val * 2 ^ 22

/-- A field that names a pair holds its odd member (R206 rule 7). -/
def oddOf (k : Nat) : Nat := k * 2 + 1

/-! The formats of Table 2 (R205). -/

def wordR (major : Nat) (g : Guard) (c : Bool) (d a b minor : Nat) : Nat :=
  head major g + bit01 c * 2 ^ 21 + d * 2 ^ 15 + a * 2 ^ 9 + b * 2 ^ 3 + minor
def wordRO (major : Nat) (g : Guard) (c : Bool) (d a scope ord minor : Nat) : Nat :=
  head major g + bit01 c * 2 ^ 21 + d * 2 ^ 15 + a * 2 ^ 9 + scope * 2 ^ 6 + ord * 2 ^ 4 + minor
def wordI (major : Nat) (g : Guard) (d a imm : Nat) : Nat := head major g + d * 2 ^ 15 + a * 2 ^ 9 + imm
def wordL (major : Nat) (g : Guard) (d imm : Nat) : Nat := head major g + d * 2 ^ 15 + imm
def wordB (major : Nat) (g : Guard) (imm : Nat) : Nat := head major g + imm
def wordMS (major : Nat) (g : Guard) (data base type imm : Nat) : Nat :=
  head major g + data * 2 ^ 15 + base * 2 ^ 9 + type * 2 ^ 6 + imm
def wordMW (major : Nat) (g : Guard) (data base ch w imm : Nat) : Nat :=
  head major g + data * 2 ^ 15 + base * 2 ^ 9 + ch * 2 ^ 6 + w * 2 ^ 4 + imm
def wordMO (major : Nat) (g : Guard) (data base scope ord w imm : Nat) : Nat :=
  head major g + data * 2 ^ 15 + base * 2 ^ 9 + scope * 2 ^ 6 + ord * 2 ^ 4 + w * 2 ^ 2 + imm
def wordA (major : Nat) (g : Guard) (d base scope ord w op : Nat) : Nat :=
  head major g + (d * 2 + 1) * 2 ^ 15 + base * 2 ^ 9 + scope * 2 ^ 6 + ord * 2 ^ 4 + w * 2 ^ 3 + op
def wordVA (major : Nat) (g : Guard) (vd va scope ord op : Nat) : Nat :=
  head major g + vd * 2 ^ 15 + va * 2 ^ 9 + scope * 2 ^ 6 + ord * 2 ^ 4 + op * 2
def wordX (major : Nat) (g : Guard) (c : Bool) (acc a b type bs : Nat) : Nat :=
  head major g + bit01 c * 2 ^ 21 + acc * 2 ^ 19 + a * 2 ^ 13 + b * 2 ^ 7 + type * 2 ^ 3 + bs * 2 ^ 2

/-- The word of an instruction, from the formats of R205 and Tables 4 to 7; a step without an encoding has none. -/
def encode : Instr → Option Nat
  | .nop => some 0x03C00000
  | .add g d a b => some (wordR 0x00 g false d.val a.val b.val 0)
  | .sub g d a b => some (wordR 0x00 g false d.val a.val b.val 1)
  | .and g d a b => some (wordR 0x00 g false d.val a.val b.val 2)
  | .or g d a b => some (wordR 0x00 g false d.val a.val b.val 3)
  | .xor g d a b => some (wordR 0x00 g false d.val a.val b.val 4)
  | .sll g d a b => some (wordR 0x00 g false d.val a.val b.val 5)
  | .srl g d a b => some (wordR 0x00 g false d.val a.val b.val 6)
  | .sra g d a b => some (wordR 0x00 g false d.val a.val b.val 7)
  | .mul g d a b => some (wordR 0x01 g false d.val a.val b.val 0)
  | .mulh g d a b => some (wordR 0x01 g false d.val a.val b.val 1)
  | .mulhu g d a b => some (wordR 0x01 g false d.val a.val b.val 2)
  | .div g d a b => some (wordR 0x01 g false d.val a.val b.val 3)
  | .divu g d a b => some (wordR 0x01 g false d.val a.val b.val 4)
  | .rem g d a b => some (wordR 0x01 g false d.val a.val b.val 5)
  | .remu g d a b => some (wordR 0x01 g false d.val a.val b.val 6)
  | .min g d a b => some (wordR 0x02 g false d.val a.val b.val 0)
  | .max g d a b => some (wordR 0x02 g false d.val a.val b.val 1)
  | .minu g d a b => some (wordR 0x02 g false d.val a.val b.val 2)
  | .maxu g d a b => some (wordR 0x02 g false d.val a.val b.val 3)
  | .clz g d a => some (wordR 0x02 g false d.val a.val 0 4)
  | .ctz g d a => some (wordR 0x02 g false d.val a.val 0 5)
  | .popc g d a => some (wordR 0x02 g false d.val a.val 0 6)
  | .rev g d a => some (wordR 0x02 g false d.val a.val 0 7)
  | .sel g d a b => some (wordR 0x03 g false d.val a.val b.val 0)
  | .bfx g d a b => some (wordR 0x03 g false d.val a.val b.val 1)
  | .bfxs g d a b => some (wordR 0x03 g false d.val a.val b.val 2)
  | .bfi g d a b => some (wordR 0x03 g false d.val a.val b.val 3)
  | .cmpEq g d a b => some (wordR 0x04 g false d.val a.val b.val 0)
  | .cmpNe g d a b => some (wordR 0x04 g false d.val a.val b.val 1)
  | .cmpLt g d a b => some (wordR 0x04 g false d.val a.val b.val 2)
  | .cmpLtu g d a b => some (wordR 0x04 g false d.val a.val b.val 3)
  | .cmpLe g d a b => some (wordR 0x04 g false d.val a.val b.val 4)
  | .cmpLeu g d a b => some (wordR 0x04 g false d.val a.val b.val 5)
  | .gand g d a b => some (wordR 0x04 g false d.val a.val b.val 6)
  | .gor g d a b => some (wordR 0x04 g false d.val a.val b.val 7)
  | .addi g d a i => some (wordI 0x05 g d.val a.val i.toNat)
  | .andi g d a u => some (wordI 0x06 g d.val a.val (0 * 2 ^ 6 + u.toNat))
  | .ori g d a u => some (wordI 0x06 g d.val a.val (1 * 2 ^ 6 + u.toNat))
  | .xori g d a u => some (wordI 0x06 g d.val a.val (2 * 2 ^ 6 + u.toNat))
  | .slli g d a u => some (wordI 0x06 g d.val a.val (3 * 2 ^ 6 + u.toNat))
  | .srli g d a u => some (wordI 0x06 g d.val a.val (4 * 2 ^ 6 + u.toNat))
  | .srai g d a u => some (wordI 0x06 g d.val a.val (5 * 2 ^ 6 + u.toNat))
  | .li g d i => some (wordL 0x07 g d.val i.toNat)
  | .lis g d i => some (wordL 0x08 g d.val i.toNat)
  | .loop g k i => some (wordL 0x09 g k.val i.toNat)
  | .faddF64 g d a b => some (wordR 0x0A g false d.val a.val b.val 0)
  | .fsubF64 g d a b => some (wordR 0x0A g false d.val a.val b.val 1)
  | .fmulF64 g d a b => some (wordR 0x0A g false d.val a.val b.val 2)
  | .fdivF64 g d a b => some (wordR 0x0A g false d.val a.val b.val 3)
  | .fminF64 g d a b => some (wordR 0x0A g false d.val a.val b.val 4)
  | .fmaxF64 g d a b => some (wordR 0x0A g false d.val a.val b.val 5)
  | .fmaF64 g d a b => some (wordR 0x0A g false d.val a.val b.val 6)
  | .fsqrtF64 g d a => some (wordR 0x0A g false d.val a.val 0 7)
  | .faddF32 g d a b => some (wordR 0x0B g false d.val a.val b.val 0)
  | .fsubF32 g d a b => some (wordR 0x0B g false d.val a.val b.val 1)
  | .fmulF32 g d a b => some (wordR 0x0B g false d.val a.val b.val 2)
  | .fdivF32 g d a b => some (wordR 0x0B g false d.val a.val b.val 3)
  | .fminF32 g d a b => some (wordR 0x0B g false d.val a.val b.val 4)
  | .fmaxF32 g d a b => some (wordR 0x0B g false d.val a.val b.val 5)
  | .fmaF32 g d a b => some (wordR 0x0B g false d.val a.val b.val 6)
  | .fsqrtF32 g d a => some (wordR 0x0B g false d.val a.val 0 7)
  | .fcmpEqF64 g d a b => some (wordR 0x0C g false d.val a.val b.val 0)
  | .fcmpLtF64 g d a b => some (wordR 0x0C g false d.val a.val b.val 1)
  | .fcmpLeF64 g d a b => some (wordR 0x0C g false d.val a.val b.val 2)
  | .fcmpEqF32 g d a b => some (wordR 0x0C g false d.val a.val b.val 3)
  | .fcmpLtF32 g d a b => some (wordR 0x0C g false d.val a.val b.val 4)
  | .fcmpLeF32 g d a b => some (wordR 0x0C g false d.val a.val b.val 5)
  | .fcvt g d a t sc => some (wordR 0x0C g false d.val a.val (t.val * 2 ^ 3 + sc.val) 6)
  | .b g i => some (wordB 0x0D g i.toNat)
  | .jal g i => some (wordB 0x0E g i.toNat)
  | .jr g d a => some (wordR 0x0F g false d.val a.val 0 0)
  | .spawn g d a b => some (wordR 0x0F g false d.val a.val b.val 1)
  | .await g k a b => some (wordR 0x0F g false k.val a.val b.val 2)
  | .yield g k b => some (wordR 0x0F g false k.val 0 b.val 3)
  | .fin g => some (wordR 0x0F g false 0 0 0 4)
  | .sys g h l => some (wordR 0x0F g false 0 h.val l.val 5)
  | .vadd g c d a b => some (wordR 0x10 g c d.val a.val b.val 0)
  | .vsub g c d a b => some (wordR 0x10 g c d.val a.val b.val 1)
  | .vand g c d a b => some (wordR 0x10 g c d.val a.val b.val 2)
  | .vor g c d a b => some (wordR 0x10 g c d.val a.val b.val 3)
  | .vxor g c d a b => some (wordR 0x10 g c d.val a.val b.val 4)
  | .vsll g c d a b => some (wordR 0x10 g c d.val a.val b.val 5)
  | .vsrl g c d a b => some (wordR 0x10 g c d.val a.val b.val 6)
  | .vsra g c d a b => some (wordR 0x10 g c d.val a.val b.val 7)
  | .vmul g c d a b => some (wordR 0x11 g c d.val a.val b.val 0)
  | .vmulh g c d a b => some (wordR 0x11 g c d.val a.val b.val 1)
  | .vmin g c d a b => some (wordR 0x11 g c d.val a.val b.val 2)
  | .vmax g c d a b => some (wordR 0x11 g c d.val a.val b.val 3)
  | .vminu g c d a b => some (wordR 0x11 g c d.val a.val b.val 4)
  | .vmaxu g c d a b => some (wordR 0x11 g c d.val a.val b.val 5)
  | .vadds g c d a b => some (wordR 0x11 g c d.val a.val b.val 6)
  | .vsubs g c d a b => some (wordR 0x11 g c d.val a.val b.val 7)
  | .vaddScalar g c d a b => some (wordR 0x12 g c d.val a.val b.val 0)
  | .vsubScalar g c d a b => some (wordR 0x12 g c d.val a.val b.val 1)
  | .vandScalar g c d a b => some (wordR 0x12 g c d.val a.val b.val 2)
  | .vorScalar g c d a b => some (wordR 0x12 g c d.val a.val b.val 3)
  | .vxorScalar g c d a b => some (wordR 0x12 g c d.val a.val b.val 4)
  | .vsllScalar g c d a b => some (wordR 0x12 g c d.val a.val b.val 5)
  | .vsrlScalar g c d a b => some (wordR 0x12 g c d.val a.val b.val 6)
  | .vsraScalar g c d a b => some (wordR 0x12 g c d.val a.val b.val 7)
  | .vmulScalar g c d a b => some (wordR 0x13 g c d.val a.val b.val 0)
  | .vmulhScalar g c d a b => some (wordR 0x13 g c d.val a.val b.val 1)
  | .vminScalar g c d a b => some (wordR 0x13 g c d.val a.val b.val 2)
  | .vmaxScalar g c d a b => some (wordR 0x13 g c d.val a.val b.val 3)
  | .vminuScalar g c d a b => some (wordR 0x13 g c d.val a.val b.val 4)
  | .vmaxuScalar g c d a b => some (wordR 0x13 g c d.val a.val b.val 5)
  | .vaddsScalar g c d a b => some (wordR 0x13 g c d.val a.val b.val 6)
  | .vsubsScalar g c d a b => some (wordR 0x13 g c d.val a.val b.val 7)
  | .vcmpEq g c d a b => some (wordR 0x14 g c d.val a.val b.val 0)
  | .vcmpNe g c d a b => some (wordR 0x14 g c d.val a.val b.val 1)
  | .vcmpLt g c d a b => some (wordR 0x14 g c d.val a.val b.val 2)
  | .vcmpLtu g c d a b => some (wordR 0x14 g c d.val a.val b.val 3)
  | .vcmpLe g c d a b => some (wordR 0x14 g c d.val a.val b.val 4)
  | .vcmpLeu g c d a b => some (wordR 0x14 g c d.val a.val b.val 5)
  | .vmerge g c d a b => some (wordR 0x14 g c d.val a.val b.val 6)
  | .vslideup g c d a b => some (wordR 0x15 g c d.val a.val b.val 0)
  | .vslidedn g c d a b => some (wordR 0x15 g c d.val a.val b.val 1)
  | .vcompress g c d a => some (wordR 0x15 g c d.val a.val 0 2)
  | .viota g c d => some (wordR 0x15 g c d.val 0 0 3)
  | .vperm g c d a b => some (wordR 0x15 g c d.val a.val b.val 4)
  | .vbcast g c d a => some (wordR 0x15 g c d.val a.val 0 5)
  | .vext c d a b => some (wordR 0x15 .always c d.val a.val b.val 6)
  | .vmv g c d a => some (wordR 0x15 g c d.val a.val 0 7)
  | .mand g c d a b => some (wordR 0x16 g c d.val a.val b.val 0)
  | .mor g c d a b => some (wordR 0x16 g c d.val a.val b.val 1)
  | .mxor g c d a b => some (wordR 0x16 g c d.val a.val b.val 2)
  | .mandn g c d a b => some (wordR 0x16 g c d.val a.val b.val 3)
  | .mpop g c d a => some (wordR 0x16 g c d.val a.val 0 4)
  | .mfirst g c d a => some (wordR 0x16 g c d.val a.val 0 5)
  | .vtom g c d a => some (wordR 0x16 g c d.val a.val 0 6)
  | .mtov g c d a => some (wordR 0x16 g c d.val a.val 0 7)
  | .vfadd g c d a b => some (wordR 0x17 g c d.val a.val b.val 0)
  | .vfsub g c d a b => some (wordR 0x17 g c d.val a.val b.val 1)
  | .vfmul g c d a b => some (wordR 0x17 g c d.val a.val b.val 2)
  | .vfdiv g c d a b => some (wordR 0x17 g c d.val a.val b.val 3)
  | .vfmin g c d a b => some (wordR 0x17 g c d.val a.val b.val 4)
  | .vfmax g c d a b => some (wordR 0x17 g c d.val a.val b.val 5)
  | .vfma g c d a b => some (wordR 0x17 g c d.val a.val b.val 6)
  | .vfsqrt g c d a => some (wordR 0x17 g c d.val a.val 0 7)
  | .vfaddScalar g c d a b => some (wordR 0x18 g c d.val a.val b.val 0)
  | .vfsubScalar g c d a b => some (wordR 0x18 g c d.val a.val b.val 1)
  | .vfmulScalar g c d a b => some (wordR 0x18 g c d.val a.val b.val 2)
  | .vfdivScalar g c d a b => some (wordR 0x18 g c d.val a.val b.val 3)
  | .vfminScalar g c d a b => some (wordR 0x18 g c d.val a.val b.val 4)
  | .vfmaxScalar g c d a b => some (wordR 0x18 g c d.val a.val b.val 5)
  | .vfmaScalar g c d a b => some (wordR 0x18 g c d.val a.val b.val 6)
  | .vfcmpEq g c d a b => some (wordR 0x19 g c d.val a.val b.val 0)
  | .vfcmpLt g c d a b => some (wordR 0x19 g c d.val a.val b.val 1)
  | .vfcmpLe g c d a b => some (wordR 0x19 g c d.val a.val b.val 2)
  | .vfsgcopy g c d a b => some (wordR 0x19 g c d.val a.val b.val 3)
  | .vfsgflip g c d a b => some (wordR 0x19 g c d.val a.val b.val 4)
  | .vfsgmix g c d a b => some (wordR 0x19 g c d.val a.val b.val 5)
  | .vfkind g c d a => some (wordR 0x19 g c d.val a.val 0 6)
  | .vexp2 g c d a => some (wordR 0x1A g c d.val a.val 0 0)
  | .vlog2 g c d a => some (wordR 0x1A g c d.val a.val 0 1)
  | .vrsqrt g c d a => some (wordR 0x1A g c d.val a.val 0 2)
  | .vrcp g c d a => some (wordR 0x1A g c d.val a.val 0 3)
  | .vcvt g c d a t => some (wordR 0x1B g c d.val a.val t.val 0)
  | .vcvtW g c d a t => some (wordR 0x1B g c d.val a.val t.val 1)
  | .vcvtN g c d a t => some (wordR 0x1B g c d.val a.val t.val 2)
  | .vquant g c d a f b => some (wordR 0x1B g c d.val a.val (bit01 f * 2 ^ 5 + b.val) 3)
  | .vquantS g c d a f b => some (wordR 0x1B g c d.val a.val (bit01 f * 2 ^ 5 + b.val) 4)
  | .vdequant g c d a f b => some (wordR 0x1B g c d.val a.val (bit01 f * 2 ^ 5 + b.val) 5)
  | .vquantPg g c d a f b => some (wordR 0x1B g c d.val a.val (bit01 f * 2 ^ 5 + b.val) 6)
  | .vredsum g c d a => some (wordR 0x1C g c d.val a.val 0 0)
  | .vredmin g c d a => some (wordR 0x1C g c d.val a.val 0 1)
  | .vredmax g c d a => some (wordR 0x1C g c d.val a.val 0 2)
  | .vredand g c d a => some (wordR 0x1C g c d.val a.val 0 3)
  | .vredor g c d a => some (wordR 0x1C g c d.val a.val 0 4)
  | .vredxor g c d a => some (wordR 0x1C g c d.val a.val 0 5)
  | .vscan g c d a => some (wordR 0x1C g c d.val a.val 0 6)
  | .vscanmax g c d a => some (wordR 0x1C g c d.val a.val 0 7)
  | .vsredsum g c d a b => some (wordR 0x1D g c d.val a.val b.val 0)
  | .vsredmin g c d a b => some (wordR 0x1D g c d.val a.val b.val 1)
  | .vsredmax g c d a b => some (wordR 0x1D g c d.val a.val b.val 2)
  | .vsscan g c d a b => some (wordR 0x1D g c d.val a.val b.val 3)
  | .ldB64 g d a i => some (wordI 0x20 g d.val a.val i.toNat)
  | .ldB32 g d a i => some (wordI 0x21 g d.val a.val i.toNat)
  | .stB64 g d a i => some (wordI 0x22 g d.val a.val i.toNat)
  | .stB32 g d a i => some (wordI 0x23 g d.val a.val i.toNat)
  | .ldB8 g d a i => some (wordMS 0x24 g d.val a.val 0 i.toNat)
  | .ldB16 g d a i => some (wordMS 0x24 g d.val a.val 1 i.toNat)
  | .ldI8 g d a i => some (wordMS 0x24 g d.val a.val 2 i.toNat)
  | .ldI16 g d a i => some (wordMS 0x24 g d.val a.val 3 i.toNat)
  | .ldI32 g d a i => some (wordMS 0x24 g d.val a.val 4 i.toNat)
  | .stB8 g d a i => some (wordMS 0x24 g d.val a.val 5 i.toNat)
  | .stB16 g d a i => some (wordMS 0x24 g d.val a.val 6 i.toNat)
  | .vld g c d a sc o => some (wordRO 0x25 g c d.val a.val sc.val o.val 0)
  | .vlds g c d a sc o => some (wordRO 0x25 g c d.val a.val sc.val o.val 1)
  | .vldx g c d a b => some (wordR 0x25 g c d.val a.val b.val 2)
  | .vldt g c d a sc o => some (wordRO 0x25 g c d.val a.val sc.val o.val 3)
  | .vldn g c d a => some (wordR 0x25 g c d.val a.val 0 4)
  | .vldWp g c d a h => some (wordR 0x25 g c d.val a.val h.val 5)
  | .vst g c d a sc o => some (wordRO 0x26 g c d.val a.val sc.val o.val 0)
  | .vsts g c d a sc o => some (wordRO 0x26 g c d.val a.val sc.val o.val 1)
  | .vstx g c d a b => some (wordR 0x26 g c d.val a.val b.val 2)
  | .vstt g c d a sc o => some (wordRO 0x26 g c d.val a.val sc.val o.val 3)
  | .vstn g c d a => some (wordR 0x26 g c d.val a.val 0 4)
  | .ldWp g d a h w i => some (wordMW 0x27 g d.val a.val h.val w.val i.toNat)
  | .ldAcq g d a sc w i => some (wordMO 0x28 g d.val a.val sc.val 1 w.val i.toNat)
  | .stRel g d a sc w i => some (wordMO 0x28 g d.val a.val sc.val 2 w.val i.toNat)
  | .atomAdd g d a sc o w => some (wordA 0x29 g d.val a.val sc.val o.val (bit01 w) 0)
  | .atomMin g d a sc o w => some (wordA 0x29 g d.val a.val sc.val o.val (bit01 w) 1)
  | .atomMax g d a sc o w => some (wordA 0x29 g d.val a.val sc.val o.val (bit01 w) 2)
  | .atomMinu g d a sc o w => some (wordA 0x29 g d.val a.val sc.val o.val (bit01 w) 3)
  | .atomMaxu g d a sc o w => some (wordA 0x29 g d.val a.val sc.val o.val (bit01 w) 4)
  | .atomAnd g d a sc o w => some (wordA 0x29 g d.val a.val sc.val o.val (bit01 w) 5)
  | .atomOr g d a sc o w => some (wordA 0x29 g d.val a.val sc.val o.val (bit01 w) 6)
  | .atomXor g d a sc o w => some (wordA 0x29 g d.val a.val sc.val o.val (bit01 w) 7)
  | .atomSwap g d a sc o w => some (wordA 0x2A g d.val a.val sc.val o.val (bit01 w) 0)
  | .atomCas g d a sc o w => some (wordA 0x2A g d.val a.val sc.val o.val (bit01 w) 1)
  | .vatomAdd g d a sc o => some (wordVA 0x2B g d.val a.val sc.val o.val 0)
  | .vatomMin g d a sc o => some (wordVA 0x2B g d.val a.val sc.val o.val 1)
  | .vatomMax g d a sc o => some (wordVA 0x2B g d.val a.val sc.val o.val 2)
  | .vatomAnd g d a sc o => some (wordVA 0x2B g d.val a.val sc.val o.val 3)
  | .vatomOr g d a sc o => some (wordVA 0x2B g d.val a.val sc.val o.val 4)
  | .vatomXor g d a sc o => some (wordVA 0x2B g d.val a.val sc.val o.val 5)
  | .vatomSwap g d a sc o => some (wordVA 0x2B g d.val a.val sc.val o.val 6)
  | .vatomCas g d a sc o => some (wordVA 0x2B g (oddOf d.val) a.val sc.val o.val 7)
  | .vwait g k a b => some (wordR 0x2C g false k.val a.val b.val 0)
  | .barv g d a => some (wordR 0x2C g false d.val a.val 0 1)
  | .bnew g d a => some (wordR 0x2D g false d.val a.val 0 0)
  | .bfree g d a => some (wordR 0x2D g false d.val a.val 0 1)
  | .bsig g a b => some (wordR 0x2D g false 0 a.val b.val 2)
  | .bsigOneOperand g a => some (wordR 0x2D g false 1 a.val 0 2)
  | .bsigErr g a b => some (wordR 0x2D g false 0 a.val b.val 3)
  | .bqry g d a => some (wordR 0x2D g false d.val a.val 0 4)
  | .barm g a b => some (wordR 0x2D g false 0 a.val b.val 5)
  | .barmRel g a b => some (wordR 0x2D g false 0 a.val b.val 6)
  | .rcopy g h a b => some (wordR 0x2E g false h.val (oddOf a.val) (oddOf b.val) 0)
  | .rcopyShape g h a b => some (wordR 0x2E g false h.val a.val b.val 1)
  | .rwp g d h => some (wordR 0x2E g false d.val h.val 0 2)
  | .rcancel g h => some (wordR 0x2E g false h.val 0 0 3)
  | .rqry g d h => some (wordR 0x2E g false d.val h.val 0 4)
  | .amsend g a => some (wordR 0x2E g false 0 a.val 0 5)
  | .amreply g a => some (wordR 0x2E g false 0 a.val 0 6)
  | .amreg g a b => some (wordR 0x2E g false 0 a.val b.val 7)
  | .swalloc g d a b => some (wordR 0x2F g false d.val a.val b.val 0)
  | .swfree g d a => some (wordR 0x2F g false d.val a.val 0 1)
  | .swquota g d a => some (wordR 0x2F g false d.val a.val 0 2)
  | .mmk g c e a b t => some (wordX 0x30 g c e.val a.val b.val t.val 0)
  | .mmkScratchpad g c e a b t => some (wordX 0x30 g c e.val a.val b.val t.val 1)
  | .mmga g c e a b t => some (wordX 0x31 g c e.val a.val b.val t.val 0)
  | .mmgaScratchpad g c e a b t => some (wordX 0x31 g c e.val a.val b.val t.val 1)
  | .mshape d a => some (wordR 0x32 .always false d.val a.val 0 0)
  | .mzero g e => some (wordR 0x32 g false e.val 0 0 1)
  | .mld g e a => some (wordR 0x32 g false e.val a.val 0 2)
  | .mst g e a => some (wordR 0x32 g false e.val a.val 0 3)
  | .mcvt g d e t => some (wordR 0x32 g false d.val e.val t.val 4)
  | .mseg d a => some (wordR 0x32 .always false d.val a.val 0 5)
  | .vtmask g c d a b => some (wordR 0x33 g c d.val a.val b.val 0)
  | .vexpm g c d a b => some (wordR 0x33 g c d.val a.val b.val 1)
  | .vscore g c d q e b => some (wordR 0x33 g c d.val (q.val * 2 ^ 2 + e.val) b.val 2)
  | .vpacc g c d a b => some (wordR 0x33 g c d.val a.val b.val 3)
  | .pxl g d a b => some (wordR 0x34 g false d.val a.val b.val 0)
  | .pxw g a b => some (wordR 0x34 g false 0 a.val b.val 1)
  | .pxwSh g a k => some (wordR 0x34 g false 1 a.val k.val 1)
  | .pxinv g a b => some (wordR 0x34 g false 0 a.val b.val 2)
  | .pxret g => some (wordR 0x34 g false 0 0 0 3)
  | .dsadv g d a b => some (wordR 0x35 g false d.val a.val b.val 0)
  | .dstrunc g a b => some (wordR 0x35 g false 0 a.val b.val 1)
  | .dsframe g d a b => some (wordR 0x35 g false d.val a.val b.val 2)
  | .dsplay g a b => some (wordR 0x35 g false 0 a.val b.val 3)
  | .launch g d a => some (wordR 0x36 g false d.val a.val 0 0)
  | .cancel g d a => some (wordR 0x36 g false d.val a.val 0 1)
  | .cget g d r => some (wordR 0x38 g false d.val r.val 0 0)
  | .cset g r a => some (wordR 0x38 g false r.val a.val 0 1)
  | .vcfg g d r w => some (wordR 0x38 g false d.val r.val w.val 2)
  | .spsplit g d k => some (wordR 0x38 g false d.val k.val 0 3)
  | .stripBegin g a => some (wordR 0x38 g false 0 a.val 0 4)
  | .stripCommit g => some (wordR 0x38 g false 0 0 0 5)
  | .asidBind g d a => some (wordR 0x38 g false d.val a.val 0 6)
  | .asidRetire g d a => some (wordR 0x38 g false d.val a.val 0 7)
  | .xlinvVa g d a b => some (wordR 0x39 g false d.val a.val b.val 0)
  | .xlinvAsid g d a => some (wordR 0x39 g false d.val a.val 0 1)
  | .xlinvGlob g d => some (wordR 0x39 g false d.val 0 0 2)
  | .fence g k sc => some (wordR 0x39 g false 0 k.val sc.val 3)
  | .waitingRecordWrite _ => none
  | .deferredStoreFailure _ => none
  | .pendingDatumArrival _ _ _ _ _ => none
  | .preemption _ _ => none
  | .pacerDecision _ => none
  | .pacerPreemption _ => none
  | .contextSpill _ _ => none
  | .contextReturn _ _ => none
  | .clusterWindowRequest _ => none
  | .activeMessageHandler _ => none
  | .handlerLimit _ => none
  | .amReplyDelivery _ => none
  | .remoteSignalArrival _ _ _ => none
  | .batonPoll _ _ => none
  | .relayChunk _ _ => none
  | .relayBeat _ _ => none
  | .relayComplete _ _ => none
  | .relayCancelComplete _ _ => none
  | .translationWalk _ _ _ => none
  | .runAheadTranslation _ _ => none
  | .maintenanceComplete _ _ => none
  | .asidRetirementComplete _ => none
  | .homeSliceRequest _ => none
  | .bankConflict _ => none
  | .hdcfgWrite _ _ => none
  | .granuleMove _ => none
  | .migrationComplete _ => none
  | .mctlWrite _ => none
  | .switchAccess _ => none
  | .mirrorImageInstall _ => none
  | .failoverAccess _ => none
  | .mergeLockLapse _ _ => none
  | .planeDown _ => none
  | .planeUp _ _ => none
  | .collectiveAbortReceipt _ _ _ => none
  | .starterDecision => none
  | .starterTimedDecision => none
  | .launchBlocking _ => none
  | .dependenceFailed _ => none
  | .launchCompletion _ => none
  | .unloadComplete _ => none
  | .ccmdOpen _ _ _ => none
  | .ccmdResume _ _ _ => none
  | .ccmdKill _ _ _ => none
  | .ccmdClose _ _ _ => none
  | .ccmdBadcmd _ => none
  | .machineCheck _ => none
  | .truncationCleanup _ => none
  | .cleanupComplete _ => none
  | .cleanupFailed _ _ _ => none
  | .hostAccess _ => none
  | .hostSignal _ _ _ => none
  | .hostsigWrite _ => none
  | .linkLoss => none
  | .linkReturn => none
  | .ownClaim _ _ _ => none
  | .ownRelease _ _ _ => none
  | .ownHandover _ _ _ => none
  | .leaseLapse => none
  | .ownerScrubComplete => none
  | .engagementScrub _ => none
  | .engagementScrubComplete => none
  | .attestation _ => none
  | .attestationComplete => none
  | .keyLoad _ _ => none
  | .keyErase _ => none
  | .moduleReset => none
  | .memoryTrained => none
  | .fabricTrained _ => none
  | .hbmRepair _ _ => none
  | .clockThrottle => none
  | .clockRestore => none
  | .thermalStop => none
  | .registerWrite _ _ => none
  | .vwaitRound _ _ => none
  | .illegalInstruction _ => none
  | .instructionFetchFault _ => none

/-! ## The cause of a word that does not decode (R208) -/

/-- Whether MAJOR is assigned and its selector names an instruction: the majors of Tables 4 to 7 with the number of their
minors (of the I formats and of `vatom`, whose selector stands elsewhere, too). -/
def selectorAssigned (w : Nat) : Bool :=
  let minor := w % 8
  let sub := w / 2 ^ 6 % 8
  match w / 2 ^ 26 % 64 with
  | 0x01 => minor < 7
  | 0x03 => minor < 4
  | 0x06 => sub < 6
  | 0x0C => minor < 7
  | 0x0F => minor < 6
  | 0x14 => minor < 7
  | 0x18 => minor < 7
  | 0x19 => minor < 7
  | 0x1A => minor < 4
  | 0x1B => minor < 7
  | 0x1D => minor < 4
  | 0x1E => false
  | 0x1F => false
  | 0x24 => sub < 7
  | 0x25 => minor < 6
  | 0x26 => minor < 5
  | 0x2A => minor < 2
  | 0x2C => minor < 2
  | 0x2D => minor < 7
  | 0x2F => minor < 3
  | 0x32 => minor < 6
  | 0x33 => minor < 4
  | 0x34 => minor < 4
  | 0x35 => minor < 4
  | 0x36 => minor < 2
  | 0x37 => false
  | 0x39 => minor < 4
  | m => m < 0x3A

/-- ILLEGAL_INSTRUCTION for an unassigned major or selector, RESERVED_FIELD for any other word outside every encoding. -/
def undecodedCause (w : Nat) : Cause := if selectorAssigned w then .reservedField else .illegalInstruction

/-! ## Decoding (R208) -/

/-- The instruction of a word, or the cause of R208 that it raises at decode. The privilege check and that of
control-register numbers follow in the meanings, which know who executes. -/
noncomputable def decode (w : Nat) : Except Cause Instr :=
  if w = 0x03C00000 then .ok .nop
  else match decodeRaw w with
    | none => .error (undecodedCause w)
    | some i => if (guardOf w).ok && i.wellFormed && encode i == some w then .ok i else .error (undecodedCause w)

/-- The four bytes of a word as memory holds them, least significant first (R201). -/
noncomputable def decodeBytes (bs : List Byte) : Except Cause Instr := decode (leNat bs % 2 ^ 32)

/-- The instruction that the decoder reads from an instruction's bits as the opcode table numbers them: bit 0 is the
least significant of its one word. -/
noncomputable def decodeTableWord (_nbits w : Nat) : Option Instr :=
  match decodeBytes (leBytes 4 w) with
  | .ok i => some i
  | .error _ => none

end Sys2Proof
end

