-- ==== Sys2Proof/Machine/Duplex.lean ====
section
/-! DEFINITION. Full-duplex streams (spec/12_matrix_attention_instr.md R320 to R322, spec/13_duplex_streams.md): major
0x35, and the clean-up after a truncation. -/

namespace Sys2Proof.Machine

/-! ## The stream record (R326, Table 1) -/

/-- A record: its 128 bytes, little-endian. -/
abbrev DsRec := Nat

/-- `n` bytes at offset `o`, and those bytes replaced. -/
def dsGet (r : DsRec) (o n : Nat) : Nat := r / 2 ^ (8 * o) % 2 ^ (8 * n)
def dsPut (r : DsRec) (o n v : Nat) : DsRec := setBits r (8 * (o + n) - 1) (8 * o) v

def dsGcur (r : DsRec) : Nat := dsGet r 0 4
def dsPcur (r : DsRec) : Nat := dsGet r 4 4
def dsEpoch (r : DsRec) : Nat := dsGet r 8 4
def dsStrm (r : DsRec) : Nat := dsGet r 16 2
def dsPend (r : DsRec) : Nat := dsGet r 18 2
def dsMir (r : DsRec) : Bool := dsGet r 20 1 % 2 == 1
def dsBtlog (r : DsRec) : Nat := dsGet r 21 1
def dsFail (r : DsRec) : Nat := dsGet r 22 1
def dsTbaton (r : DsRec) : Word := w64 (dsGet r 24 8)
def dsState (r : DsRec) : Word := w64 (dsGet r 32 8)
def dsSnapsz (r : DsRec) : Nat := dsGet r 40 4
def dsSnapbase (r : DsRec) : Word := w64 (dsGet r 48 8)
def dsMirbase (r : DsRec) : Word := w64 (dsGet r 56 8)
def dsBtab (r : DsRec) : Word := w64 (dsGet r 64 8)

/-- O, the oldest position whose snapshot is retained (R320). -/
def dsOldest (r : DsRec) : Nat := dsGcur r - 63

/-- The first step of a truncation to cursor `c` (R322): the record after it, and whether clean-up begins. -/
def dsTruncate (r : DsRec) (c : Nat) : DsRec × Bool :=
  let r1 := dsPut r 4 4 (min (dsPcur r) c)
  if c + 1 < dsGcur r then (dsPut (dsPut r1 0 4 (c + 1)) 18 2 (dsPend r + 1), true) else (r1, false)

/-- EPOCH advanced. -/
def dsNextEpoch (r : DsRec) : DsRec := dsPut r 8 4 (dsEpoch r + 1)

/-! ## Reaching the record (R320) -/

/-- The die of the home slice of a line: where it is resident, and otherwise where it would be placed (R25, R56, R337). -/
def State.homeDie (s : State) (skew pa : Nat) : Nat :=
  (match s.caches.l2Line (hbmStore pa / 128) with
    | some l => l.slice
    | none => s.memRegs.placeSlice skew (dieOf s.core.id) pa) / 64

/-- The record at `a`, translated with R and W: only HBM of this module holds one. -/
def State.dsFind (s : State) (a : Word) : Except Cause (Nat × Xlat) :=
  match s.translate s.me .atomic false a with
  | .error c => .error c
  | .ok x => match x.target with
    | .hbm pa => .ok (pa, x)
    | _ => .error .streamInvalid

/-- Whether `dsadv` advances the cursor (R321): sb holds its position and epoch. -/
def dsGood (b : Word) (r : DsRec) : Bool :=
  let p := b.toNat % 2 ^ 32
  b.toNat / 2 ^ 32 == dsEpoch r && p == dsGcur r + 1 && p ≤ dsPcur r + 63 && dsPend r == 0

/-- What an operation with operand sb makes of the record at its home slice, or the cause that it meets there (R321, R322):
`dstrunc` truncates to PCUR, `dsframe` stamps a frame and, with B = 1, truncates to it. -/
def DsForm.step (f : DsForm) (b : Word) (r : DsRec) : Except Cause DsRec :=
  let p := b.toNat % 2 ^ 32
  match f with
  | .adv _ => .ok (if dsGood b r then dsPut r 0 4 p else r)
  | .trunc => if dsPcur r < dsOldest r then .error .lateFrame else .ok (dsTruncate (dsNextEpoch r) (dsPcur r)).1
  | .frame _ =>
    if p < dsOldest r then .error .lateFrame
    else
      let r1 := dsNextEpoch (dsPut r 12 4 p)
      .ok (if bitAt b.toNat 32 then (dsTruncate r1 p).1 else r1)
  | .play => .ok (dsPut r 4 4 (min (max (dsPcur r) p) (dsGcur r)))

/-- The record that it writes there, if that changes it. -/
def DsForm.new (f : DsForm) (b : Word) (r : DsRec) : Option DsRec :=
  match f.step b r with
  | .error _ => none
  | .ok r1 => if r1 = r then none else some r1

/-- What its reply writes in the issuer, from the record before and after it. -/
def DsForm.result (f : DsForm) (b : Word) (old new : DsRec) (c : Coro) : Coro :=
  match f with
  | .adv d => c.setGPair d (dsGood b old)
  | .frame d => c.setS d (w64 (dsEpoch new))
  | .trunc => c
  | .play => c

/-! ## Truncations (R322, R336, R337) -/

/-- The clean-ups of a record. -/
def State.cleanupsOf (s : State) (pa : Nat) : List Cleanup := s.cleanups.filter (·.record == pa)

/-- A SIGNAL_DROPPED record for a TBATON that may not be signalled. -/
def State.dropNotice (s : State) (die : Nat) (h : Word) : State :=
  s.appendRecord die false (advisory 6 0 0 0 0 0 0 (w64 Config.moduleNumber) h 0)

/-- The baton of a truncation by coroutine `c`: the operand's, or TBATON, which is checked here and dropped with a notice
(R337). -/
def State.dsBaton (s : State) (c : Coro) (die : Nat) (h tb : Word) : Word × State :=
  if h != 0 then (h, s)
  else match (s.modRun (fun _ => c)).completionCheck tb with
    | none => (tb, s.asked tb)
    | some _ => (0, (s.asked tb).dropNotice die tb)

/-- After the first step of a truncation to `n` by coroutine `c`, of engagement slot `slot`: the signal at once, or a clean-up
that holds the baton. -/
def State.afterTruncate (s : State) (c : Coro) (slot : Nat) (a : Word) (pa : Nat) (x : Xlat) (old : DsRec) (n : Nat)
    (h : Word) : State :=
  let die := s.homeDie x.skew pa
  let p := s.dsBaton c die h (dsTbaton old)
  if (dsTruncate old n).2 then
    let u : Cleanup := ⟨pa, a, x.key, n, dsGcur old, p.1, c.asid, slot, c.priv, coroWord s.core.id c, c.inc, .queued, 0⟩
    let s1 := ({ p.2 with cleanups := p.2.cleanups ++ [u] }).holdBaton p.1
    if (p.2.cleanupsOf pa).isEmpty then s1.push (.truncationCleanup pa) else s1
  else p.2.deviceSignal p.1 1

/-- What else an operation of coroutine `c` does once the record at `a` has changed: a truncation's second step. -/
def State.streamAfter (s : State) (c : Coro) (slot : Nat) (f : DsForm) (b a : Word) (pa : Nat) (x : Xlat) (old : DsRec) :
    State :=
  match f with
  | .trunc => s.afterTruncate c slot a pa x old (dsPcur old) b
  | .frame _ => if bitAt b.toNat 32 then s.afterTruncate c slot a pa x old (b.toNat % 2 ^ 32) 0 else s
  | .adv _ => s
  | .play => s

/-- The operation applied atomically, a release and an acquire at `.mod` (R125, R320): the checks at issue are those of the baton
`h` and `bad`. One that its home makes wait is pending when its coroutine is stopped (R227). -/
def State.dsOp (s0 : State) (f : DsForm) (a b h : Word) (bad : Option Cause) : State :=
  if a.toNat % 128 != 0 then s0.raiseAt .streamInvalid 0 a
  else s0.noStrip (fun s => s.checkedDone h (fun s => s.checked bad (fun s =>
    match s.dsFind a with
    | .error c => s.failAccess .atomic c 0 a 128
    | .ok (pa, x) => s.released (some 4) (fun s =>
      match s.atomicDo s.issuer x 128 (f.new b) with
      | .wait _ =>
        s0.setFlight (s0.core.run.flightOr (s.pendOf .atomic (fun _ _ => .stream f b) none a 4 0 [(x, 128)]))
      | .cause c s1 => s1.failAccess .atomic c 0 a 128
      | .ok old s1 => match f.step b old with
        | .error c => s1.raise c
        | .ok r =>
          let s2 := (s1.acquire 4).streamAfter s.core.run s.mySlot f b a pa x old
          ((s2.modRun (f.result b old r)).landed).advance))))

/-! ## Meanings of the instructions (R321) -/

def execDsadv (g : Guard) (d : Fin 64) (a b : Fin 32) (s : State) : Res :=
  .next (s.guarded g (fun s => s.dsOp (.adv d) (s.getS a) (s.getS b) 0 none))

def execDsplay (g : Guard) (a b : Fin 32) (s : State) : Res :=
  .next (s.guarded g (fun s => s.dsOp .play (s.getS a) (s.getS b) 0 none))

/-- Its operand is its baton (R337). -/
def execDstrunc (g : Guard) (a b : Fin 32) (s : State) : Res :=
  .next (s.guarded g (fun s => s.dsOp .trunc (s.getS a) (s.getS b) (s.getS b) none))

/-- Bits above B must be zero. -/
def execDsframe (g : Guard) (d a b : Fin 32) (s : State) : Res :=
  .next (s.guarded g (fun s => s.dsOp (.frame d) (s.getS a) (s.getS b) 0
    (if (s.getS b).toNat / 2 ^ 33 != 0 then some .streamInvalid else none)))

/-! ## Clean-up (R331, R336, R338) -/

/-- Who makes the accesses of a clean-up: no core, so no near window (R336, R417). -/
def Cleanup.who (u : Cleanup) : Who := { asid := u.asid, priv := u.priv, core := none, slot := u.slot }
def Cleanup.issuer (u : Cleanup) (via : Via) : Issuer := ⟨u.coro, u.asid.toNat, u.slot, via⟩

/-- One entry of the block table ORed with 1 by an atomic at its home, unless it is 0 (R336). -/
def State.freePage (s : State) (u : Cleanup) (a : Word) : Except Stop State :=
  if a.toNat % 8 != 0 then .error (.cause .atomicMisaligned s)
  else match s.translate u.who .atomic false a with
    | .error c => .error (.cause c s)
    | .ok x => match s.atomicDo (u.issuer .device) x 8 (fun old => if old = 0 then none else some (old ||| 1)) with
      | .wait _ => .error .wait
      | .cause c s1 => .error (.cause c s1)
      | .ok _ s1 => .ok s1

/-- Pages above the one that holds `c + 1`, up to that of the old GCUR. -/
def Cleanup.pages (u : Cleanup) : List Nat :=
  let lo := (u.cursor + 1) / 16 + 1
  (List.range (u.oldG / 16 + 1 - lo)).map (· + lo)

/-- The position-translation entries above the cursor leave every core. -/
def State.dropPositions (s : State) (u : Cleanup) (stream : Nat) : State :=
  s.mapCores (fun c => { c with ptb := c.ptb.filter (fun p =>
    !(p.asid == u.asid && p.stream.toNat == stream && decide ((u.cursor + 1) / 16 < p.page.toNat))) })

/-- One beat of 128 bytes read, or written with `bs`: its requests are those of a relay engine's (R70, R336, R412). -/
def State.beatRead (s : State) (u : Cleanup) (a : Word) : Except Stop (List Byte × State) :=
  match s.translateAccess u.who .read false a 128 with
  | .error c => .error (.cause c s)
  | .ok ps => match s.beatsArrive (u.issuer .unit) false none ps with
    | none => .error .wait
    | some s1 => s1.readParts (u.issuer .unit) ps
def State.beatWrite (s : State) (u : Cleanup) (a : Word) (bs : List Byte) : Except Stop State :=
  match s.translateAccess u.who .write false a 128 with
  | .error c => .error (.cause c s)
  | .ok ps => match s.beatsArrive (u.issuer .unit) true none ps with
    | none => .error .wait
    | some s1 => match s1.writeParts (u.issuer .unit) bs ps with
      | .error e => .error e
      | .ok (some c, s2) => .error (.cause c s2)
      | .ok (none, s2) => .ok s2

/-- Bytes of the record as its home slice reads and writes them, with no request of its own. -/
def State.dsBytes (s : State) (u : Cleanup) (o n : Nat) (reads writes : Bool) (f : List Byte → Option (List Byte)) :
    Except Stop (List Byte × State) :=
  s.homeDo (u.issuer .unit) { target := .hbm (u.record + o), ace := false, key := u.key, conf := false, skew := 0 } n
    reads writes true f

/-- The failure's code in FAIL, whatever else of the record is poisoned (R338, R379). -/
def State.putFail (s : State) (u : Cleanup) (code : Nat) : State :=
  match s.dsBytes u 22 1 false true (fun _ => some (leBytes 1 code)) with
  | .error _ => s
  | .ok (_, s1) => s1

/-- The clean-up of a record whose turn it is: the oldest. -/
def State.cleanupAt (s : State) (pa : Nat) : Option Cleanup := s.cleanups.find? (·.record == pa)

/-- The first element of a list that `p` accepts, changed. -/
def modFirst {α : Type} (p : α → Bool) (f : α → α) : List α → List α
  | [] => []
  | x :: xs => if p x then f x :: xs else x :: modFirst p f xs

/-- The clean-up whose turn it is goes on to a stage, and takes its next step. -/
def State.setStage (s : State) (u : Cleanup) (st : CleanStage) : State :=
  { s with cleanups := modFirst (·.record == u.record) (fun x => { x with stage := st }) s.cleanups }
def State.goOn (s : State) (u : Cleanup) (st : CleanStage) : State := (s.setStage u st).push (.truncationCleanup u.record)

/-- A part of the clean-up has failed: `lost` says that no ring held the snapshot (R338). -/
def State.cleanFails (s : State) (u : Cleanup) (lost : Bool) (c : Cause) : State :=
  (s.setStage u .failed).push (.cleanupFailed u.record lost c)

/-- It has ended; the next of the record takes its turn. -/
def State.endCleanup (s : State) (u : Cleanup) : State :=
  let s1 := ({ s with cleanups := s.cleanups.erase u }).releaseBaton u.baton
  if (s1.cleanupsOf u.record).isEmpty then s1 else s1.push (.truncationCleanup u.record)

/-- Whether the record's SNAPSZ and BTLOG lie in their ranges (R326, R338). -/
def dsSizesGood (r : DsRec) : Bool := dsBtlog r ≤ 24 && dsSnapsz r != 0 && dsSnapsz r % 128 == 0 && dsSnapsz r ≤ 2 ^ 24

/-- The turn of a clean-up comes: on a stalled record it error-signals alone; otherwise it begins with the record's fields as
they are now. BTAB, which lies in the record's other half, is read only where pages are to be detached. -/
def State.cleanupStart (s : State) (u : Cleanup) : State :=
  let again := s.push (.truncationCleanup u.record)
  match s.dsBytes u 0 64 true false (fun _ => none) with
  | .error .wait => again
  | .error (.cause c s1) => s1.cleanFails u false c
  | .ok (lo, s1) =>
    let r := leNat lo
    if dsFail r != 0 then (s1.endCleanup u).deviceErr u.baton (dsFail r)
    else if !dsSizesGood r then s1.cleanFails u false .none
    else
      let begin_ (t : State) (rec_ : Nat) (st : CleanStage) : State :=
        ({ t with cleanups := modFirst (·.record == u.record) (fun x => { x with rec_ := rec_ }) t.cleanups }).goOn u st
      if u.pages.isEmpty then begin_ s1 r .positions
      else match s1.dsBytes u 64 64 true false (fun _ => none) with
        | .error .wait => again
        | .error (.cause c s2) => s2.cleanFails u false c
        | .ok (hi, s2) => begin_ s2 (leNat (lo ++ hi)) (.detach 0)

/-- Where the slot of the cursor lies in the primary ring or in the mirror ring. -/
def Cleanup.slotAt (u : Cleanup) (mirror : Bool) : Word :=
  (if mirror then dsMirbase u.rec_ else dsSnapbase u.rec_) + w64 (u.cursor % 64 * (dsSnapsz u.rec_ + 128))

/-- A ring has failed, by its tags or by a cause: the mirror ring is read once, where there is one (R331, R338). -/
def State.ringFails (s : State) (u : Cleanup) (mirror : Bool) (c : Cause) : State :=
  if !mirror && dsMir u.rec_ then s.goOn u (.tag true false) else s.cleanFails u true c

/-- A tag of the slot compared with the cursor: before the copy, and again after it (R331). -/
def State.cleanTag (s : State) (u : Cleanup) (mirror again : Bool) : State :=
  match s.loadAs u.who (u.issuer .device) (u.slotAt mirror) 8 with
  | .error .wait => s.goOn u u.stage
  | .error (.cause c s1) => s1.ringFails u mirror c
  | .ok (bs, s1) =>
    if leNat bs != u.cursor then s1.ringFails u mirror .none
    else if again then (s1.setStage u .ended).push (.cleanupComplete u.record)
    else s1.goOn u (.copy mirror 0)

/-- One beat of the copy from the slot to STATE; those already written stay. -/
def State.cleanBeat (s : State) (u : Cleanup) (mirror : Bool) (n : Nat) : State :=
  if dsSnapsz u.rec_ / 128 ≤ n then s.goOn u (.tag mirror true)
  else match s.beatRead u (u.slotAt mirror + w64 (128 + 128 * n)) with
    | .error .wait => s.goOn u u.stage
    | .error (.cause c s1) => s1.ringFails u mirror c
    | .ok (bs, s1) => match s1.beatWrite u (dsState u.rec_ + w64 (128 * n)) bs with
      | .error .wait => s.goOn u u.stage
      | .error (.cause c s2) => s2.cleanFails u false c
      | .ok s2 => s2.goOn u (.copy mirror (n + 1))

/-- One step of the clean-up whose turn it is: a page detached, the invalidation, a tag, or a beat (R336, log 67). -/
def State.cleanupStep (s : State) (pa : Nat) : State :=
  match s.cleanupAt pa with
  | none => s
  | some u => match u.stage with
    | .queued => s.cleanupStart u
    | .detach k => match u.pages[k]? with
      | none => s.goOn u .positions
      | some page => match s.freePage u (dsBtab u.rec_ + w64 (8 * (page % 2 ^ dsBtlog u.rec_))) with
        | .error .wait => s.goOn u u.stage
        | .error (.cause c s1) => s1.cleanFails u false c
        | .ok s1 => s1.goOn u (.detach (k + 1))
    | .positions => (s.dropPositions u (dsStrm u.rec_)).goOn u (.tag false false)
    | .tag mirror again => s.cleanTag u mirror again
    | .copy mirror n => s.cleanBeat u mirror n
    | .ended => s
    | .failed => s

/-- All three parts have succeeded: PEND decreases, and the baton signals. -/
def State.cleanupDone (s : State) (pa : Nat) : State :=
  match s.cleanupAt pa with
  | none => s
  | some u =>
    if u.stage != .ended then s
    else match s.dsBytes u 18 2 true true (fun bs => some (leBytes 2 (leNat bs + 65535))) with
      | .error .wait => s.push (.cleanupComplete pa)
      | .error (.cause c s1) => s1.cleanFails u false c
      | .ok (_, s1) => (s1.endCleanup u).deviceSignal u.baton 1

/-- A failure (R338): the code in FAIL, an error signal and an advisory record. -/
def State.cleanupFail (s : State) (pa : Nat) (lost : Bool) (c : Cause) : State :=
  match s.cleanupAt pa with
  | none => s
  | some u =>
    if u.stage == .queued || u.stage == .ended then s
    else
      let code := if lost then 0x04 else 0x05
      (((s.putFail u code).appendRecord (bits u.coro.toNat 53 50) false
        (advisory 5 0 c.code u.inc.toNat 0 u.coro 0 (w64 u.cursor) u.va 0)).endCleanup u).deviceErr u.baton code

def execTruncationCleanup (rec : Nat) (s : State) : Res := .next (s.cleanupStep rec)
def execCleanupComplete (rec : Nat) (s : State) : Res := .next (s.cleanupDone rec)
def execCleanupFailed (rec : Nat) (lost : Bool) (cause : Cause) (s : State) : Res :=
  .next (s.cleanupFail rec lost cause)

end Sys2Proof.Machine
end

