-- ==== Sys2Proof/Machine/Messages.lean ====
section
/-! DEFINITION. The message slot (spec/06_execution_model.md R179 to R181, spec/11 R297 to R300, R418): active messages,
their handlers and replies, and the cluster-window stores that the slot applies; major 0x2E minors 5 to 7. -/

namespace Sys2Proof.Machine

/-! ## Sending (R298) -/

/-- The fields of a message record (Table 9). -/
structure MsgRecord where
  target  : Nat
  handler : Nat
  block   : Option Nat
  baton   : Word
  args    : List Word
  deriving DecidableEq, Repr

/-- A record read; none where a reserved bit is not zero, TARGET is no core or the reply offset is no multiple of 16. -/
def msgRecord (bs : List Byte) : Option MsgRecord :=
  let w (i : Nat) : Nat := leNat ((bs.drop (8 * i)).take 8)
  let nr := bitAt (w 1) 63
  let off := bits (w 1) 17 0
  if bits (w 0) 63 12 != 0 || bitAt (w 0) 7 || bits (w 1) 62 18 != 0 || 96 ≤ bits (w 0) 6 0 || (!nr && off % 16 != 0) then
    none
  else some ⟨bits (w 0) 6 0, bits (w 0) 11 8, if nr then none else some off, w64 (w 2),
    (List.range 5).map (fun i => w64 (w (3 + i)))⟩

/-- The message joins its target's queue, after a release at `.clus`; the sender waits while that queue is full (R121,
R180, R298), in the state `s0`, which keeps what the slot of the record's scratchpad has answered. -/
def State.queueMessage (s0 s : State) (r : MsgRecord) : State :=
  let t := s.core.id / 96 * 96 + r.target
  let c := s.core.run
  if 64 ≤ (s.coreAt t).queue.length then s0
  else match s.release 2 with
  | none => s0
  | some s =>
    let m : AMsg := ⟨s.core.id, coroWord s.core.id c, c.asid, s.mySlot, r.handler, r.block, r.baton, r.args⟩
    ((((s.onCore t (fun x => x.modCore (fun k => { k with queue := k.queue ++ [.message m] }))).holdBaton r.baton).push
      (.activeMessageHandler t))).landed.advance

/-- The steps of R298 in order. -/
def State.amsendOp (s : State) (a : Word) : State :=
  if a.toNat % 64 != 0 then s.raise .messageFault
  else match s.load s.me s.issuer true a 64 with
    | .wait s1 => s1
    | .cause c s1 => s1.failAccess .read c 0 a 64
    | .ok bs s1 => match msgRecord bs with
      | none => s1.raise .messageFault
      | some r => s1.checkedDone r.baton (fun s2 => s2.noStrip (fun s3 => State.queueMessage s s3 r))

/-! ## Handler entries (R297) -/

def State.amregOp (s : State) (a b : Word) : State :=
  let i : Fin 16 := Fin.ofNat 16 a.toNat
  let c := s.core.run
  let held := match s.core.handlers[i] with
    | some (asid, _) => asid != c.asid
    | none => false
  if (held && !c.priv) || b.toNat % 4 != 0 then s.raise .messageFault
  else
    (s.modCore (fun k => { k with handlers := k.handlers.set i (if b = 0 then none else some (c.asid, b)) })).advance

/-! ## Serving the queue (R180, R299) -/

/-- The state in which a handler begins: q1 holds the sender's CORO, q2 to q6 the arguments, and the rest is zero. -/
def handlerStart (m : AMsg) (entry : Word) : Coro :=
  let arg (i : Nat) : Word := m.args.getD i 0
  { Coro.blank with
    s := Vector.ofFn (fun i : Fin 32 =>
      if i.val = 1 then m.coro else if 2 ≤ i.val && i.val ≤ 6 then arg (i.val - 2) else 0)
    asid := m.asid
    pc := entry }

/-- A reply that no handler gives. -/
def State.replyNow (s : State) (m : AMsg) (status : Nat) : State :=
  s.push (.amReplyDelivery ⟨m.sender, m.block, 0, status, m.baton⟩)

/-- The message at the head of the queue: its handler begins, under its engagement slot, or the reply says why not (R299,
R380, R405). -/
def State.beginHandler (s : State) (m : AMsg) (rest : List SlotReq) : State :=
  let s1 := s.modCore (fun c => { c with queue := rest })
  if !s.core.inService then s1.replyNow m 0x33
  else match s.core.handlers[Fin.ofNat 16 m.handler] with
    | none => s1.replyNow m 0x01
    | some (asid, entry) =>
      if asid != m.asid then s1.replyNow m 0x01
      else s1.modCore (fun c => { c with
        run := handlerStart m entry
        live := .running
        touched := c.touched ||| (1#64 <<< m.eslot)
        slot := some ⟨c.run, c.live, m, 0, none⟩ })

/-- A failure met at a destination reaches the sender's coroutine: it is deferred there, or attached to its saved image
(R418). -/
def State.deferTo (s : State) (core cnum inc : Nat) (d : Deferred) : State :=
  s.onCore core (fun t =>
    let isIt (k : Coro) : Bool := k.cnum.toNat == cnum && k.inc.toNat == inc
    let put (k : Coro) : Coro := if isIt k && k.deferred.isNone then { k with deferred := some d } else k
    match t.core.current with
    | some c =>
      if isIt c && c.state == .running then t.deferFailure d
      else if isIt c then t.modCore (fun k => k.modCurrent put)
      else t.modCore (fun k => { k with coros := k.coros.map put })
    | none => t.modCore (fun k => { k with coros := k.coros.map put }))

/-- Stores that coroutine `c` has handed over are performed in order, each through the translations it was given at issue, up
to the first that must wait: the state, and those that are left. `fails` is what becomes of a failure at the destination (R244,
R418). -/
def State.performHeld (s : State) (c : Coro) (iss : Issuer) (fails : State → Deferred → State) :
    List HeldStore → State × List HeldStore
  | [] => (s, [])
  | h :: hs =>
    match s.performSent c iss h with
    | none => (s, h :: hs)
    | some (none, s1) => State.performHeld s1 c iss fails hs
    | some (some e, s1) => State.performHeld (fails s1 (h.failure e)) c iss fails hs

/-- Halves and words that they cover whole are good again, where none of them has to wait (R379). -/
def State.performAll (s : State) (c : Coro) (iss : Issuer) (fails : State → Deferred → State) (hs : List HeldStore) :
    State × List HeldStore :=
  let r := (s.cureWhole iss (hs.map (fun h => (h.data, h.parts)))).performHeld c iss fails hs
  if r.2.isEmpty then r else s.performHeld c iss fails hs

/-- The issuer of a coroutine's requests at a message slot, where only its scratchpad is reached. -/
def slotIssuer : Issuer := ⟨0, 0, 0, .device⟩

/-- The elements of a store applied in their order; the first failure is reported (R11, R180, R418). -/
def State.applyStores (s : State) (sender cnum inc : Nat) : List SlotStore → State
  | [] => s
  | e :: es =>
    match s.padDo slotIssuer s.core.id e.off e.data.length false (fun _ => some e.data) with
    | .error (.cause c _) => State.applyStores (s.deferTo sender cnum inc ⟨c, e.idx, e.va, e.insn, e.member, true, none⟩) sender cnum inc es
    | .error .wait => State.applyStores s sender cnum inc es
    | .ok (_, s1) => State.applyStores s1 sender cnum inc es

/-- Uncorrectable words of the core's scratchpad that elements of one store together write whole (R379). -/
def State.cureWords (s : State) (els : List SlotStore) : State :=
  let base := padStore s.core.id
  let writes (i : Nat) : Bool := els.any (fun e => base + e.off ≤ i && i < base + e.off + e.data.length)
  if !s.core.inService then s
  else { s with padPoison := s.padPoison.filter (fun w => !(List.range 4).all (fun i => writes (4 * w + i))) }

/-- The elements of a load or atomic served in their order, each on its own: the replies (R180, R289, R291). -/
def State.serveAll (s : State) : List SlotAccess → List SlotReply × State
  | [] => ([], s)
  | e :: es =>
    let f (old : List Byte) : Option (List Byte) := match e.op with
      | none => none
      | some (op, x, y) => (atomNew op e.len (leNat old) x y).map (leBytes e.len)
    match s.padDo slotIssuer s.core.id e.off e.len true f with
    | .error .wait => State.serveAll s es
    | .error (.cause c _) =>
      let r := State.serveAll s es
      (⟨e.core, e.off, e.len, [], some c⟩ :: r.1, r.2)
    | .ok (bs, s1) =>
      let r := State.serveAll s1 es
      (⟨e.core, e.off, e.len, bs, none⟩ :: r.1, r.2)

/-- What a pending load brings with the bytes that the coroutine's unit sees of its open strip (R127). -/
def Coro.shownDatum (c : Coro) (p : Pending) (value : Word) : Word :=
  let at_ : Option (Xlat × Nat) := match p.slot with
    | some k => some ({ target := .pad k.core k.off }, k.len)
    | none => p.part
  let shown := match p.dst with
    | .load .. => c.shownBytes
    | .elem .. => c.heldBytes
    | .stream .. => []
    | .store _ => []
  match at_, p.op with
  | some q, none => w64 (leNat (overlay shown (leBytes q.2 value.toNat) [q]))
  | _, _ => value

/-- A pending datum of a coroutine of the core in focus has come, with the bytes of an open strip that its unit sees in place of
memory's (R127), or its access has failed: a saved context then parks at its next restore (R373). Its acquire is made now
(R116). -/
def State.datumLands (s : State) (c : Coro) (p : Pending) (out : Except Cause Word) : State :=
  let land (x : Coro) : Coro :=
    if x.cnum != c.cnum then x
    else
      let c1 := { x with pending := x.pending.erase p }
      match out with
      | .ok value => c1.takeDatum p.dst (c1.shownDatum p value)
      | .error e => c1.failDatum p e
  let s1 := (s.modCore (·.mapCoros land)).acquire p.acq
  if s1.core.liveness == .idle then s1.askPacer else s1

/-- One element's reply to request `id` reaches a datum of a coroutine that a save left pending (R373). -/
def State.replyLands (s : State) (cnum inc id : Nat) (r : SlotReply) : State :=
  match s.core.allCoros.find? (fun k => k.cnum.toNat == cnum && k.inc.toNat == inc) with
  | none => s
  | some k => match k.pending.find? (·.slot == some ⟨id, r.core, r.off, r.len⟩) with
    | none => s
    | some p => s.datumLands k p (match r.cause with
      | some c => .error c
      | none => .ok (w64 (leNat r.data)))

/-- Replies to request `id` reach the core that asked: the instruction that waits there for them, or the data that a save of
its coroutine has left pending; those of a request that has been abandoned are dropped (R227, R373). -/
def State.deliver (s : State) (core cnum inc id : Nat) (rs : List SlotReply) : State :=
  s.onCore core (fun t =>
    let isIt (k : Coro) : Bool := k.cnum.toNat == cnum && k.inc.toNat == inc
    let waits (k : Coro) : Bool := isIt k && match k.flight with
      | none => false
      | some f => f.asked != 0 && f.id == id
    let put (k : Coro) : Coro :=
      if !waits k then k
      else { k with flight := k.flight.map (fun f =>
        { f with asked := 0, done := f.done + f.asked, replies := f.replies ++ rs }) }
    if t.core.allCoros.any waits then t.modCore (·.mapCoros put)
    else rs.foldl (fun u r => u.replyLands cnum inc id r) t)

/-! ## Meanings -/

def execAmsend (g : Guard) (a : Fin 32) (s : State) : Res := .next (s.guarded g (fun s => s.amsendOp (s.getS a)))

/-- `amreply` ends the handler; a coroutine meets MESSAGE_FAULT (R299). -/
def execAmreply (g : Guard) (a : Fin 32) (s : State) : Res :=
  .next (s.guarded g (fun s =>
    match s.core.slot with
    | some r => s.endRequest r 0 (s.getS a)
    | none => s.raise .messageFault))

def execAmreg (g : Guard) (a b : Fin 32) (s : State) : Res :=
  .next (s.guarded g (fun s => s.amregOp (s.getS a) (s.getS b)))

/-- The request at the head of the queue, once the slot is free. -/
def State.serveHead (s : State) (r : SlotReq) (rest : List SlotReq) : State :=
  let s1 := s.modCore (fun c => { c with queue := rest })
  match r with
  | .store sender cnum inc els => (s1.cureWords els).applyStores sender cnum inc els
  | .access sender cnum inc id els =>
    let x := s1.serveAll els
    x.2.deliver sender cnum inc id x.1
  | .message _ => s

/-- The slot of a core serves the cluster-window request at the head of its queue. -/
def execClusterWindowRequest (core : Nat) (s : State) : Res :=
  .next (s.onCore core (fun s =>
    match s.core.slot, s.core.queue with
    | none, .message _ :: _ => s.push (.clusterWindowRequest core)
    | none, r :: rest => s.serveHead r rest
    | none, [] => s
    | _, _ => s.push (.clusterWindowRequest core)))

/-- The slot of a core takes the message at the head of its queue. -/
def execActiveMessageHandler (core : Nat) (s : State) : Res :=
  .next (s.onCore core (fun s =>
    match s.core.slot, s.core.queue with
    | none, .message m :: rest => s.beginHandler m rest
    | none, [] => s
    | _, _ => s.push (.activeMessageHandler core)))

/-- A handler that would run a 257th instruction ends with MESSAGE_FAULT (R181). -/
def execHandlerLimit (core : Nat) (s : State) : Res :=
  .next (s.onCore core (fun s =>
    match s.core.slot with
    | some r => s.endRequest r 0x33 0
    | none => s))

/-- The reply block is written at the sender, unless its offset is S or above there, and then the baton is signalled
(R299). -/
def execAmReplyDelivery (r : AmReply) (s : State) : Res :=
  let s1 := s.onCore r.core (fun t =>
    match r.block with
    | none => t
    | some off =>
      if t.core.padBytes ≤ off then t
      else match t.padBytesDo (padStore t.core.id + off) 16 false
          (fun _ => some (leBytes 8 r.value.toNat ++ leBytes 8 r.status)) with
        | .error _ => t
        | .ok (_, t1) => t1)
  .next ((s1.releaseBaton r.baton).deviceSignal r.baton 1)

end Sys2Proof.Machine
end

