-- ==== Sys2Proof/Machine/Units.lean ====
section
/-! DEFINITION. Steps of the cores' and dies' own units: waiting fault records, deferred failures, pending data,
pre-emption, the pacer, spills, remote signals, polls, collective aborts, the coroutine-control block, machine checks, and
the two ways in which a fetch ends before any instruction (spec/05, 06, 08, 11, 15). -/

namespace Sys2Proof.Machine

/-! ## Fault queue (R364) -/

/-- The oldest waiting TRAP record of a die is written once the queue can take it; the event stays while any waits. -/
def State.waitingWrite (s : State) (die : Nat) : State :=
  let q := s.fqAt die
  match q.waiting with
  | [] => s
  | r :: rs =>
    if q.writable then
      let s1 := (s.setFq die { q with waiting := rs }).writeRecord die r
      if rs.isEmpty then s1 else s1.push (.waitingRecordWrite die)
    else s.push (.waitingRecordWrite die)

/-! ## Pending data (R373) -/

/-- Who issued an access that is pending. -/
def Pending.issuer (p : Pending) : Issuer := ⟨p.coro, p.asid, p.eslot, .core⟩

/-- The elements of a `vatom` at one address are served as one group (R291); any other access stands alone. -/
def Pending.group (p : Pending) (ps : List Pending) : List Pending :=
  if p.insn = 0 then [p] else ps.filter (fun q => q.insn != 0 && q.part == p.part)

/-- What serving some pending accesses comes to: they wait; they have joined a message slot's queue as one request; or they have
been performed, or have failed. -/
inductive Served where
  | wait
  | asked (k : SlotKey) (s : State)
  | out (r : List (Except Cause Word)) (s : State)

/-- Atomics applied one after another at an address. -/
def State.serveAtoms (s : State) (x : Xlat) (n : Nat) : List Pending → Served
  | [] => .out [] s
  | p :: ps => match s.atomicDo p.issuer x n (fun old => match p.op with
      | none => none
      | some (op, y, z) => atomNew op n old y z) with
    | .wait _ => .wait
    | .cause e s1 => match State.serveAtoms s1 x n ps with
      | .out rs s2 => .out (.error e :: rs) s2
      | r => r
    | .ok old s1 => match State.serveAtoms s1 x n ps with
      | .out rs s2 => .out (.ok (w64 old) :: rs) s2
      | r => r

/-- Parts at one place of pending accesses that have not been performed yet are, at their home (R227): those in another core's
scratchpad are asked of its message slot. -/
def State.serveParts (s : State) (c : Coro) (ps : List Pending) (x : Xlat) (n : Nat) : Served :=
  match ps.flatMap (fun p => s.farReads p.op [(x, n)]) with
  | e :: es => match s.askFor c {} (e :: es) with
    | none => .wait
    | some (s1, f) => .asked ⟨f.id, e.core, e.off, e.len⟩ s1
  | [] => if ps.any (·.op.isSome) then s.serveAtoms x n ps
    else match s.readParts ((ps.map Pending.issuer).headD s.issuer) [(x, n)] with
      | .error .wait => .wait
      | .error (.cause e s1) => .out [.error e] s1
      | .ok (bs, s1) => .out [.ok (w64 (leNat bs))] s1

/-- A pending duplex operation is applied at its home (R125, R227): its result goes to the coroutine, which may be gone. -/
def State.servePendingStream (s : State) (c : Coro) (p : Pending) (f : DsForm) (b : Word) (x : Xlat) : Option State :=
  let fails (t : State) (e : Cause) : State := t.modCore (·.mapCoros (fun k => if k.cnum == c.cnum then k.failDatum p e else k))
  match s.atomicDo p.issuer x 128 (f.new b) with
  | .wait _ => none
  | .cause e s1 => some (fails s1 e)
  | .ok old s1 => match f.step b old with
    | .error e => some (fails s1 e)
    | .ok r => match x.target with
      | .hbm pa =>
        let s2 := (s1.acquire 4).streamAfter c p.eslot f b p.addr pa x old
        some (s2.modCore (·.mapCoros (fun k => if k.cnum == c.cnum then f.result b old r k else k)))
      | _ => some s1

/-- Some pending data of coroutine `c` leave its list. -/
def State.erasePending (s : State) (c : Coro) (ps : List Pending) : State :=
  s.modCore (·.mapCoros (fun k => if k.cnum == c.cnum then { k with pending := k.pending.filter (fun p => !ps.contains p) } else k))

/-- They stand in a message slot's queue now. -/
def State.movePending (s : State) (c : Coro) (ps : List Pending) (key : SlotKey) : State :=
  (s.erasePending c ps).modCore (·.mapCoros (fun k =>
    if k.cnum == c.cnum then k.addPending (ps.map (fun p => { p with part := none, slot := some key })) else k))

/-- The stores among pending accesses, in their order. -/
def storesOf (ps : List Pending) : List HeldStore :=
  ps.filterMap (fun p => match p.dst with
    | .store h => some h
    | _ => none)

/-- Whether a pending access is no store, or one of those that are left. -/
def Pending.stays (hs : List HeldStore) (p : Pending) : Bool :=
  match p.dst with
  | .store h => hs.contains h
  | _ => true

/-- Stores that coroutine `c` has handed over are performed, in order (R227): those that must wait stay, with a further step. -/
def State.pendingStores (s : State) (c : Coro) (p : Pending) : State :=
  let r := s.performAll c p.issuer (fun t d => t.deferTo s.core.id c.cnum.toNat c.inc.toNat d) (storesOf c.pending)
  let s1 := r.1.modCore (·.mapCoros (fun k =>
    if k.cnum == c.cnum then { k with pending := k.pending.filter (Pending.stays r.2) } else k))
  if !r.2.isEmpty then s1.push (.pendingDatumArrival s.core.id c.cnum.toNat 0 0 false)
  else if s1.core.liveness == .idle then s1.askPacer
  else s1

/-- Those of coroutines that have been killed are too (R369); nothing hears of a failure. -/
def State.orphanStores (s : State) (gone : Coro) (p : Pending) : State :=
  let mine := s.core.orphans.filter (fun q => q.coro == p.coro)
  let r := s.performAll gone p.issuer (fun t _ => t) (storesOf mine)
  let s1 := r.1.modCore (fun k => { k with orphans := k.orphans.filter (fun q => q.coro != p.coro || q.stays r.2) })
  if r.2.isEmpty then s1 else s1.push (.pendingDatumArrival s.core.id gone.cnum.toNat 0 0 false)

/-- A step of a pending datum of a coroutine: an access that has not been performed is performed now, or waits. What a message
slot has been asked for comes with its reply; any other datum arrives. -/
def State.pendingStep (s : State) (c : Coro) (p : Pending) (value : Word) : State :=
  let again (t : State) : State := t.push (.pendingDatumArrival s.core.id c.cnum.toNat 0 0 false)
  match p.part, p.dst with
  | _, .store _ => s.pendingStores c p
  | none, _ => if p.slot.isSome then s else s.datumLands c p (.ok value)
  | some (x, _), .stream f b => match s.servePendingStream c p f b x with
    | none => again s
    | some s1 =>
      let s2 := s1.erasePending c [p]
      if s2.core.liveness == .idle then s2.askPacer else s2
  | some (x, n), _ =>
    let group := p.group c.pending
    match s.serveParts c group x n with
    | .wait => again s
    | .asked k s1 => s1.movePending c group k
    | .out rs s1 => (group.zip rs).foldl (fun t q => t.datumLands c q.1 q.2) s1

/-- An atomic, or a duplex operation, of a coroutine that has been killed is still performed (R369). -/
def State.orphanStep (s : State) (p : Pending) : State :=
  let cnum := bits p.coro.toNat 40 31
  let gone : Coro := { Coro.blank with cnum := BitVec.ofNat 10 cnum, asid := BitVec.ofNat 16 p.asid }
  let group := p.group s.core.orphans
  let rest := s.modCore (fun k => { k with orphans := k.orphans.filter (fun q => q != p && !group.contains q) })
  let again := s.push (.pendingDatumArrival s.core.id cnum 0 0 false)
  match p.part, p.dst with
  | _, .store _ => s.orphanStores gone p
  | none, _ => rest
  | some (x, _), .stream f b => (rest.servePendingStream gone p f b x).getD again
  | some (x, n), _ => match rest.serveParts gone group x n with
    | .wait => again
    | .asked _ s1 => s1
    | .out _ s1 => s1

/-- The datum at position `idx` of a coroutine arrives, wherever the coroutine is; a poisoned one parks the context at its next
restore (R373). -/
def State.datumArrives (s : State) (cnum idx : Nat) (value : Word) (poisoned : Bool) : State :=
  let mine (c : Coro) : Bool := c.cnum.toNat == cnum && !c.pending.isEmpty
  match s.core.allCoros.find? mine with
  | none => match s.core.orphans with
    | [] => s
    | p :: _ => s.orphanStep p
  | some c => match c.pending[idx]? with
    | none => s
    | some p => if poisoned then s.datumLands c p (.error .dataMemory) else s.pendingStep c p value

/-! ## Spills and returns (R171, R172) -/

/-- Whether the full context of the coroutine in the register files would not fit in the call room as it is (R171). -/
def Core.lacksRoom (c : Core) : Bool :=
  match c.current with
  | none => false
  | some k => !c.roomFits (k.fullContext c.lanes).blocks

/-- The context that the order of R171 puts first leaves the call room, where the spill region can take it, while the call room
lacks a slot or blocks for the context that is to be saved. -/
def Core.spill (c : Core) (cnum : Nat) : Core :=
  match firstSpill (c.inRoom.filter (fun k => c.spillFits k.blocks)) with
  | none => c
  | some k => if k.cnum.toNat == cnum && c.lacksRoom then c.movePlace k.cnum .spill else c

/-- A Ready context moves back into the call room, where a slot and blocks are free. -/
def Core.unspill (c : Core) (cnum : Nat) : Core :=
  match c.inSpill.find? (fun k => k.cnum.toNat == cnum && k.state == .ready) with
  | none => c
  | some k => if c.roomFits k.blocks then c.movePlace k.cnum .callRoom else c

/-! ## Signals and aborts of other modules (R139, R154), and polls (R137) -/

/-- A notice that a remote signal was dropped, in the queue of the die that its handle names (R363). -/
def State.signalDropped (s : State) (sender : Nat) (h : Word) : State :=
  s.appendRecord (handleDie h) false (advisory 6 0 0 0 0 0 0 (w64 sender) h 0)

/-- Why another module's signal is refused: only an OPEN baton accepts one (R130, R132). -/
def State.remoteRefusal (s : State) (h : Word) : Option Cause :=
  if !s.liveHere h then some .batonStale
  else if !(s.baton (handleKey h)).opn then some .batonDenied
  else none

/-- What another module asks of a baton here. A coroutine's signal that is refused leaves a notice, and a barrier arrival is
answered; a device's signal of a dead baton is dropped without one (R133, R139, R140). -/
def State.remoteSignal (s : State) (sender : Nat) (h : Word) (kind : RemoteKind) : State :=
  let r := s.remoteRefusal h
  match kind with
  | .signal n => if r.isSome then s.signalDropped sender h else s.signalLocal h (n % 2 ^ 16)
  | .err code => if r.isSome then s.signalDropped sender h else s.errLocal h (code % 2 ^ 8)
  | .arrive n =>
    let t := arrivalTarget (s.baton (handleKey h)) (n % 2 ^ 16)
    let s1 := if r.isSome then s.signalDropped sender h else s.signalLocal h (n % 2 ^ 16)
    { s1 with fabric := s1.fabric ++ [.reply sender h r (if r.isSome then 0 else t)] }
  | .device n => if s.liveHere h then s.signalLocal h (n % 2 ^ 16) else s
  | .deviceErr code => if s.liveHere h then s.errLocal h (code % 2 ^ 8) else s
  | .hold => s.modHolds h (· + 1)
  | .release => s.modHolds h (· - 1)

/-- An abort message of another module; copies after the first change nothing. -/
def State.abortReceived (s : State) (sender group cgen : Nat) : State :=
  if sender = Config.moduleNumber || s.aborts.contains (sender, group, cgen) then s
  else ({ s with aborts := (sender, group, cgen) :: s.aborts }).abortTag sender (BitVec.ofNat 16 group) (BitVec.ofNat 8 cgen)

/-- Whether coroutine `c` still waits in an `await`. -/
def Coro.waits (c : Coro) : Bool := c.state == .waiting || c.state == CState.held .await

/-- The core in focus reads the baton of an unregistered waiter; a Held one goes on at once, which is its acquire (R122). -/
def State.poll (s : State) (cnum : Nat) : State :=
  match s.core.allCoros.find? (fun c => c.cnum.toNat == cnum) with
  | none => s
  | some c => match c.armed with
    | none => s
    | some (h, _) =>
      if !c.waits then s
      else if c.waitMet h (s.baton (handleKey h)) then
        let idle := s.core.liveness == .idle
        let me (x : Coro) : Bool := x.cnum == c.cnum
        let s0 := if s.core.heldWakes me then s.acquire (s.batonScope h) else s
        let s1 := s0.modCore (fun k => k.wake me)
        if idle then s1.askPacer else s1
      else s.push (.batonPoll s.core.id cnum)

/-! ## Meanings -/

def execWaitingRecordWrite (die : Nat) (s : State) : Res := .next (s.waitingWrite die)

def execDeferredStoreFailure (core : Nat) (s : State) : Res := .next (s.onCore core State.takeDeferred)

def execPendingDatumArrival (core cnum idx : Nat) (value : Word) (poisoned : Bool) (s : State) : Res :=
  .next (s.onCore core (fun s => s.datumArrives cnum idx value poisoned))

def execPreemption (core : Nat) (why : StopAt) (s : State) : Res :=
  .next (s.onCore core (fun s => s.requestPreempt why.why why.cut (.preemption core why)))

def execPacerDecision (core : Nat) (s : State) : Res := .next (s.onCore core State.pace)

/-- The running coroutine has used 1,048,576 clocks (R176). -/
def execPacerPreemption (core : PacerStop) (s : State) : Res :=
  .next (s.onCore core.core (fun s =>
    if s.core.pacerWants then s.requestPreempt .pacer core.cut (.pacerPreemption core) else s))

/-- What moves to the spill region is written there (R67). -/
def execContextSpill (core cnum : Nat) (s : State) : Res :=
  .next (s.onCore core (fun s => (s.modCore (·.spill cnum)).writeSpills s.core.coros))
def execContextReturn (core cnum : Nat) (s : State) : Res := .next (s.onCore core (·.modCore (·.unspill cnum)))

/-- An amount has 16 bits, and a code 8 (R138, R140). -/
def execRemoteSignalArrival (sender : Nat) (handle : Word) (kind : RemoteKind) (s : State) : Res :=
  .next (s.remoteSignal sender handle kind)

def execBatonPoll (core cnum : Nat) (s : State) : Res := .next (s.onCore core (·.poll cnum))

def execCollectiveAbortReceipt (sender group cgen : Nat) (s : State) : Res := .next (s.abortReceived sender group cgen)

def execCcmdOpen (die target inc : Nat) (s : State) : Res := .next (s.ccmdOpenOp die target inc)
def execCcmdResume (die target inc : Nat) (s : State) : Res := .next (s.ccmdResumeOp die target inc)
def execCcmdKill (die target inc : Nat) (s : State) : Res := .next (s.ccmdKillOp die target inc)

/-- CLOSE ignores TARGET and INC. -/
def execCcmdClose (die _target _inc : Nat) (s : State) : Res := .next (s.ccmdCloseOp die)
def execCcmdBadcmd (die : Nat) (s : State) : Res := .next (s.ccbStatus die 5)

/-- The cores that share a special-function unit with a core: four with numbers in a row (R1, R265). -/
def sfuCores (core : Nat) : List Nat := (List.range 4).map (fun i => core / 4 * 4 + i)

/-- A machine check of one core; that of a special-function unit strikes each of its four cores (R380). -/
def execMachineCheck (core : UnitCheck) (s : State) : Res :=
  .next ((if core.sfu then sfuCores core.core else [core.core]).foldl (fun t k => t.onCore k State.machineCheckCore) s)

/-- A word outside every assigned encoding traps at decode and has no other effect (R208). In reduced service the matrix
majors are unassigned (R413). -/
def execIllegalInstruction (w : BitVec 32) (s : State) : Res :=
  .next (s.raise (if s.sys.reduced && decide (0x30 ≤ w.toNat / 2 ^ 26) && decide (w.toNat / 2 ^ 26 ≤ 0x33)
    then .illegalInstruction else undecodedCause w.toNat))

/-- A fetch that fails traps at the program counter, which is the faulting address; the word of no instruction is in the
record (R201). In a handler it ends the request with MESSAGE_FAULT (R300). -/
def execInstructionFetchFault (cause : Cause) (s : State) : Res :=
  .next (match s.core.slot with
    | some r => s.endRequest r 0x33 0
    | none => (s.modCore (fun c => { c with insn := 0 })).raiseAccess cause 0 s.core.run.pc)

end Sys2Proof.Machine
end

