-- ==== Sys2Proof/Machine/Host.lean ====
section
/-! DEFINITION. The Olivon link, ownership, scrubs, receipts and keys (spec/18_system.md R396 to R410). -/

namespace Sys2Proof.Machine

/-! ## Requests of host masters (R397, R402) -/

/-- Whether a master may write: it owns the module and no owner scrub runs (R402, R403). -/
def SysRegs.writer (y : SysRegs) (master : Nat) : Bool := y.ownV && y.ownMaster.toNat == master && !y.scrub

/-- The lease as a request of `master` leaves it (R402). -/
def State.leaseTick (s : State) (master : Nat) : State :=
  let y := s.sys
  if !y.ownV then s
  else if y.ownMaster.toNat = master then { s with sys := { y with left := y.reload } }
  else if y.left = 0 then s
  else
    let s1 := { s with sys := { y with left := y.left - 1 } }
    if y.left = 1 then { s1 with agenda := .leaseLapse :: s1.agenda } else s1

def State.answer (s : State) (r : LinkReply) : State := { s with linkOut := s.linkOut ++ [r] }

/-- An error completion: nothing changes. -/
def State.refuseHost (s : State) (master : Nat) : State := s.answer ⟨master, true, false, []⟩

/-- Whether `len` bytes of HBM from `pa` touch what a host may not reach: a spill region, the firmware-reserved region
or the log ring (R397). -/
def State.hostBarred (s : State) (pa len : Nat) : Bool :=
  let last := pa + len - 1
  let ring := s.sys.monBase.toNat * 4096
  let meets (lo hi : Nat) : Bool := lo ≤ last && pa < hi
  meets Config.firmwareBase (Config.firmwareBase + 2 ^ 30) || meets ring (ring + 32 * 2 ^ s.sys.monLog.toNat) ||
    s.cores.any (fun c => c.spillEn && meets (c.spillBase.toNat * 2 ^ 21) (c.spillBase.toNat * 2 ^ 21 + 2 ^ 21))

/-- Bytes that a host's request reads or writes. -/
def hostSize (r : HostReq) : Nat := if r.write then r.data.length else r.len

/-- How a host's request counts in the access log (R412). -/
def hostKind (r : HostReq) : Nat := if r.op.isSome then 3 else if r.write then 7 else 6

/-- What a host's request for `n` bytes of one line, from its first on, does at the line's home slice, and what it reads there,
with whether that is poisoned (R69, R115, R124, R379, R397); none where the access log makes it wait. -/
def State.hostLine (s : State) (r : HostReq) (n : Nat) : Option ((List Byte × Bool) × State) :=
  let a := hbmStore r.pa
  match s.homeArrive ⟨r.pa, false, n, false, hostKind r, w64 (2 ^ 63 + r.master), 0, 0, 0⟩ with
  | none => none
  | some s0 =>
    let s1 := s0.allocL2 0 a r.pa 0 0 false
    let s2 := if hostKind r = 6 then s1 else (s1.dirtyL2 a).revoke (fun _ => true) a n
    let old := s2.keyedRead none a n
    let bad := s2.poisoned a n
    some (match r.op with
      | some (op, x, y) => match bad, atomNew op n (leNat old) x y with
        | false, some v => ((old, false), s2.keyedWrite none a (leBytes n v))
        | _, _ => ((old, bad), s2)
      | none => if r.write then (([], false), s2.keyedWrite none a (r.data.take n)) else ((old, bad), s2))

/-- A host's request for HBM is served line by line; where the access log makes a line wait, the rest of it is tried again, and
its last line is answered with all that was read (R124, R397, R412). -/
def State.hostServe (s : State) (r : HostReq) : Nat → State
  | 0 => s
  | fuel + 1 =>
    let got := r.got.getD ([], false)
    if hostSize r = 0 then s.answer ⟨r.master, false, got.2, got.1⟩
    else
      let n := min (hostSize r) (128 - r.pa % 128)
      match s.hostLine r n with
      | none => s.push (.hostAccess { r with got := some got })
      | some (x, s1) => State.hostServe s1
          { r with pa := r.pa + n, len := r.len - n, data := r.data.drop n, got := some (got.1 ++ x.1, got.2 || x.2) } fuel

/-- A read or write of a register; a plain store to OWN is refused from every master (R402). -/
def State.hostRegister (s : State) (r : HostReq) : State :=
  if r.write then
    if r.pa = Config.regBase + 0x140000 then s.refuseHost r.master
    else (s.regWrite true r.pa (w64 (leNat r.data))).answer ⟨r.master, false, false, []⟩
  else s.answer ⟨r.master, false, false, leBytes 8 (s.regRead r.pa).toNat⟩

/-- Whether an atomic is one that an access of a core could make: of 4 or 8 aligned bytes (R288, log 86). -/
def hostAtomic (r : HostReq) : Bool := r.op.isNone || ((r.len == 4 || r.len == 8) && r.pa % r.len == 0)

/-- A host request, after the lease has counted it. One that has begun is not refused any more. An atomic of a register is
refused; a compare-and-swap of OWN is not this step (R401, R402, log 86). -/
def State.hostRequest (s : State) (r : HostReq) : State :=
  let n := hostSize r
  let refuse := s.refuseHost r.master
  if r.got.isSome then s.hostServe r (n + 1)
  else if n = 0 then s
  else if (r.write || r.op.isSome) && !s.sys.writer r.master then refuse
  else if !hostAtomic r then refuse
  else if r.pa + n ≤ Config.hbmBytes then (if s.hostBarred r.pa n then refuse else s.hostServe r (n + 1))
  else if Config.regBase ≤ r.pa && r.pa < 2 ^ 52 && r.pa % 8 == 0 && n == 8 && r.op.isNone then s.hostRegister r
  else refuse

/-- A signal message of a master: a read-only one's is dropped, as it is during an owner scrub (R398, R402, R403). One for a
baton of another module of the pod goes on over the fabric, where the baton's own unit asks for OPEN (R132, R139). -/
def State.hostSignalOp (s : State) (master : Nat) (h : Word) (amount : Nat) : State :=
  let b := s.baton (handleKey h)
  let other := handleModule h != Config.moduleNumber && s.isMember (handleModule h) && handleIndex h != 0 && h.toNat % 256 == 0
  if s.sys.writer master && other then s.sendRemote h (.signal amount)
  else if s.sys.writer master && s.liveHere h && b.opn then
    (s.setBaton (handleKey h) { b with hostSig := true }).signalLocal h amount
  else s.signalDropped Config.moduleNumber h

/-- The link is lost (R400). -/
def State.loseLink (s : State) : State :=
  let s1 := { s with sys := { s.sys with link := false } }
  (s.batons.filter (fun b => b.2.live && b.2.hostSig)).foldl
    (fun t b => t.errLocal (handleOf b.1 b.2.gen.toNat) 0x03) s1

/-- The link returns: dirty kind-1 lines are written back, oldest store first (R400). -/
def State.regainLink (s : State) : State :=
  { s with
    sys := { s.sys with link := true }
    mem := s.hostDirty.foldl (fun m b => m.set b.1 b.2) s.mem
    hostDirty := [] }

/-! ## Scrubs (R404 to R406) -/

/-- The bytes of HBM from `lo` to `hi` are zeroed, each granule by one write at its home: their poison goes, no key has
written them since, and no L1 has a word of them registered (R406). -/
def State.zeroHbm (s : State) (lo hi : Nat) : State :=
  { s.revoke (fun _ => true) (hbmStore lo) (hi - lo) with
    mem := s.mem.erase lo hi
    poison := s.poison.filter (fun h => !(decide (lo ≤ 64 * h) && decide (64 * h < hi)))
    sealKeys := s.sealKeys.filter (fun k => !(decide (lo ≤ 16 * k.1) && decide (16 * k.1 < hi))) }

/-- Ranges without what lies from `lo` to `hi`. -/
def cutOut (lo hi : Nat) (rs : List (Nat × Nat)) : List (Nat × Nat) :=
  rs.flatMap (fun r => [(r.1, min r.2 lo), (max r.1 hi, r.2)].filter (fun x => decide (x.1 < x.2)))

/-- What of a listed range a scrub reaches: no spill region (R68), whose own zeroing R405 gives apart. -/
def State.zeroRanges (s : State) (lo hi : Nat) : State :=
  let rs := (s.cores.filter (·.spillEn)).foldl (fun rs c =>
    cutOut (c.spillBase.toNat * 2 ^ 21) (c.spillBase.toNat * 2 ^ 21 + 2 ^ 21) rs) [(lo, hi)]
  rs.foldl (fun t r => t.zeroHbm r.1 r.2) s

/-- The scratchpad of a core is zeroed. -/
def State.zeroPad (s : State) (core : Nat) : State :=
  let lo := padStore core
  let hi := padStore (core + 1)
  { s with
    mem := s.mem.erase lo hi
    padPoison := s.padPoison.filter (fun w => !(decide (lo ≤ 4 * w) && decide (4 * w < hi))) }

/-- A core whose storage has been zeroed: register files, call room, position translation buffer and shadow bank. -/
def Core.zeroed (c : Core) : Core :=
  let c1 := { c with ptb := [], shadow := Vector.replicate 8 0, pxLast := none }
  if c1.live == .idle && c1.slot.isNone then { c1 with run := Coro.blank } else c1

/-- A line of the second-level cache is invalidated without write-back: HBM holds again what lay beneath it, and a line of
host memory loses what the link has not taken (R400, R405). -/
def State.dropLine (s : State) (l : L2Line) : State :=
  let mine (a : Nat) : Bool := decide (l.line * 128 ≤ a) && decide (a < l.line * 128 + 128)
  let s1 : State := { s with
    caches := { s.caches with l2 := s.caches.l2.filter (·.line != l.line) }
    hostDirty := s.hostDirty.filter (fun b => !mine b.1) }
  match l.under with
  | none => s1
  | some (bs, ks) => { s1 with
      mem := s1.mem.write (l.line * 128) bs
      sealKeys := s1.sealKeys.filter (fun k => !mine (16 * k.1)) ++ ks }

/-- Every line of the second-level cache that was filled under an engagement slot is (R405). -/
def State.dropLines (s : State) (slot : Nat) : State := (s.caches.l2.filter (·.slot == slot)).foldl State.dropLine s

/-- The spill region of a core is zeroed (R405). -/
def State.zeroSpill (s : State) (core : Nat) : State :=
  let c := s.coreAt core
  if c.spillEn then s.zeroHbm (c.spillBase.toNat * 2 ^ 21) (c.spillBase.toNat * 2 ^ 21 + 2 ^ 21) else s

/-- The words of MONBASE and MONLIM, in the order of their offsets. -/
def State.monitorBytes (s : State) : List Byte :=
  (List.range 128).flatMap (fun i => leBytes 8 (s.sysRead (0x100 + 8 * i)))

/-- The bitmap of zeroed cores: 768 bytes, core `k` at bit `k`. -/
def coreBitmap (ids : List Nat) : List Byte := leBytes 768 (ids.foldl (fun n k => n ||| 2 ^ k) 0)

/-- The 256 signed bytes of a receipt or report (R408, Table 5); the running management firmware is that of the first die in
service (log 15). -/
def State.receiptText (s : State) (kind slot : Nat) (erased : Bool) (ranges : List Byte) (cores : List Nat)
    (nonce : List Byte) : List Byte :=
  leBytes 4 0x4C475254 ++ leBytes 2 kind ++ leBytes 1 slot ++ leBytes 1 (bit01 erased) ++
    leBytes 8 Config.serialNumber.toNat ++ leBytes 8 s.sys.scrSeq.toNat ++ leBytes 8 s.sys.own ++
    leBytes 8 s.starter.slHead.toNat ++ (if kind = 2 then sha256 ranges else List.replicate 32 0) ++
    sha256 (coreBitmap cores) ++ sha256 (Config.firmwareImage (((List.range 16).find? firmwareVerifies).getD 0)) ++
    (if kind = 3 then nonce else List.replicate 32 0) ++ leBytes 8 s.keyStat ++ sha256 s.monitorBytes ++
    List.replicate 48 0

/-- SEQ advances, and the receipt with its signature is written at `dest` (R408). -/
def State.writeReceipt (s : State) (dest kind slot : Nat) (erased : Bool) (ranges : List Byte) (cores : List Nat)
    (nonce : List Byte) : State :=
  let s1 := { s with sys := { s.sys with scrSeq := s.sys.scrSeq + 1 } }
  let text := s1.receiptText kind slot erased ranges cores nonce
  s1.storeHbm dest (text ++ signature text)

/-- An owner scrub starts (R404, steps 1 and 2): queued records go without completing, and everything is killed. -/
def State.startOwnerScrub (s : State) : State :=
  if s.sys.scrub then s
  else
    let gone := s.starter.recs.filter (fun r => r.state == .queued)
    let t0 := gone.foldl (fun t r => (t.unname r).releaseBaton r.cbaton) s
    let s0 : State := { t0 with
      sys := { t0.sys with scrub := true }
      starter := { t0.starter with recs := t0.starter.recs.filter (fun r => r.state != .queued) } }
    let ids := s0.cores.map (·.id)
    let s1 := ids.foldl (fun t id => t.killWhere id (fun _ => true)) s0
    (ids.foldl (fun t id => t.cancelWhere id (fun _ => true)) s1).push .ownerScrubComplete

/-- How firmware starts the supervisor on a core of the first die that is in service (R404, R413, log 2): a privileged
coroutine of no launch, its ASID table and its bytes in place, none of them where the receipt of an owner scrub stands, runs
there; no decision selects it first (R358). -/
def State.startSupervisor (s : State) : State :=
  match (List.range 16).find? firmwareVerifies with
  | none => s
  | some die =>
    let s1 : State := { s with
      asidBase := Config.supervisorTable
      asidEn := true
      memRegs := { s.memRegs with stmode := false }
      mem := (Config.bootBytes.filter (fun b => 17344 ≤ b.1)).foldl (fun m b => m.set b.1 b.2) s.mem }
    s1.onCore (die * 384) (fun t =>
      let c := Coro.fresh t.core.lanes
      match t.addCoro { c with
          priv := true, asid := Config.supervisorAsid, pc := Config.supervisorPc
          s := c.s.set 1 Config.supervisorArg } with
      | none => t
      | some (n, t1) => match t1.core.coros.find? (fun k => k.cnum.toNat == n) with
        | none => t1
        | some k => (t1.restore k).touch k.asid)

/-- Every register of the register space at its reset value, but for those that R404 keeps; journal numbers go on. -/
def State.resetRegisters (s : State) : State :=
  let y := s.sys
  { s with
    memRegs := MemRegs.reset
    domains := (s.domains.filter (·.2.gone)).map (fun d => (d.1, { Domain.reset d.1 with gone := true }))
    swRegs := SwRegs.reset
    starter := { Starter.reset with jno := s.starter.jno }
    ccb := Vector.replicate 16 ⟨none, 0⟩
    keys := []
    sys := { SysRegs.reset with
      ownV := y.ownV, ownMaster := y.ownMaster, ownLv := y.ownLv, ownLast := y.ownLast, ownGen := y.ownGen
      reload := y.reload, left := y.left
      hsdrop := y.hsdrop, bootfail := y.bootfail, scrub := y.scrub, link := y.link, fabtr := y.fabtr, memtr := y.memtr
      mhz := y.mhz, svc := y.svc
      scrSeq := y.scrSeq, repChan := y.repChan, repCount := y.repCount } }

/-- A core after an owner scrub: what the scrub zeroes, with its handlers, queue and held translations gone. -/
def Core.scrubbed (c : Core) : Core :=
  { Core.reset c.id with
    incs := c.incs, lanemask := c.lanemask, spways := c.spways, spillBase := c.spillBase, spillEn := c.spillEn
    chans := c.chans, inService := c.inService }

/-- The batons that the messages in the cores' queues and slots and the records still in the starter name (R133). -/
def State.namedBatons (s : State) : List Word :=
  s.cores.flatMap (fun c => (match c.slot with
      | some r => [r.msg.baton]
      | none => []) ++ c.queue.filterMap (fun q => match q with
      | .message m => some m.baton
      | _ => none)) ++ s.starter.recs.map (·.cbaton)

/-- An owner scrub's steps 3 to 6 (R404): commands that it drops release their batons (R133). -/
def State.finishOwnerScrub (s : State) : State :=
  let t0 := s.namedBatons.foldl State.releaseBaton s
  let s0 : State := { t0 with caches := ⟨[], [], [], [], []⟩, engines := [], lastChan := [] }
  let s1 := (s0.zeroHbm 0 Config.firmwareBase).zeroHbm (Config.firmwareBase + 2 ^ 30) Config.hbmBytes
  let s2 := { s1 with mem := s1.mem.erase (padStore 0) (padStore 6144), padPoison := [], hostDirty := [] }
  let s3 := (s2.mapCores Core.scrubbed).resetRegisters
  let s4 := s3.writeReceipt 0 1 0 true [] (List.range 6144) []
  let s5 := s4.startSupervisor
  { s5 with sys := { s5.sys with scrub := false } }

/-- The engagement scrub that runs behind BUSY completes (R405). The ranges are zeroed after the lines that could have held
them have gone. -/
def State.finishScrub (s : State) (slot : Nat) (erase : Bool) (dest : Nat) (ranges : List Word) : State :=
  let pairs := (List.range 31).map (fun i => ((ranges.getD (2 * i) 0).toNat, (ranges.getD (2 * i + 1) 0).toNat))
  let used := pairs.filter (fun r => r.2 != 0)
  let s1 := used.foldl (fun t r =>
    t.zeroRanges (bits r.1 51 16 * 2 ^ 16) (bits r.1 51 16 * 2 ^ 16 + bits r.2 40 16 * 2 ^ 16)) (s.dropLines slot)
  let touched := (s1.cores.filter (fun c => c.touched.getLsbD slot)).map (·.id)
  let s2 := touched.foldl (fun t id => ({ t.zeroPad id with
    caches := { t.caches with l1 := t.caches.l1.filter (·.core != id) } }).zeroSpill id) s1
  let s3 := s2.mapCores (fun c =>
    if c.touched.getLsbD slot then { c.zeroed with touched := c.touched &&& ~~~ (1#64 <<< slot) } else c)
  let s4 := if erase then s3.keyEraseOp slot else s3
  let text := (ranges.take (2 * used.length)).flatMap (fun w => leBytes 8 w.toNat)
  let s5 := s4.writeReceipt dest 2 slot erase text touched []
  ({ s5 with sys := { s5.sys with job := none, scrStatus := 0 } }).systemEvent

/-- The attestation report that is due is written (R409). -/
def State.finishReport (s : State) (dest : Nat) (nonce : List Byte) : State :=
  let s1 := s.writeReceipt dest 3 0 false [] [] nonce
  ({ s1 with sys := { s1.sys with job := none, scrStatus := 0 } }).systemEvent

/-! ## Ownership (R401 to R403) -/

/-- Whether N is a change that the requester may make (R401). -/
def SysRegs.change (y : SysRegs) (x : Nat) (n : Word) : Bool :=
  let v := n.getLsbD 63
  let m := bits n.toNat 57 56
  if !y.ownV then v && m == x
  else y.ownMaster.toNat == x && (!v || m != x)

/-- V and MASTER take N's values, GEN advances, LEFT takes RELOAD, and a new owner becomes LAST. -/
def SysRegs.takeOwn (y : SysRegs) (n : Word) : SysRegs :=
  let v := n.getLsbD 63
  let m := n.extractLsb' 56 2
  { y with
    ownV := v, ownMaster := m, ownGen := y.ownGen + 1, left := y.reload
    ownLast := if v then m else y.ownLast
    ownLv := y.ownLv || v }

/-- The compare-and-swap of OWN that master `x` issues: it is answered with the old OWN; one that changes the owner
starts an owner scrub (R403). -/
def State.casOwn (s : State) (x : Nat) (e n : Word) : State :=
  let y := s.sys
  let s1 := s.answer ⟨x, false, false, leBytes 8 y.own⟩
  if e.toNat = y.own && x < 4 && y.change x n then
    let s2 := { s1 with sys := y.takeOwn n }
    if n.getLsbD 63 && y.ownLv && n.extractLsb' 56 2 != y.ownLast then s2.startOwnerScrub else s2
  else s1.leaseTick x

/-- The lease has run out (R402). -/
def State.lapse (s : State) : State :=
  if s.sys.ownV && s.sys.left == 0 then { s with sys := { s.sys with ownV := false, ownGen := s.sys.ownGen + 1 } } else s

/-! ## Meanings -/

/-- A compare-and-swap of 64 bits at OWN, with its operands. -/
def ownCas (r : HostReq) : Option (Word × Word) :=
  match r.op with
  | some (.cas, e, n) => if r.pa = Config.regBase + 0x140000 && r.len = 8 then some (w64 e, w64 n) else none
  | _ => none

/-- No request arrives while the link is down (R400). -/
def execHostAccess (r : HostReq) (s : State) : Res :=
  .next (if !s.sys.link || 4 ≤ r.master then s
    else match ownCas r with
      | some (e, n) => s.casOwn r.master e n
      | none => (if r.got.isSome then s else s.leaseTick r.master).hostRequest r)

def execHostSignal (master : Nat) (handle : Word) (amount : Nat) (s : State) : Res :=
  .next (if s.sys.link then s.hostSignalOp master handle (amount % 2 ^ 16) else s)

def execHostsigWrite (value : Word) (s : State) : Res := .next (s.hostsigOp value)
def execLinkLoss (s : State) : Res := .next s.loseLink
def execLinkReturn (s : State) : Res := .next s.regainLink

def execOwnClaim (x : Nat) (e n : Word) (s : State) : Res := .next (if s.sys.link then s.casOwn x e n else s)
def execOwnRelease (x : Nat) (e n : Word) (s : State) : Res := .next (if s.sys.link then s.casOwn x e n else s)
def execOwnHandover (x : Nat) (e n : Word) (s : State) : Res := .next (if s.sys.link then s.casOwn x e n else s)
def execLeaseLapse (s : State) : Res := .next s.lapse

def execOwnerScrubComplete (s : State) : Res := .next (if s.sys.scrub then s.finishOwnerScrub else s)

def execEngagementScrub (req : Nat) (s : State) : Res := .next (s.engagementScrubOp req)
def execEngagementScrubComplete (s : State) : Res :=
  .next (match s.sys.job with
    | some (.scrub slot erase dest ranges) => s.finishScrub slot erase dest ranges
    | _ => s)

def execAttestation (req : Nat) (s : State) : Res := .next (s.attestOp req)
def execAttestationComplete (s : State) : Res :=
  .next (match s.sys.job with
    | some (.attest dest nonce) => s.finishReport dest nonce
    | _ => s)

def execKeyLoad (slot rec : Nat) (s : State) : Res := .next (s.keyLoadOp slot rec)

/-- Erase acts on slots 1 to 63 (R410). -/
def execKeyErase (slot : Nat) (s : State) : Res := .next (s.keyEraseOp slot)

end Sys2Proof.Machine
end

