-- ==== Sys2Proof/Machine/Boot.lean ====
section
/-! DEFINITION. Module reset, training, repairs, power and temperature (spec/18_system.md R413 to R416, spec/02 R62,
spec/03 R78). -/

namespace Sys2Proof.Machine

/-! ## Module reset (R413) -/

/-- Steps that come from outside the module's own units, which a module reset leaves waiting. -/
def fromOutside : Event → Bool
  | .remoteSignalArrival _ _ _ => true
  | .collectiveAbortReceipt _ _ _ => true
  | .switchAccess _ => true
  | .mirrorImageInstall _ => true
  | .mergeLockLapse _ _ => true
  | .planeDown _ => true
  | .planeUp _ _ => true
  | .hostAccess _ => true
  | .hostSignal _ _ _ => true
  | .linkLoss => true
  | .linkReturn => true
  | .ownClaim _ _ _ => true
  | .ownRelease _ _ _ => true
  | .ownHandover _ _ _ => true
  | .moduleReset => true
  | .memoryTrained => true
  | .fabricTrained _ => true
  | .hbmRepair _ _ => true
  | .clockThrottle => true
  | .clockRestore => true
  | .thermalStop => true
  | _ => false

/-- Cores of the dies whose firmware does not verify: they stay out of service. -/
def failedCores : List Core :=
  ((List.range 16).filter (fun d => !firmwareVerifies d)).flatMap (fun d =>
    (List.range 384).map (fun i => { Core.reset (d * 384 + i) with inService := false }))

/-- Every register at its reset value; HBM, host memory and the planes keep their bytes (log 20). -/
def State.powerOn (s : State) : State :=
  let bad := failedCores
  { State.reset with
    mem := s.mem.erase (padStore 0) (padStore 6144)
    poison := s.poison
    sealKeys := s.sealKeys
    planes := s.planes
    allocs := s.allocs
    peers := s.peers
    hostOut := s.hostOut
    linkOut := s.linkOut
    fabric := s.fabric
    agenda := s.agenda.filter fromOutside
    sched := s.sched
    fresh := s.fresh
    stamp := s.stamp
    core := (bad.find? (·.id == 0)).getD (Core.reset 0)
    others := bad.filter (·.id != 0)
    sys := { SysRegs.reset with scrSeq := s.sys.scrSeq } }

/-- Module reset: each die's firmware is verified, and the module enters reduced service and starts the supervisor. -/
def State.resetModule (s : State) : State :=
  let s1 := s.powerOn
  let fails := (List.range 16).any (fun d => !firmwareVerifies d)
  let serves := (List.range 16).any firmwareVerifies
  ({ s1 with sys := { s1.sys with bootfail := fails, svc := if serves then 1 else 0 } }).startSupervisor

/-! ## Training (R413, R414, R78) -/

/-- Full service, once memory and fabric are both trained (R414); a clock that is held down by then rises as R416 has it
(log 72). `was` says that they had been trained before. -/
def State.fullService (s : State) (was : Bool) : State :=
  if !(s.sys.memtr && s.sys.fabtr) then s
  else if s.sys.svc == 1 then ({ s with sys := { s.sys with mhz := 1300, svc := 2 } }).systemEvent
  else if s.sys.svc == 3 && !was then s.systemEvent
  else s

/-- The module learns of a plane in service and its generation. -/
def State.learnPlane (s : State) (p : Nat × Nat) : State :=
  if 18 ≤ p.1 then s
  else
    let s1 := s.planeServes p.1 p.2
    let r := s1.swRegs
    { s1 with swRegs := { r with
        up := r.up ||| (1#18 <<< p.1)
        gen := (p.1, BitVec.ofNat 32 p.2) :: r.gen.filter (·.1 != p.1) } }

/-- Fabric training: `planes` lists the planes in service with their generations; the others are down (R78). -/
def State.trainFabric (s : State) (planes : List (Nat × Nat)) : State :=
  let s1 := { s with
    sys := { s.sys with fabtr := true }
    swRegs := { s.swRegs with up := 0 } }
  let out := (List.range 18).filter (fun p => !planes.any (·.1 == p))
  (planes.foldl State.learnPlane (out.foldl State.planeFail s1)).fullService s.sys.fabtr

/-! ## Repairs (R62, R415) -/

/-- The failing bank's PCMAP entry names the spare's channel, the spare's domain is withdrawn, and REPAIR reports it. -/
def State.repair (s : State) (bank spare : Nat) : State :=
  let d := 1021 + spare
  if 1021 ≤ bank || 3 ≤ spare || (s.domain d).gone then s
  else
    let r := s.memRegs
    let s1 := s.setDomain d { s.domain d with gone := true }
    ({ s1 with
      memRegs := { r with pcmap := (bank, s.pcmapAt d) :: r.pcmap.filter (·.1 != bank) }
      sys := { s1.sys with repChan := s.pcmapAt bank, repCount := s1.sys.repCount + 1 } }).systemEvent

/-! ## Power and temperature (R416) -/

/-- The clock falls by 100 MHz, to no less than 400, and SVC is 3. -/
def State.throttle (s : State) : State :=
  { s with sys := { s.sys with mhz := if s.sys.mhz.toNat < 500 then 400 else s.sys.mhz - 100, svc := 3 } }

/-- The clock rises by 100 MHz; at 1,300 MHz service is full again. Before training it is at its limit, and service is
reduced again (R413, log 72). -/
def State.unthrottle (s : State) : State :=
  if s.sys.svc != 3 then s
  else if s.sys.reduced then { s with sys := { s.sys with mhz := 400, svc := 1 } }
  else
    let m := min 1300 (s.sys.mhz.toNat + 100)
    { s with sys := { s.sys with mhz := BitVec.ofNat 12 m, svc := if m = 1300 then 2 else 3 } }

/-- Every core takes a machine check, and the module stops. -/
def State.heatStop (s : State) : State :=
  { (s.cores.map (·.id)).foldl (fun t id => t.onCore id State.machineCheckCore) s with stopped := true }

/-! ## Meanings -/

def execModuleReset (s : State) : Res := .next s.resetModule
def execMemoryTrained (s : State) : Res := .next (({ s with sys := { s.sys with memtr := true } }).fullService s.sys.memtr)
def execFabricTrained (planes : List (Nat × Nat)) (s : State) : Res := .next (s.trainFabric planes)
def execHbmRepair (bank spare : Nat) (s : State) : Res := .next (s.repair bank spare)
def execClockThrottle (s : State) : Res := .next s.throttle
def execClockRestore (s : State) : Res := .next s.unthrottle
def execThermalStop (s : State) : Res := .next s.heatStop

end Sys2Proof.Machine
end

