-- ==== Sys2Proof/Machine/Control.lean ====
section
/-! DEFINITION. Branches and coroutine instructions (spec/09_scalar_control.md R235 to R238): majors 0x09 and 0x0D to
0x0F. -/

namespace Sys2Proof.Machine

/-! ## Branches (R235, R236) -/

def execB (g : Guard) (i : BitVec 21) (s : State) : Res :=
  .next (s.guarded g (fun s => s.setPc (s.target i)))

def execJal (g : Guard) (i : BitVec 21) (s : State) : Res :=
  .next (s.guarded g (fun s => (s.setS 30 (s.core.run.pc + 4)).setPc (s.target i)))

/-- The target is read before the link is written. -/
def execJr (g : Guard) (d a : Fin 32) (s : State) : Res :=
  .next (s.guarded g (fun s => (s.setS d (s.core.run.pc + 4)).setPc (s.getS a)))

/-- A hardware loop's counter counts down, and the branch is taken while it is not zero. -/
def State.loopOp (s : State) (k : Fin 4) (i : BitVec 15) : State :=
  let n := s.core.run.lc[k]
  if n = 0 then s.advance
  else
    let s1 := s.modRun (fun c => { c with lc := c.lc.set k (n - 1) })
    if n = 1 then s1.advance else s1.setPc (s.target i)

def execLoop (g : Guard) (k : Fin 4) (i : BitVec 15) (s : State) : Res :=
  .next (s.guarded g (fun s => s.loopOp k i))

/-! ## spawn (R164) -/

/-- The coroutine that `spawn` makes, before it has a number. -/
def Coro.child (c : Coro) (lanes : Nat) (pc arg : Word) : Coro :=
  let f := Coro.fresh lanes
  let k := { f with
    priv := c.priv
    asid := c.asid
    launch := c.launch
    obj := c.obj
    s := (f.s.set 1 arg).set 2 (w64 c.cnum.toNat)
    pc := pc
    nreg := c.nreg
    wmax := c.wmax
    vtype := c.vtype
    frm := c.frm
    vstride := c.vstride
    rstride := c.rstride
    prio := c.prio
    ceil := c.ceil }
  { k with vl := BitVec.ofNat 14 (k.vlmax lanes) }

/-- The launch of the running coroutine counts one coroutine more. -/
def State.countSpawn (s : State) : State :=
  match s.findRec s.core.run.launch with
  | none => s
  | some r => s.setRec { r with ncoro := r.ncoro + 1, alive := r.alive + 1 }

def State.spawnOp (s : State) (d : Fin 32) (pc arg : Word) : State :=
  if 1024 ≤ s.core.allCoros.length then (s.setS d 0x01).advance
  else match s.addCoro (s.core.run.child s.core.lanes pc arg) with
    | none => (s.setS d 0x02).advance
    | some (n, s1) => (s1.countSpawn.setS d (w64 (n * 2 ^ 8))).advance

/-- `spawn` is a release at `.core` (R106). -/
def execSpawn (g : Guard) (d a b : Fin 32) (s : State) : Res :=
  .next (s.guarded g (fun s => s.noStrip (fun s =>
    s.released (some 1) (fun s => s.spawnOp d (s.getS a) (s.getS b)))))

/-! ## await, yield, fin and sys (R135, R136, R165 to R167, R238) -/

/-- The core registers with a baton, at most 64 of them; a wait beyond is polled (R137). -/
def State.register (s : State) (h : Word) (cnum : BitVec 10) : State :=
  if s.core.regs.contains h then s
  else if s.core.regs.length < 64 then s.modCore (fun c => { c with regs := c.regs ++ [h] })
  else s.push (.batonPoll s.core.id cnum.toNat)

/-- The wait of an `await` that passed its checks: it goes on at once when the condition holds or the baton has failed,
which is the acquire of a resumption (R122, R135), and otherwise suspends. -/
def State.awaitOp (s : State) (h live : Word) (keep : Nat) : State :=
  let c := s.core.run
  if c.waitMet h (s.baton (handleKey h)) then
    (s.acquire (s.batonScope h)).modRun (fun c => { c with armed := none }) |>.advance
  else
    let k := { c with pc := c.pc + 4, woken := false }
    (s.saveContext (k.trimLive s.core.lanes live keep) .waiting .await).register h c.cnum

/-- An `await` that suspends, like `yield`, `sys` and `fin`, comes after every store of the coroutine (R106). -/
def execAwait (g : Guard) (k : Fin 64) (a b : Fin 32) (s : State) : Res :=
  .next (s.guarded g (fun s => s.noStrip (fun s =>
    let h := s.getS a
    if (s.core.run.armed.map (·.1)) != some h then s.raise .batonArm
    else if handleModule h != Config.moduleNumber then s.raise .batonNotLocal
    else s.released (some 0) (fun s => s.awaitOp h (s.getS b) k.val))))

/-- The coroutine counts as the most recently run for the decision that `yield` asks for; chosen again, it goes on with
every register (R166). -/
def State.yieldOp (s : State) (live : Word) (keep : Nat) : State :=
  let k := { s.core.run with pc := s.core.run.pc + 4, state := .ready, lastRun := s.stamp }
  let s1 := { s with stamp := s.stamp + 1 }
  match s1.core.choice (k :: s1.core.coros) with
  | none => s1.advance
  | some w =>
    if w.cnum = k.cnum then
      (s1.modCore (·.decided k.cnum)).modRun (fun _ => { k with state := .running, passed := 0, convoy := none })
    else (s1.saveContext (k.trimLive s1.core.lanes live keep) .ready .yield).continueHeld

def execYield (g : Guard) (k : Fin 64) (b : Fin 32) (s : State) : Res :=
  .next (s.guarded g (fun s => s.noStrip (fun s =>
    s.released (some 0) (fun s => s.yieldOp (s.getS b) k.val))))

/-- `fin` raises STRIP_SYNC in an open strip, before its wait (R376). -/
def execFin (g : Guard) (s : State) : Res :=
  .next (s.guarded g (fun s => s.noStrip (fun s =>
    s.released (some 0) (fun s => s.endRunning false))))

/-- `sys` parks the coroutine with SYS_CALL and its number; the saved program counter is that of the following
instruction (R238, R361). -/
def execSys (g : Guard) (h l : Fin 64) (s : State) : Res :=
  .next (s.guarded g (fun s => s.noStrip (fun s => s.released (some 0) (fun s =>
    s.advance.raiseTrap { cause := .sysCall, index := h.val * 64 + l.val, here := true }))))

end Sys2Proof.Machine
end

