-- ==== Sys2Proof/Machine/VEngine.lean ====
section
/-! DEFINITION. How the vector unit runs an instruction (spec/06_execution_model.md R160, R161, spec/10_vector.md R251 to
R256, R275, spec/15 R378): the checks at issue, the sweep of the tile from VSTART on, completion, and the stop at an
uncorrectable operand. -/

namespace Sys2Proof.Machine

/-! ## Issue checks (R160, R251) -/

/-- What the issue checks look at: the registers named, the widest element in bytes, whether the type is accepted, and
the registers and masks that are read. -/
structure VOp where
  regs   : List (Fin 64)
  width  : Nat
  okType : Bool
  reads  : List (Fin 64)
  masks  : List (Fin 8) := []
  more   : List (Fin 64 × Nat) := []         -- registers that are read in elements of another width, in bits
  scales : List (Fin 64 × Bool) := []        -- registers of block scales that are read; of a page, from row 0
  record : Option (Fin 64) := none           -- a shape register (R282)
  deriving DecidableEq, Repr

/-- Check 4: the tile fits the registers; an empty tile passes (R160). -/
def Coro.shapeFits (c : Coro) (lanes : Nat) : Bool :=
  c.vl.toNat == 0 || c.rc.toNat == 0 ||
    (decide (c.vl.toNat ≤ c.vlmax lanes) && decide (c.rc.toNat * c.gpr ≤ c.rgroups lanes))

/-- Checks 1 to 4 of R160, then the type (R251); the first that fails names the cause. An instruction that names no
vector register makes none of them. -/
def Coro.issueCause (c : Coro) (lanes : Nat) (op : VOp) : Option Cause :=
  if op.regs.isEmpty then none
  else if lanes = 0 then some .laneRetired
  else if op.regs.any (fun v => decide (c.nregs ≤ v.val)) then some .vregUnconfigured
  else if c.wb < op.width then some .vectorWidth
  else if !c.shapeFits lanes then some .vectorShape
  else if !op.okType then some .vectorType
  else none

/-- The checks at issue, and then the instruction. -/
def State.vIssue (s : State) (op : VOp) (k : State → State) : State :=
  match s.core.run.issueCause s.core.lanes op with
  | some c => s.raise c
  | none => k s

/-! ## Completion, and stopping for a pre-emption (R255, R275, R372) -/

/-- Whether one place of the tile comes before another in sweep order. -/
def placeBefore (p q : Nat × Nat) : Bool := decide (p.1 < q.1) || (p.1 == q.1 && decide (p.2 < q.2))

/-- The program counter advances, and the convoy goes on with its next member, or ends (R210). -/
def Coro.nextMember (c : Coro) : Coro :=
  { c with
    pc := c.pc + 4
    convoy := match c.convoy with
      | none => none
      | some v => if v.at_ + 1 < v.members.length then some { v with at_ := v.at_ + 1 } else none }

/-- VSTARTn is 0 at completion. -/
def Coro.finishV (c : Coro) : Coro := (c.setVs 0 0).nextMember

/-- The words of the convoy in progress, or the lone word being executed. -/
def Core.vWords (c : Core) : List (BitVec 32) :=
  match c.run.convoy with
  | none => [c.insn]
  | some v => v.members

/-- The end of a convoy whose members were to stop at their boundaries: the coroutine is pre-empted at its first member, or
after it where every member has completed. -/
def State.endCut (s : State) (why : PreemptWhy) : State :=
  let c := s.core.run
  let ws := s.core.vWords
  let done := (List.range ws.length).all (fun i =>
    decide (c.endRow (ws.getD i 0) ≤ ((c.vstart[i]?).map (·.row.toNat)).getD 0))
  let start := match c.convoy with
    | none => c.pc
    | some v => v.start
  let k : Coro :=
    if done then { c.nextMember with vstart := c.vstart.mapIdx (fun i v => if i < ws.length then ⟨0, 0⟩ else v) }
    else { c with pc := start, convoy := none }
  ({ s with core := { s.core with run := k, cut := none } }).preemptFor why

/-- A member of a convoy that stops for a pre-emption leaves its place in VSTARTn; the other members stop in their turn. -/
def State.stopV (s0 : State) (p : Nat × Nat) (why : PreemptWhy) : State :=
  let s := s0.landed.modRun (·.setVs p.1 p.2)
  if s.core.run.pos.val + 1 < s.core.vWords.length then s.modRun Coro.nextMember else s.endCut why

/-- An instruction completes. -/
def State.finishV (s : State) : State :=
  match s.core.cut with
  | none => s.landed.modRun Coro.finishV
  | some (_, why) => s.stopV (s.core.run.endRow (s.core.vWords.getD s.core.run.pos.val 0), 0) why

/-- The place after `n` groups of elements of `w` bytes. -/
def Coro.groupPlace (c : Coro) (w n : Nat) : Nat × Nat :=
  let per := 128 / max 1 w
  let row := ceilDiv c.vl.toNat per
  if row = 0 then (c.rc.toNat, 0) else (n / row, n % row * per)

/-- The earlier of two places. -/
def earlierPlace (p q : Nat × Nat) : Nat × Nat := if placeBefore q p then q else p

/-- Where a later member of the convoy, with elements of `w` bytes, stops where an earlier one has processed what comes before
`p` and no more: at the start of the group of `p`, or of its row, where the members' groups do not hold the same elements
(R273). -/
def Coro.chainPlace (c : Coro) (w : Nat) (p : Nat × Nat) : Nat × Nat :=
  let per := 128 / max 1 w
  let rows := match c.convoy with
    | none => false
    | some v => v.rows
  (p.1, if w = 0 || rows then 0 else p.2 / per * per)

/-- The places of the elements whose data an earlier member has requested and not received (R372). -/
def Coro.pendingPlaces (c : Coro) : List (Nat × Nat) :=
  c.pending.filterMap (fun p => match p.dst with
    | .elem _ _ _ row elem => some (row, elem)
    | _ => none)

/-- Where an instruction with elements of `w` bytes stops for a pre-emption: at a boundary of its own, not before the place
that it resumed from, nor beyond that of the member before it, nor past data that an earlier one still waits for (R255,
R273). With w = 0 it stops between rows. -/
def State.cutPlace (s : State) (w : Nat) : Option (Nat × Nat) :=
  match s.core.cut with
  | none => none
  | some (ns, _) =>
    let c := s.core.run
    let n := ns.getD c.pos.val 0
    let own := if w = 0 then (n, 0) else c.groupPlace w n
    let bounds : List (Nat × Nat) := match c.pos.val with
      | 0 => []
      | i + 1 => ((c.vstart[i]?).map (fun v => (v.row.toNat, v.elem.toNat))).toList ++ c.pendingPlaces
    let p := (bounds.map (c.chainPlace w)).foldl earlierPlace own
    let from_ := (c.vs.row.toNat, c.vs.elem.toNat)
    some (if placeBefore p from_ then from_ else p)

/-- Whether a place comes before that at which the instruction stops. -/
def beforeCut (cut : Option (Nat × Nat)) (p : Nat × Nat) : Bool :=
  match cut with
  | none => true
  | some q => placeBefore p q

/-- The instruction stops at that place, or, where none lies in the tile, completes. -/
def State.finishAt (s : State) (cut : Option (Nat × Nat)) : State :=
  match cut, s.core.cut with
  | some p, some (_, why) =>
    if s.core.run.endRow (s.core.vWords.getD s.core.run.pos.val 0) ≤ p.1 then s.finishV else s.stopV p why
  | _, _ => s.finishV

/-! ## Uncorrectable operands (R378) -/

/-- Where an uncorrectable bit of an operand stops a sweep: the element, its group's first element, the lane that failed,
and the mark. -/
structure EccStop where
  row   : Nat
  elem  : Nat
  first : Nat
  lane  : Nat
  mark  : EccMark
  deriving DecidableEq, Repr

/-- The lane of element `e` of `b` bits (R378). -/
def laneOf (e b : Nat) : Nat := e * b / 8 % 128 / 4

/-- The element of the tile that a mark spoils, and its lane, for an instruction of element width `w` that reads these
registers and masks. -/
def Coro.spoiled (c : Coro) (op : VOp) (m : EccMark) : Option (Nat × Nat × Nat) :=
  let at_ (r e lane : Nat) : Option (Nat × Nat × Nat) :=
    if r < c.rc.toNat && e < c.vl.toNat then some (r, e, lane) else none
  match m with
  | .vreg v byte _ =>
    let r := byte / (c.gpr * 128)
    let o := byte % (c.gpr * 128)
    if c.gpr = 0 then none
    else if op.reads.contains v then at_ r (o / op.width) (laneOf (o / op.width) (8 * op.width))
    else if op.record = some v && byte < 64 then at_ c.vs.row.toNat c.vs.elem.toNat (laneOf (byte / 8) 64)
    else if op.scales.contains (v, false) then at_ r (o * 32) (laneOf o 8)
    else if op.scales.contains (v, true) && byte < c.gpr * 128 then at_ 0 (byte * 32) (laneOf byte 8)
    else match op.more.find? (fun x => x.1 == v) with
      | some x => at_ r (o * 8 / x.2) (laneOf (o * 8 / x.2) x.2)
      | none => none
  | .mask i bit _ =>
    let per := c.gpr * 128 / c.wb
    if op.masks.contains i && per != 0 then at_ (bit / per) (bit % per) (laneOf (bit % per) (8 * op.width)) else none
  | _ => none

/-- The earliest of two stops in sweep order. -/
def EccStop.earlier (x y : EccStop) : EccStop :=
  if y.row < x.row || (y.row == x.row && y.elem < x.elem) then y else x

/-- Whether a stop's group begins before a place. -/
def EccStop.isBefore (cut : Option (Nat × Nat)) (x : EccStop) : Bool := beforeCut cut (x.row, x.first)

/-- The first element in sweep order, of those still to be processed, that a mark spoils by `f`. -/
def Coro.firstStop (c : Coro) (op : VOp) (whole : Bool) (f : EccMark → Option (Nat × Nat × Nat)) : Option EccStop :=
  let per := 128 / max 1 op.width
  (c.ecc.filterMap (fun m => match f m with
    | none => none
    | some p => if whole || c.notBefore (p.1, p.2.1) then some ⟨p.1, p.2.1, p.2.1 / per * per, p.2.2, m⟩ else none)).foldl
      (fun o x => match o with
        | none => some x
        | some y => some (EccStop.earlier y x)) none

/-- That of the operands that `op` names. -/
def Coro.eccStop (c : Coro) (op : VOp) (whole : Bool) : Option EccStop := c.firstStop op whole (c.spoiled op)

/-- Whether a mark's read-back fails, and with it the lane group. -/
def EccMark.retires : EccMark → Bool
  | .vreg _ _ b => b
  | .mask _ _ b => b
  | .acc _ _ _ b => b
  | _ => false

/-- A lane group retires (R161): its LANEMASK bit clears, and every saved context that holds vector state will meet
LANE_RETIRED. -/
def State.retireLanes (s : State) (group : Nat) : State :=
  s.modCore (fun c => { c with
    lanemask := c.lanemask &&& ~~~(1#4 <<< group)
    coros := c.coros.map (fun k => if k.hasVec then { k with lostVec := true } else k) })

/-- The report of a data error: the first is kept in ERRLANE and ERRELEM, and the record carries the new one. -/
def Coro.report (c : Coro) (lane row elem : Nat) : Coro :=
  if c.errV then c
  else { c with
    errV := true
    errLane := BitVec.ofNat 5 lane
    errRow := BitVec.ofNat 8 row
    errElem := BitVec.ofNat 14 elem }

/-- The ERR word of such a report (R365). -/
def errWordOf (lane row elem : Nat) : Word := w64 (2 ^ 63 + lane * 2 ^ 32 + row * 2 ^ 16 + elem)

/-- The trap of an uncorrectable bit of a register (R378): the report, the trap, and the lane group retired when the
read-back fails. -/
def State.raiseLane (s : State) (cause : Cause) (index lane row elem : Nat) (m : EccMark) : State :=
  let s1 := s.modRun (fun c => { c.report lane row elem with ecc := c.ecc.filter (· != m) })
  let s2 := s1.raiseDataTrap { cause := cause, index := index, err := some (errWordOf lane row elem) }
  if m.retires then s2.retireLanes (lane / 8) else s2

/-- DATA_VREG at an element, or DATA_ACC at an accumulator's: VSTARTn holds the failing group. -/
def State.raiseVreg (s : State) (x : EccStop) : State :=
  let s1 := s.modRun (·.setVs x.row x.first)
  let idx := s.core.run.sweepIndex x.row x.elem
  match x.mark with
  | .acc _ i j _ => s1.raiseLane .dataAcc idx (j % 32) i j x.mark
  | _ => s1.raiseLane .dataVreg idx x.lane x.row x.elem x.mark

/-! ## The sweep -/

/-- Elements processed one by one from VSTART on: `body` takes the elements to process and whether they are all of them. Up
to the failing group, the elements before it are processed (R378); for a pre-emption, those before its boundary (R255). -/
def State.sweepTo (s : State) (op : VOp) (stop : Option EccStop) (body : Bool → List (Nat × Nat) → Coro → Coro) :
    State :=
  let c := s.core.run
  let cut := s.cutPlace op.width
  match stop.filter (·.isBefore cut) with
  | none =>
    let todo := c.todo.filter (beforeCut cut)
    (s.modRun (body (todo.length == c.todo.length) todo)).finishAt cut
  | some x =>
    (s.modRun (body false (c.todo.filter (fun p => placeBefore p (x.row, x.first))))).raiseVreg x

/-- An instruction that does so after its checks. -/
def State.sweep (s : State) (op : VOp) (body : Bool → List (Nat × Nat) → Coro → Coro) : State :=
  s.vIssue op (fun s => s.sweepTo op (s.core.run.eccStop op false) body)

/-- What a cross-element instruction that meets an uncorrectable operand has written before it stops (R378). -/
abbrev CrossPart := (Coro → Coro) → EccStop → Coro → Coro

/-- Nothing: its one result needs every operand. -/
def crossNone : CrossPart := fun _ _ c => c

/-- The rows before the failing one. -/
def crossRows : CrossPart := fun body x c => { body { c with rc := BitVec.ofNat 8 x.row } with rc := c.rc }

/-- What a mark spoils, changed. -/
def Coro.disturb (c : Coro) (m : EccMark) : Coro :=
  match m with
  | .vreg v byte _ => { c with v := c.v.set v (VReg.put c.v[v] byte 1 (255 - VReg.get c.v[v] byte 1)) }
  | .mask k bit _ => if h : k.val < 7 then { c with m := c.m.set k.val (c.m[k.val] ^^^ (1 <<< bit)) } else c
  | _ => c

/-- The elements of `d`, of `w` bytes, in the groups before the failing one, and before the first group that an element made of
the bad operand lies in. -/
def crossElems (d : Fin 64) (w : Nat) : CrossPart := fun body x c =>
  let c1 := body c
  let c2 := body (c.disturb x.mark)
  let per := 128 / max 1 w
  let stop := match c.tile.find? (fun p => c1.elem d w p.1 p.2 != c2.elem d w p.1 p.2) with
    | none => (x.row, x.first)
    | some p => earlierPlace (x.row, x.first) (p.1, p.2 / per * per)
  (c.tile.filter (fun p => placeBefore p stop)).foldl (fun k p => k.putElem d w p.1 p.2 (c1.elem d w p.1 p.2)) c

/-- A cross-element instruction, which processes the whole tile and ignores VSTART (R256); `part` is what it writes before an
uncorrectable operand. -/
def State.crossSweep (s : State) (op : VOp) (part : CrossPart) (body : Coro → Coro) : State :=
  s.vIssue op (fun s =>
    match s.core.run.eccStop op true with
    | none => (s.modRun body).finishV
    | some x => (s.modRun (part body x)).raiseVreg x)

/-- One function applied to each active element, its flags gathered (R204, R252). -/
def Coro.eachActive (g : Guard) (f : Coro → Nat → Nat → Coro × Flags) (ps : List (Nat × Nat)) (c : Coro) : Coro :=
  ps.foldl (fun c p =>
    if c.active g p.1 p.2 then
      let r := f c p.1 p.2
      r.1.orFlags r.2
    else c) c

/-- An elementwise instruction. -/
def State.elementwise (s : State) (op : VOp) (g : Guard) (f : Coro → Nat → Nat → Coro × Flags) : State :=
  s.sweep { op with masks := g.idx :: op.masks } (fun _ => Coro.eachActive g f)

end Sys2Proof.Machine
end

