-- ==== Sys2Proof/Machine/VInt.lean ====
section
/-! DEFINITION. Vector integer arithmetic, compares, masks, moves and permutes (spec/10_vector.md R257 to R261): majors
0x10 to 0x16. -/

namespace Sys2Proof.Machine

/-! ## Operations on elements of `w` bytes (R183, Table 3) -/

/-- Two's complement limits of `w` bytes, and a value clamped to a type's range. -/
def clampTo (signed : Bool) (w : Nat) (x : Int) : Nat :=
  let lo : Int := if signed then -(2 ^ (8 * w - 1) : Nat) else 0
  let hi : Int := if signed then (2 ^ (8 * w - 1) : Nat) - 1 else (2 ^ (8 * w) : Nat) - 1
  wrap (8 * w) (if x < lo then lo else if hi < x then hi else x)

/-- An element read as its type gives it. -/
def asType (t w x : Nat) : Int := if typeSigned t then toSigned (8 * w) x else (x : Int)

def elAdd (_ w x y : Nat) : Nat := (x + y) % 2 ^ (8 * w)
def elSub (_ w x y : Nat) : Nat := wrap (8 * w) ((x : Int) - (y : Int))
def elAnd (_ _ x y : Nat) : Nat := x &&& y
def elOr (_ _ x y : Nat) : Nat := x ||| y
def elXor (_ _ x y : Nat) : Nat := x ^^^ y
def elSll (_ w x y : Nat) : Nat := x * 2 ^ (y % (8 * w)) % 2 ^ (8 * w)
def elSrl (_ w x y : Nat) : Nat := x / 2 ^ (y % (8 * w))
def elSra (_ w x y : Nat) : Nat := wrap (8 * w) (toSigned (8 * w) x / (2 ^ (y % (8 * w)) : Nat))
def elMul (_ w x y : Nat) : Nat := x * y % 2 ^ (8 * w)
def elMulh (t w x y : Nat) : Nat := wrap (8 * w) (asType t w x * asType t w y / (2 ^ (8 * w) : Nat))
def elMin (_ w x y : Nat) : Nat := if toSigned (8 * w) y < toSigned (8 * w) x then y else x
def elMax (_ w x y : Nat) : Nat := if toSigned (8 * w) x < toSigned (8 * w) y then y else x
def elMinu (_ _ x y : Nat) : Nat := min x y
def elMaxu (_ _ x y : Nat) : Nat := max x y
def elAdds (t w x y : Nat) : Nat := clampTo (typeSigned t) w (asType t w x + asType t w y)
def elSubs (t w x y : Nat) : Nat := clampTo (typeSigned t) w (asType t w x - asType t w y)

/-! ## Forms (Table 1 of spec/10_vector.md) -/

/-- Types an integer operation accepts, and types a bitwise one or a move accepts (Table 2). -/
def Coro.intType (c : Coro) : Bool := c.ty < 8
def Coro.anyType (c : Coro) : Bool := c.ty < 14

/-- VVV: `f` of the type, the width and the two elements. -/
def State.vvv (s : State) (g : Guard) (d a b : Fin 64) (ok : Coro → Bool) (f : Nat → Nat → Nat → Nat → Nat) : State :=
  let k := s.core.run
  s.elementwise ⟨[d, a, b], k.tyBytes, ok k, [a, b], [], [], [], none⟩ g (fun c r e =>
    (c.putElem d k.tyBytes r e (f k.ty k.tyBytes (c.elem a k.tyBytes r e) (c.elem b k.tyBytes r e)), 0))

/-- VVS: the scalar's low bits stand in for every element of vb. -/
def State.vvs (s : State) (g : Guard) (d a : Fin 64) (b : Fin 32) (ok : Coro → Bool)
    (f : Nat → Nat → Nat → Nat → Nat) : State :=
  let k := s.core.run
  let y := (s.getS b).toNat % 2 ^ (8 * k.tyBytes)
  s.elementwise ⟨[d, a], k.tyBytes, ok k, [a], [], [], [], none⟩ g (fun c r e =>
    (c.putElem d k.tyBytes r e (f k.ty k.tyBytes (c.elem a k.tyBytes r e) y), 0))

/-- CMP: the masks receive the comparison and its complement (R258). -/
def State.vcmp (s : State) (g : Guard) (d a b : Fin 64) (f : Nat → Nat → Nat → Bool) : State :=
  let k := s.core.run
  s.elementwise ⟨[a, b], k.tyBytes, k.intType, [a, b], [], [], [], none⟩ g (fun c r e =>
    (c.putMaskPair d r e (f k.tyBytes (c.elem a k.tyBytes r e) (c.elem b k.tyBytes r e)), 0))

/-- MMM: a bit of each mask named, where the masks have one (R159, R260). DESIGN CHOICE (log 80): its elements have no width of
their own, and its groups are those of elements of one byte (R255). -/
def State.mmm (s : State) (g : Guard) (d a b : Fin 8) (f : Bool → Bool → Bool) : State :=
  s.elementwise ⟨[], 1, true, [], [a, b], [], [], none⟩ g (fun c r e =>
    (if c.inMask s.core.lanes r e then c.putMask d r e (f (c.maskBit a r e) (c.maskBit b r e)) else c, 0))

/-- Active elements of the tile whose bit in a mask is 1. -/
def Coro.counted (c : Coro) (lanes : Nat) (g : Guard) (a : Fin 8) : List (Nat × Nat) :=
  c.tile.filter (fun p => c.inMask lanes p.1 p.2 && c.active g p.1 p.2 && c.maskBit a p.1 p.2)

/-- SM: a scalar from the counted elements. -/
def State.maskCount (s : State) (g : Guard) (d : Fin 32) (a : Fin 8) (f : Coro → List (Nat × Nat) → Word) : State :=
  s.crossSweep ⟨[], 1, true, [], [g.idx, a], [], [], none⟩ crossNone (fun c => c.setS d (f c (c.counted s.core.lanes g a)))

/-! ## Meanings -/

def execVadd (g : Guard) (_c : Bool) (d a b : Fin 64) (s : State) : Res := .next (s.vvv g d a b Coro.intType elAdd)
def execVsub (g : Guard) (_c : Bool) (d a b : Fin 64) (s : State) : Res := .next (s.vvv g d a b Coro.intType elSub)
def execVand (g : Guard) (_c : Bool) (d a b : Fin 64) (s : State) : Res := .next (s.vvv g d a b Coro.anyType elAnd)
def execVor (g : Guard) (_c : Bool) (d a b : Fin 64) (s : State) : Res := .next (s.vvv g d a b Coro.anyType elOr)
def execVxor (g : Guard) (_c : Bool) (d a b : Fin 64) (s : State) : Res := .next (s.vvv g d a b Coro.anyType elXor)
def execVsll (g : Guard) (_c : Bool) (d a b : Fin 64) (s : State) : Res := .next (s.vvv g d a b Coro.intType elSll)
def execVsrl (g : Guard) (_c : Bool) (d a b : Fin 64) (s : State) : Res := .next (s.vvv g d a b Coro.intType elSrl)
def execVsra (g : Guard) (_c : Bool) (d a b : Fin 64) (s : State) : Res := .next (s.vvv g d a b Coro.intType elSra)
def execVmul (g : Guard) (_c : Bool) (d a b : Fin 64) (s : State) : Res := .next (s.vvv g d a b Coro.intType elMul)
def execVmulh (g : Guard) (_c : Bool) (d a b : Fin 64) (s : State) : Res := .next (s.vvv g d a b Coro.intType elMulh)
def execVmin (g : Guard) (_c : Bool) (d a b : Fin 64) (s : State) : Res := .next (s.vvv g d a b Coro.intType elMin)
def execVmax (g : Guard) (_c : Bool) (d a b : Fin 64) (s : State) : Res := .next (s.vvv g d a b Coro.intType elMax)
def execVminu (g : Guard) (_c : Bool) (d a b : Fin 64) (s : State) : Res := .next (s.vvv g d a b Coro.intType elMinu)
def execVmaxu (g : Guard) (_c : Bool) (d a b : Fin 64) (s : State) : Res := .next (s.vvv g d a b Coro.intType elMaxu)
def execVadds (g : Guard) (_c : Bool) (d a b : Fin 64) (s : State) : Res := .next (s.vvv g d a b Coro.intType elAdds)
def execVsubs (g : Guard) (_c : Bool) (d a b : Fin 64) (s : State) : Res := .next (s.vvv g d a b Coro.intType elSubs)

def execVaddScalar (g : Guard) (_c : Bool) (d a : Fin 64) (b : Fin 32) (s : State) : Res :=
  .next (s.vvs g d a b Coro.intType elAdd)
def execVsubScalar (g : Guard) (_c : Bool) (d a : Fin 64) (b : Fin 32) (s : State) : Res :=
  .next (s.vvs g d a b Coro.intType elSub)
def execVandScalar (g : Guard) (_c : Bool) (d a : Fin 64) (b : Fin 32) (s : State) : Res :=
  .next (s.vvs g d a b Coro.anyType elAnd)
def execVorScalar (g : Guard) (_c : Bool) (d a : Fin 64) (b : Fin 32) (s : State) : Res :=
  .next (s.vvs g d a b Coro.anyType elOr)
def execVxorScalar (g : Guard) (_c : Bool) (d a : Fin 64) (b : Fin 32) (s : State) : Res :=
  .next (s.vvs g d a b Coro.anyType elXor)
def execVsllScalar (g : Guard) (_c : Bool) (d a : Fin 64) (b : Fin 32) (s : State) : Res :=
  .next (s.vvs g d a b Coro.intType elSll)
def execVsrlScalar (g : Guard) (_c : Bool) (d a : Fin 64) (b : Fin 32) (s : State) : Res :=
  .next (s.vvs g d a b Coro.intType elSrl)
def execVsraScalar (g : Guard) (_c : Bool) (d a : Fin 64) (b : Fin 32) (s : State) : Res :=
  .next (s.vvs g d a b Coro.intType elSra)
def execVmulScalar (g : Guard) (_c : Bool) (d a : Fin 64) (b : Fin 32) (s : State) : Res :=
  .next (s.vvs g d a b Coro.intType elMul)
def execVmulhScalar (g : Guard) (_c : Bool) (d a : Fin 64) (b : Fin 32) (s : State) : Res :=
  .next (s.vvs g d a b Coro.intType elMulh)
def execVminScalar (g : Guard) (_c : Bool) (d a : Fin 64) (b : Fin 32) (s : State) : Res :=
  .next (s.vvs g d a b Coro.intType elMin)
def execVmaxScalar (g : Guard) (_c : Bool) (d a : Fin 64) (b : Fin 32) (s : State) : Res :=
  .next (s.vvs g d a b Coro.intType elMax)
def execVminuScalar (g : Guard) (_c : Bool) (d a : Fin 64) (b : Fin 32) (s : State) : Res :=
  .next (s.vvs g d a b Coro.intType elMinu)
def execVmaxuScalar (g : Guard) (_c : Bool) (d a : Fin 64) (b : Fin 32) (s : State) : Res :=
  .next (s.vvs g d a b Coro.intType elMaxu)
def execVaddsScalar (g : Guard) (_c : Bool) (d a : Fin 64) (b : Fin 32) (s : State) : Res :=
  .next (s.vvs g d a b Coro.intType elAdds)
def execVsubsScalar (g : Guard) (_c : Bool) (d a : Fin 64) (b : Fin 32) (s : State) : Res :=
  .next (s.vvs g d a b Coro.intType elSubs)

def execVcmpEq (g : Guard) (_c : Bool) (d a b : Fin 64) (s : State) : Res :=
  .next (s.vcmp g d a b (fun _ x y => x == y))
def execVcmpNe (g : Guard) (_c : Bool) (d a b : Fin 64) (s : State) : Res :=
  .next (s.vcmp g d a b (fun _ x y => x != y))
def execVcmpLt (g : Guard) (_c : Bool) (d a b : Fin 64) (s : State) : Res :=
  .next (s.vcmp g d a b (fun w x y => toSigned (8 * w) x < toSigned (8 * w) y))
def execVcmpLtu (g : Guard) (_c : Bool) (d a b : Fin 64) (s : State) : Res :=
  .next (s.vcmp g d a b (fun _ x y => x < y))
def execVcmpLe (g : Guard) (_c : Bool) (d a b : Fin 64) (s : State) : Res :=
  .next (s.vcmp g d a b (fun w x y => toSigned (8 * w) x ≤ toSigned (8 * w) y))
def execVcmpLeu (g : Guard) (_c : Bool) (d a b : Fin 64) (s : State) : Res :=
  .next (s.vcmp g d a b (fun _ x y => x ≤ y))

/-- `vmerge` writes every element of the tile: the active from va, the others from vb (R259). -/
def execVmerge (g : Guard) (_c : Bool) (d a b : Fin 64) (s : State) : Res :=
  let k := s.core.run
  .next (s.sweep ⟨[d, a, b], k.tyBytes, k.anyType, [a, b], [g.idx], [], [], none⟩ (fun _ ps c =>
    ps.foldl (fun c p =>
      c.putElem d k.tyBytes p.1 p.2
        (if c.active g p.1 p.2 then c.elem a k.tyBytes p.1 p.2 else c.elem b k.tyBytes p.1 p.2)) c))

/-- Slides move elements within a row by an unsigned amount (R261). -/
def execVslideup (g : Guard) (_c : Bool) (d a : Fin 64) (b : Fin 32) (s : State) : Res :=
  let k := s.core.run
  let n := (s.getS b).toNat
  .next (s.crossSweep ⟨[d, a], k.tyBytes, k.anyType, [a], [g.idx], [], [], none⟩ (crossElems d k.tyBytes) (fun c0 =>
    c0.tile.foldl (fun c p =>
      if c0.active g p.1 p.2 && n ≤ p.2 then c.putElem d k.tyBytes p.1 p.2 (c0.elem a k.tyBytes p.1 (p.2 - n))
      else c) c0))

def execVslidedn (g : Guard) (_c : Bool) (d a : Fin 64) (b : Fin 32) (s : State) : Res :=
  let k := s.core.run
  let n := (s.getS b).toNat
  .next (s.crossSweep ⟨[d, a], k.tyBytes, k.anyType, [a], [g.idx], [], [], none⟩ (crossElems d k.tyBytes) (fun c0 =>
    c0.tile.foldl (fun c p =>
      if c0.active g p.1 p.2 then
        c.putElem d k.tyBytes p.1 p.2
          (if p.2 + n < c0.vl.toNat then c0.elem a k.tyBytes p.1 (p.2 + n) else 0)
      else c) c0))

/-- The active elements of each row gathered at its start. -/
def execVcompress (g : Guard) (_c : Bool) (d a : Fin 64) (s : State) : Res :=
  let k := s.core.run
  .next (s.crossSweep ⟨[d, a], k.tyBytes, k.anyType, [a], [g.idx], [], [], none⟩ (crossElems d k.tyBytes) (fun c0 =>
    (List.range c0.rc.toNat).foldl (fun c r =>
      (((List.range c0.vl.toNat).filter (c0.active g r)).zipIdx).foldl (fun c p =>
        c.putElem d k.tyBytes r p.2 (c0.elem a k.tyBytes r p.1)) c) c0))

/-- Every element of a row receives the number of active elements before it. -/
def execViota (g : Guard) (_c : Bool) (d : Fin 64) (s : State) : Res :=
  let k := s.core.run
  .next (s.crossSweep ⟨[d], k.tyBytes, k.intType, [], [g.idx], [], [], none⟩ (crossElems d k.tyBytes) (fun c0 =>
    (List.range c0.rc.toNat).foldl (fun c r =>
      ((List.range c0.vl.toNat).foldl (fun (x : Coro × Nat) e =>
        (x.1.putElem d k.tyBytes r e x.2, if c0.active g r e then x.2 + 1 else x.2)) (c, 0)).1) c0))

def execVperm (g : Guard) (_c : Bool) (d a b : Fin 64) (s : State) : Res :=
  let k := s.core.run
  .next (s.crossSweep ⟨[d, a, b], k.tyBytes, k.anyType, [a, b], [g.idx], [], [], none⟩ (crossElems d k.tyBytes) (fun c0 =>
    c0.tile.foldl (fun c p =>
      if c0.active g p.1 p.2 then
        let i := c0.elem b k.tyBytes p.1 p.2
        c.putElem d k.tyBytes p.1 p.2 (if i < c0.vl.toNat then c0.elem a k.tyBytes p.1 i else 0)
      else c) c0))

def execVbcast (g : Guard) (_c : Bool) (d : Fin 64) (a : Fin 32) (s : State) : Res :=
  let k := s.core.run
  let x := (s.getS a).toNat
  .next (s.elementwise ⟨[d], k.tyBytes, k.anyType, [], [], [], [], none⟩ g (fun c r e => (c.putElem d k.tyBytes r e x, 0)))

/-- One element into a scalar register, sign-extended for the signed types. -/
def execVext (_c : Bool) (d : Fin 32) (a : Fin 64) (b : Fin 32) (s : State) : Res :=
  let k := s.core.run
  let i := bits (s.getS b).toNat 23 16
  let j := bits (s.getS b).toNat 13 0
  .next (s.crossSweep ⟨[a], k.tyBytes, k.anyType, [a], [], [], [], none⟩ crossNone (fun c =>
    c.setS d (if i < c.rc.toNat && j < c.vl.toNat then
      BitVec.ofInt 64 (asType k.ty k.tyBytes (c.elem a k.tyBytes i j)) else 0)))

def execVmv (g : Guard) (_c : Bool) (d a : Fin 64) (s : State) : Res :=
  let k := s.core.run
  .next (s.elementwise ⟨[d, a], k.tyBytes, k.anyType, [a], [], [], [], none⟩ g (fun c r e =>
    (c.putElem d k.tyBytes r e (c.elem a k.tyBytes r e), 0)))

def execMand (g : Guard) (_c : Bool) (d a b : Fin 8) (s : State) : Res := .next (s.mmm g d a b (· && ·))
def execMor (g : Guard) (_c : Bool) (d a b : Fin 8) (s : State) : Res := .next (s.mmm g d a b (· || ·))
def execMxor (g : Guard) (_c : Bool) (d a b : Fin 8) (s : State) : Res := .next (s.mmm g d a b (· != ·))
def execMandn (g : Guard) (_c : Bool) (d a b : Fin 8) (s : State) : Res := .next (s.mmm g d a b (fun x y => x && !y))

def execMpop (g : Guard) (_c : Bool) (d : Fin 32) (a : Fin 8) (s : State) : Res :=
  .next (s.maskCount g d a (fun _ l => w64 l.length))

def execMfirst (g : Guard) (_c : Bool) (d : Fin 32) (a : Fin 8) (s : State) : Res :=
  .next (s.maskCount g d a (fun c l => match l.head? with
    | none => BitVec.allOnes 64
    | some p => w64 (c.sweepIndex p.1 p.2)))

def execVtom (g : Guard) (_c : Bool) (d : Fin 8) (a : Fin 64) (s : State) : Res :=
  let k := s.core.run
  .next (s.elementwise ⟨[a], k.tyBytes, k.anyType, [a], [], [], [], none⟩ g (fun c r e =>
    (c.putMask d r e (c.elem a k.tyBytes r e != 0), 0)))

def execMtov (g : Guard) (_c : Bool) (d : Fin 64) (a : Fin 8) (s : State) : Res :=
  let k := s.core.run
  .next (s.elementwise ⟨[d], k.tyBytes, k.anyType, [], [a], [], [], none⟩ g (fun c r e =>
    (c.putElem d k.tyBytes r e (bit01 (c.maskBit a r e)), 0)))

end Sys2Proof.Machine
end

