-- ==== Sys2Proof/Machine/VFp.lean ====
section
/-! DEFINITION. Vector floating point and special functions (spec/10_vector.md R262 to R265): majors 0x17 to 0x1A. -/

namespace Sys2Proof.Machine

/-- Types that majors 0x17 to 0x19 accept (Table 2). -/
def Coro.fpType (c : Coro) : Bool := 8 ≤ c.ty && c.ty < 12

/-- The same, of which reduced service leaves type 10 alone (R413). -/
def State.fpType (s : State) : Bool := s.core.run.fpType && s.serviceType s.core.run.ty

/-- VVV in the format of VTYPE, with the flags of each element. -/
def State.vfff (s : State) (g : Guard) (d a b : Fin 64) (f : Fmt → Rm → Nat → Nat → Nat × Flags) : State :=
  let k := s.core.run
  s.elementwise ⟨[d, a, b], k.tyBytes, s.fpType, [a, b], [], [], [], none⟩ g (fun c r e =>
    let x := f (typeFmt k.ty) k.arithRm (c.elem a k.tyBytes r e) (c.elem b k.tyBytes r e)
    (c.putElem d k.tyBytes r e x.1, x.2))

/-- VVS: the scalar's low bits hold the value in the format of VTYPE. -/
def State.vffs (s : State) (g : Guard) (d a : Fin 64) (b : Fin 32) (f : Fmt → Rm → Nat → Nat → Nat × Flags) : State :=
  let k := s.core.run
  let y := (s.getS b).toNat % 2 ^ (8 * k.tyBytes)
  s.elementwise ⟨[d, a], k.tyBytes, s.fpType, [a], [], [], [], none⟩ g (fun c r e =>
    let x := f (typeFmt k.ty) k.arithRm (c.elem a k.tyBytes r e) y
    (c.putElem d k.tyBytes r e x.1, x.2))

/-- A compare writes masks as R258 gives (R263). -/
def State.vfcmp (s : State) (g : Guard) (d a b : Fin 64) (cc : Nat) : State :=
  let k := s.core.run
  s.elementwise ⟨[a, b], k.tyBytes, s.fpType, [a, b], [], [], [], none⟩ g (fun c r e =>
    let x := (typeFmt k.ty).compare cc (c.elem a k.tyBytes r e) (c.elem b k.tyBytes r e)
    (c.putMaskPair d r e x.1, x.2))

/-- A sign-bit operation: va with its sign bit replaced; no flag, and NaNs keep their bits. -/
def State.vfsign (s : State) (g : Guard) (d a b : Fin 64) (f : Bool → Bool → Bool) : State :=
  let k := s.core.run
  let top := 8 * k.tyBytes - 1
  s.elementwise ⟨[d, a, b], k.tyBytes, s.fpType, [a, b], [], [], [], none⟩ g (fun c r e =>
    let x := c.elem a k.tyBytes r e
    (c.putElem d k.tyBytes r e (x % 2 ^ top + bit01 (f (bitAt x top) (bitAt (c.elem b k.tyBytes r e) top)) * 2 ^ top), 0))

/-- A special function of FP32 (R264). -/
def State.vsf (s : State) (g : Guard) (d a : Fin 64) (f : Nat → Nat × Flags) : State :=
  let k := s.core.run
  s.elementwise ⟨[d, a], k.tyBytes, k.ty == 10, [a], [], [], [], none⟩ g (fun c r e =>
    let x := f (c.elem a k.tyBytes r e)
    (c.putElem d k.tyBytes r e x.1, x.2))

/-! ## Meanings -/

def execVfadd (g : Guard) (_c : Bool) (d a b : Fin 64) (s : State) : Res := .next (s.vfff g d a b Fmt.add)
def execVfsub (g : Guard) (_c : Bool) (d a b : Fin 64) (s : State) : Res := .next (s.vfff g d a b Fmt.sub)
def execVfmul (g : Guard) (_c : Bool) (d a b : Fin 64) (s : State) : Res := .next (s.vfff g d a b Fmt.mul)
def execVfdiv (g : Guard) (_c : Bool) (d a b : Fin 64) (s : State) : Res := .next (s.vfff g d a b Fmt.div)
def execVfmin (g : Guard) (_c : Bool) (d a b : Fin 64) (s : State) : Res := .next (s.vfff g d a b (fun f _ => f.minmax false))
def execVfmax (g : Guard) (_c : Bool) (d a b : Fin 64) (s : State) : Res := .next (s.vfff g d a b (fun f _ => f.minmax true))

/-- `vfma` adds the product to the destination's own element, with one rounding (R262). -/
def execVfma (g : Guard) (_c : Bool) (d a b : Fin 64) (s : State) : Res :=
  let k := s.core.run
  .next (s.elementwise ⟨[d, a, b], k.tyBytes, s.fpType, [a, b, d], [], [], [], none⟩ g (fun c r e =>
    let x := (typeFmt k.ty).fma k.arithRm (c.elem a k.tyBytes r e) (c.elem b k.tyBytes r e) (c.elem d k.tyBytes r e)
    (c.putElem d k.tyBytes r e x.1, x.2)))

def execVfsqrt (g : Guard) (_c : Bool) (d a : Fin 64) (s : State) : Res :=
  let k := s.core.run
  .next (s.elementwise ⟨[d, a], k.tyBytes, s.fpType, [a], [], [], [], none⟩ g (fun c r e =>
    let x := (typeFmt k.ty).sqrt k.arithRm (c.elem a k.tyBytes r e)
    (c.putElem d k.tyBytes r e x.1, x.2)))

def execVfaddScalar (g : Guard) (_c : Bool) (d a : Fin 64) (b : Fin 32) (s : State) : Res :=
  .next (s.vffs g d a b Fmt.add)
def execVfsubScalar (g : Guard) (_c : Bool) (d a : Fin 64) (b : Fin 32) (s : State) : Res :=
  .next (s.vffs g d a b Fmt.sub)
def execVfmulScalar (g : Guard) (_c : Bool) (d a : Fin 64) (b : Fin 32) (s : State) : Res :=
  .next (s.vffs g d a b Fmt.mul)
def execVfdivScalar (g : Guard) (_c : Bool) (d a : Fin 64) (b : Fin 32) (s : State) : Res :=
  .next (s.vffs g d a b Fmt.div)
def execVfminScalar (g : Guard) (_c : Bool) (d a : Fin 64) (b : Fin 32) (s : State) : Res :=
  .next (s.vffs g d a b (fun f _ => f.minmax false))
def execVfmaxScalar (g : Guard) (_c : Bool) (d a : Fin 64) (b : Fin 32) (s : State) : Res :=
  .next (s.vffs g d a b (fun f _ => f.minmax true))

def execVfmaScalar (g : Guard) (_c : Bool) (d a : Fin 64) (b : Fin 32) (s : State) : Res :=
  let k := s.core.run
  let y := (s.getS b).toNat % 2 ^ (8 * k.tyBytes)
  .next (s.elementwise ⟨[d, a], k.tyBytes, s.fpType, [a, d], [], [], [], none⟩ g (fun c r e =>
    let x := (typeFmt k.ty).fma k.arithRm (c.elem a k.tyBytes r e) y (c.elem d k.tyBytes r e)
    (c.putElem d k.tyBytes r e x.1, x.2)))

def execVfcmpEq (g : Guard) (_c : Bool) (d a b : Fin 64) (s : State) : Res := .next (s.vfcmp g d a b 0)
def execVfcmpLt (g : Guard) (_c : Bool) (d a b : Fin 64) (s : State) : Res := .next (s.vfcmp g d a b 1)
def execVfcmpLe (g : Guard) (_c : Bool) (d a b : Fin 64) (s : State) : Res := .next (s.vfcmp g d a b 2)
def execVfsgcopy (g : Guard) (_c : Bool) (d a b : Fin 64) (s : State) : Res :=
  .next (s.vfsign g d a b (fun _ y => y))
def execVfsgflip (g : Guard) (_c : Bool) (d a b : Fin 64) (s : State) : Res :=
  .next (s.vfsign g d a b (fun _ y => !y))
def execVfsgmix (g : Guard) (_c : Bool) (d a b : Fin 64) (s : State) : Res :=
  .next (s.vfsign g d a b (fun x y => x != y))

/-- The kind word of each element (R263). -/
def execVfkind (g : Guard) (_c : Bool) (d a : Fin 64) (s : State) : Res :=
  let k := s.core.run
  .next (s.elementwise ⟨[d, a], k.tyBytes, s.fpType, [a], [], [], [], none⟩ g (fun c r e =>
    (c.putElem d k.tyBytes r e ((typeFmt k.ty).kindWord (c.elem a k.tyBytes r e)), 0)))

def execVexp2 (g : Guard) (_c : Bool) (d a : Fin 64) (s : State) : Res := .next (s.vsf g d a sfExp2)
def execVlog2 (g : Guard) (_c : Bool) (d a : Fin 64) (s : State) : Res := .next (s.vsf g d a sfLog2)
def execVrsqrt (g : Guard) (_c : Bool) (d a : Fin 64) (s : State) : Res := .next (s.vsf g d a sfRsqrt)
def execVrcp (g : Guard) (_c : Bool) (d a : Fin 64) (s : State) : Res := .next (s.vsf g d a sfRcp)

end Sys2Proof.Machine
end

