-- ==== Sys2Proof/Machine/VConv.lean ====
section
/-! DEFINITION. Conversion and microscaling (spec/10_vector.md R266 to R269, spec/07_arithmetic.md R186, R187, R193 to
R196): major 0x1B. -/

namespace Sys2Proof.Machine

/-! ## Type conversions (R266) -/

/-- One element of type `f` converted to type `t`. -/
def convertElem (f t : Nat) (rm : Rm) (x : Nat) : Nat × Flags :=
  let wf := typeBytes f
  let wt := typeBytes t
  if typeInt f then
    let i := asType f wf x
    if typeInt t then
      if wf < wt then (wrap (8 * wt) i, 0)
      else
        let y := clampTo (typeSigned t) wt i
        (y, if asType t wt y = i then 0 else Flags.sat)
    else (typeFmt t).ofInt rm i
  else if typeInt t then (typeFmt f).toInt rm (8 * wt) (typeSigned t) x
  else (typeFmt f).toFmt (typeFmt t) rm x

/-- A conversion whose widths must be in the relation `rel`, source first. -/
def State.vconv (s : State) (g : Guard) (d a : Fin 64) (t : Nat) (rel : Nat → Nat → Bool) : State :=
  let k := s.core.run
  let ws := k.tyBytes
  let wd := typeBytes t
  let ok := k.anyType && t < 14 && rel ws wd && t != k.ty && s.serviceType k.ty && s.serviceType t
  s.elementwise { regs := [d, a], width := max ws wd, okType := ok, reads := [], more := [(a, 8 * ws)] } g
    (fun c r e =>
      let x := convertElem k.ty t k.convRm (c.elem a ws r e)
      (c.putElem d wd r e x.1, x.2))

/-! ## Block formats (R193 to R196) -/

/-- The E2M1 magnitudes in halves, by code. -/
def e2m1Halves : Nat → Nat
  | 0 => 0
  | 1 => 1
  | 2 => 2
  | 3 => 3
  | 4 => 4
  | 5 => 6
  | 6 => 8
  | _ => 12

/-- The code of a magnitude in halves that E2M1 holds. -/
def e2m1Code : Nat → Nat
  | 0 => 0
  | 1 => 1
  | 2 => 2
  | 3 => 3
  | 4 => 4
  | 6 => 5
  | 8 => 6
  | _ => 7

/-- The code of `± m × 2 ^ e`, already divided by the scale, and whether it was beyond the element maximum; `mx4` says
MXFP4. Ties go to even. -/
def mxCode (mx4 neg : Bool) (m : Nat) (e : Int) : Nat × Bool :=
  if mx4 then
    let msb : Int := e + (Nat.log2 m : Nat)
    let q : Int := max msb 0 - 1
    let h := (roundTo .rne neg m e q false).1 * 2 ^ (q + 1).toNat
    ((if 12 < h then 7 else e2m1Code h) + 8 * bit01 neg, decide (12 < h))
  else
    let n := (roundTo .rne neg m (e + 6) 0 false).1
    (wrap 8 (if neg then -(min n 127 : Nat) else (min n 127 : Nat)), decide (127 < n))

/-- A quantised element under scale X: its code and, when it was beyond the maximum, a NaN or infinite, the flags. -/
def quantElem (mx4 : Bool) (f : Fmt) (scale x : Nat) : Nat × Flags :=
  if scale = 0xFF then (0, Flags.iv)
  else match f.decode x with
    | .nan _ => (0, Flags.iv)
    | .inf neg => (if mx4 then 7 + 8 * bit01 neg else if neg then 129 else 127, Flags.sat ||| Flags.iv)
    | .fin neg m e =>
      let r := mxCode mx4 neg m (e + 127 - (scale : Int))
      (r.1, if r.2 then Flags.sat else 0)

/-- floor(log2) of a finite value's magnitude; none for zero. -/
def magLog (f : Fmt) (x : Nat) : Option Int :=
  match f.decode x with
  | .fin _ m e => if m = 0 then none else some (e + (Nat.log2 m : Nat))
  | _ => none

/-- Whether a code is a NaN or an infinity. -/
def notFinite (f : Fmt) (x : Nat) : Bool :=
  match f.decode x with
  | .fin _ _ _ => false
  | _ => true

/-- The scale that R195 computes for finite values, none when all of them are zero. -/
def blockScale (mx4 : Bool) (f : Fmt) (xs : List Nat) : Option Nat :=
  (xs.filterMap (magLog f)).foldl (fun (o : Option Int) l => match o with
    | none => some l
    | some k => some (max k l)) none |>.map (fun l =>
      (min 254 (max 0 (l - (if mx4 then 2 else 0) + 127))).toNat)

/-- The code of element (r, e): a byte, or a nibble of a byte (R193). -/
def Coro.code (c : Coro) (mx4 : Bool) (v : Fin 64) (r e : Nat) : Nat :=
  if mx4 then c.elem v 1 r (e / 2) / 16 ^ (e % 2) % 16 else c.elem v 1 r e
def Coro.putCode (c : Coro) (mx4 : Bool) (v : Fin 64) (r e x : Nat) : Coro :=
  if mx4 then
    let b := c.elem v 1 r (e / 2)
    c.putElem v 1 r (e / 2) (setBits b (4 * (e % 2) + 3) (4 * (e % 2)) x)
  else c.putElem v 1 r e x

/-- Elements of one block, active, of one row. -/
def blocksOf (ps : List (Nat × Nat)) : List (List (Nat × Nat)) :=
  ps.splitBy (fun p q => p.1 == q.1 && p.2 / 32 == q.2 / 32)

/-- Codes of a block's elements under scale `x`, the guard's bit and the flags gathered. -/
def Coro.quantBlock (mx4 : Bool) (f : Fmt) (w : Nat) (d a : Fin 64) (x : Nat) (ps : List (Nat × Nat))
    (s : Coro × Bool) : Coro × Bool :=
  ps.foldl (fun s p =>
    let q := quantElem mx4 f x (s.1.elem a w p.1 p.2)
    ((s.1.putCode mx4 d p.1 p.2 q.1).orFlags q.2, s.2 || q.2 != 0)) s

/-- A block with a computed scale (R195): the clamp sets neither SAT nor the guard. -/
def Coro.quantOwn (mx4 : Bool) (f : Fmt) (w : Nat) (d a b : Fin 64) (ps : List (Nat × Nat)) (s : Coro × Bool) :
    Coro × Bool :=
  let p0 := ps.headD (0, 0)
  let put (c : Coro) (x : Nat) : Coro := c.putElem b 1 p0.1 (p0.2 / 32) x
  let zero (c : Coro) : Coro := ps.foldl (fun c p => c.putCode mx4 d p.1 p.2 0) c
  let xs := ps.map (fun p => s.1.elem a w p.1 p.2)
  if xs.any (notFinite f) then ((zero (put s.1 0xFF)).orFlags Flags.iv, true)
  else match blockScale mx4 f xs with
    | none => (zero (put s.1 0), s.2)
    | some x =>
      (ps.foldl (fun c p => c.putCode mx4 d p.1 p.2 (quantElem mx4 f x (s.1.elem a w p.1 p.2)).1) (put s.1 x), s.2)

/-- The guard g6 at the end of a quantise form, or at its stop (R267): written, or ORed by one that issued with its
VSTART register nonzero. DESIGN CHOICE (log 89): R267 also says that an empty tile or mask writes g6 false; one that issued with
its VSTART register nonzero ORs then too. -/
def Coro.putGuard (c0 c : Coro) (guard : Bool) : Coro :=
  c.setG 6 (guard || (c0.vs != ⟨0, 0⟩ && c0.getG 6))

/-- A quantise form: `block` handles one block's active elements. -/
def State.vquantOp (s : State) (g : Guard) (op : VOp) (block : List (Nat × Nat) → Coro × Bool → Coro × Bool) : State :=
  s.sweep { op with masks := [g.idx] } (fun done ps c =>
    let act := ps.filter (fun p => c.active g p.1 p.2)
    let r := (blocksOf act).foldl (fun x b => block b x) (c, false)
    if done || !ps.isEmpty then Coro.putGuard c r.1 r.2 else r.1)

/-- Types that the block forms accept (Table 2). -/
def Coro.mxType (c : Coro) : Bool := 8 ≤ c.ty && c.ty < 11

/-- The same; reduced service has no block forms (R413). -/
def State.mxType (s : State) : Bool := s.core.run.mxType && !s.sys.reduced

/-- A given scale (R196, R268): from byte j of the element's row of vb, or of row 0. -/
def State.vquantGiven (s : State) (g : Guard) (d a : Fin 64) (mx4 : Bool) (b : Fin 64) (page : Bool) : State :=
  let k := s.core.run
  s.vquantOp g { regs := [d, a, b], width := k.tyBytes, okType := s.mxType, reads := [a], scales := [(b, page)] }
    (fun ps x =>
      let p0 := ps.headD (0, 0)
      Coro.quantBlock mx4 (typeFmt k.ty) k.tyBytes d a (x.1.elem b 1 (if page then 0 else p0.1) (p0.2 / 32)) ps x)

/-- The value of a code under scale X in type `t` (R193, R194). In FP32 and BF16 every value that the format's range takes
in is exact, and no flag is set (R383); one beyond the range is the overflow result of R186 (log 89). FP16 is rounded with FRM,
and with FRM = 4 as a conversion is (R189, log 89). -/
def dequantElem (mx4 : Bool) (t : Nat) (rm : Rm) (x code : Nat) : Nat × Flags :=
  let f := typeFmt t
  if x = 0xFF then (f.nan, 0)
  else
    let i := toSigned 8 code
    let r := if mx4 then f.round rm (bitAt code 3) (e2m1Halves (code % 8)) ((x : Int) - 128) false
      else f.round rm (decide (i < 0)) i.natAbs ((x : Int) - 133) false
    (r.1, if t = 8 then r.2 else 0)

/-! ## Meanings -/

def execVcvt (g : Guard) (_c : Bool) (d a : Fin 64) (t : Fin 16) (s : State) : Res :=
  .next (s.vconv g d a t.val (fun ws wd => wd == ws))
def execVcvtW (g : Guard) (_c : Bool) (d a : Fin 64) (t : Fin 16) (s : State) : Res :=
  .next (s.vconv g d a t.val (fun ws wd => decide (ws < wd)))
def execVcvtN (g : Guard) (_c : Bool) (d a : Fin 64) (t : Fin 16) (s : State) : Res :=
  .next (s.vconv g d a t.val (fun ws wd => decide (wd < ws)))

/-- `vquant` computes each block's scale and writes it to vb (R267). The vb field of VVQ has 5 bits. -/
def execVquant (g : Guard) (_c : Bool) (d a : Fin 64) (f : Bool) (b : Fin 32) (s : State) : Res :=
  let k := s.core.run
  let vb : Fin 64 := b.castLE (by decide)
  .next (s.vquantOp g { regs := [d, a, vb], width := k.tyBytes, okType := s.mxType, reads := [a] }
    (Coro.quantOwn f (typeFmt k.ty) k.tyBytes d a vb))

def execVquantS (g : Guard) (_c : Bool) (d a : Fin 64) (f : Bool) (b : Fin 32) (s : State) : Res :=
  .next (s.vquantGiven g d a f (b.castLE (by decide)) false)

def execVquantPg (g : Guard) (_c : Bool) (d a : Fin 64) (f : Bool) (b : Fin 32) (s : State) : Res :=
  .next (s.vquantGiven g d a f (b.castLE (by decide)) true)

/-- DESIGN CHOICE (log 89): with FRM = 4 it rounds to FP16 as a conversion does, to nearest and away on ties (R189, R269). -/
def execVdequant (g : Guard) (_c : Bool) (d a : Fin 64) (f : Bool) (b : Fin 32) (s : State) : Res :=
  let k := s.core.run
  let vb : Fin 64 := b.castLE (by decide)
  .next (s.elementwise
    { regs := [d, a, vb], width := k.tyBytes, okType := s.mxType, reads := [], more := [(a, if f then 4 else 8)],
      scales := [(vb, false)] } g
    (fun c r e =>
      let x := dequantElem f k.ty k.convRm (c.elem vb 1 r (e / 32)) (c.code f a r e)
      (c.putElem d k.tyBytes r e x.1, x.2)))

end Sys2Proof.Machine
end

