-- ==== Sys2Proof/Machine/VMem.lean ====
section
/-! DEFINITION. Vector loads, stores, atomics and waits (spec/11_memory_sync_instr.md R280 to R287, R290 to R292, R418):
majors 0x25, 0x26, 0x2B and major 0x2C minor 0. -/

namespace Sys2Proof.Machine

/-! ## Enumeration (R44, R281, R282) -/

/-- Where the elements of an access lie (Table 3 of spec/11_memory_sync_instr.md). -/
inductive AddrForm where
  | packed (a : Fin 32)
  | strided (a : Fin 32)
  | tile (a : Fin 32)
  | indexed (a : Fin 32) (b : Fin 64)
  | shape (v : Fin 64)
  | each (v : Fin 64)                   -- 64-bit addresses (R290, R292)
  deriving DecidableEq, Repr

/-- Word `i` of a shape record (Table 4). -/
def Coro.shapeWord (c : Coro) (v : Fin 64) (i : Nat) : Nat := VReg.get c.v[v] (8 * i) 8

/-- Whether a form's shape record breaks R282. -/
def Coro.shapeBad (c : Coro) : AddrForm → Bool
  | .shape v => c.shapeWord v 7 != 0 || 2 ^ 32 < c.shapeWord v 1 || 2 ^ 32 < c.shapeWord v 2 || 2 ^ 32 < c.shapeWord v 3
  | _ => false

/-- Address of element (r, e) of width `w`; none when a shape record does not enumerate it. -/
def Coro.elemAddr (c : Coro) (f : AddrForm) (w r e : Nat) : Option Word :=
  match f with
  | .packed a => some (c.getS a + w64 ((r * c.vl.toNat + e) * w))
  | .strided a => some (c.getS a + w64 r * c.rstride + w64 e * c.vstride)
  | .tile a => some (c.getS a + w64 r * c.rstride + w64 (e * w))
  | .indexed a b => some (c.getS a + w64 r * c.rstride + w64 (c.elem b 4 r e))
  | .each v => some (w64 (c.elem v 8 r e))
  | .shape v =>
    let e1 := c.shapeWord v 2
    if e < c.shapeWord v 1 && r < e1 * c.shapeWord v 3 then
      some (w64 (c.shapeWord v 0) + w64 e * w64 (c.shapeWord v 4) + w64 (r % e1) * w64 (c.shapeWord v 5) +
        w64 (r / e1) * w64 (c.shapeWord v 6))
    else none

/-- An enumerated element. -/
structure VEl where
  row  : Nat
  elem : Nat
  addr : Word
  deriving DecidableEq, Repr

/-- The active elements from VSTARTn on, with their addresses, in sweep order. -/
def Coro.enumerate (c : Coro) (g : Guard) (f : AddrForm) (w : Nat) : List VEl :=
  (c.todo.filter (fun p => c.active g p.1 p.2)).filterMap (fun p =>
    (c.elemAddr f w p.1 p.2).map (fun a => ⟨p.1, p.2, a⟩))

/-- A translated element. -/
abbrev VPart := VEl × List (Xlat × Nat)

/-- The result of the run-ahead pipeline (R45): the translated elements before the first that fails, and that one. -/
def State.runAhead (s : State) (acc : Access) (w : Nat) : List VEl → List VPart × Option (VEl × Cause)
  | [] => ([], none)
  | x :: xs =>
    match s.translateAccess s.me acc false x.addr w with
    | .error c => ([], some (x, c))
    | .ok ps =>
      let r := State.runAhead s acc w xs
      ((x, ps) :: r.1, r.2)

/-- The index of an element in sweep order. -/
def State.indexOf (s : State) (x : VEl) : Nat := s.core.run.sweepIndex x.row x.elem

/-- A trap at an element: VSTARTn holds the faulting element (R361). -/
def State.failElem (s : State) (acc : Access) (x : VEl) (c : Cause) (w : Nat) : State :=
  (s.modRun (·.setVs x.row x.elem)).failAccess acc c (s.indexOf x) x.addr w

/-- Whether an element lies before the group at which an uncorrectable operand stops the instruction. -/
def EccStop.after (x : EccStop) (y : VEl) : Bool := placeBefore (y.row, y.elem) (x.row, x.first)

/-- The elements before such a stop, if there is one. -/
def VEl.upTo (stop : Option EccStop) (xs : List VEl) : List VEl :=
  match stop with
  | none => xs
  | some x => xs.filter x.after

/-- The translated elements before the place at which the instruction stops, and before a bad operand. -/
def VPart.within (cut : Option (Nat × Nat)) (stop : Option EccStop) (ps : List VPart) : List VPart :=
  ps.filter (fun p => beforeCut cut (p.1.row, p.1.elem) && (match stop with
    | none => true
    | some x => x.after p.1))

/-- An instruction of several elements waits; one that is to stop for a pre-emption, and of which nothing has been sent, stops
where it stands (R372). -/
def State.waitOrStop (s s1 : State) : State :=
  match s.core.cut with
  | none => s1
  | some (_, why) => if s1.core.run.inMidst then s1 else s.stopV (s.core.run.vs.row.toNat, s.core.run.vs.elem.toNat) why

/-- Whether an instruction that stops at a place, if any, has nothing left to do. -/
def State.endsAt (s : State) (cut : Option (Nat × Nat)) : Bool :=
  match cut with
  | none => true
  | some p => decide (s.core.run.endRow (s.core.vWords.getD s.core.run.pos.val 0) ≤ p.1)

/-- The last of some elements of which something has been sent, when `n` requests have been: `count` gives those of each. -/
def lastSent (count : VPart → Nat) (n : Nat) (ps : List VPart) : Option VEl :=
  (ps.foldl (fun (x : Nat × Option VEl) p =>
    if count p = 0 || x.1 = 0 then x else (x.1 - min x.1 (count p), some p.1)) (n, none)).2

/-- The place of the first group of elements of `w` bytes, or with w = 0 of the first row, that follows that of an element. -/
def Coro.afterGroup (c : Coro) (w : Nat) (x : VEl) : Nat × Nat :=
  let per := 128 / max 1 w
  let e := (x.elem / per + 1) * per
  if w = 0 || c.vl.toNat ≤ e then (x.row + 1, 0) else (x.row, e)

/-- Where an access of some elements stops for a pre-emption: past every group of which something has been sent (R372). -/
def State.cutFor (s : State) (w : Nat) (count : VPart → Nat) (ps : List VPart) : Option (Nat × Nat) :=
  let f := s.core.run.flightOr []
  (s.cutPlace w).map (fun p => match lastSent count (f.done + f.asked) ps with
    | none => p
    | some x =>
      let q := s.core.run.afterGroup w x
      if placeBefore p q then q else p)

/-- The pages that some elements' translations use. -/
def State.elPages (s : State) (acc : Access) (ps : List VPart) : List TlbEntry :=
  (ps.flatMap (fun p => s.pagesOf acc p.1.addr ((p.2.map (·.2)).sum))).dedup

/-- The elements' translations, kept from issue while they wait for other cores' message slots (R180); `pend` is what their
data are written into when a save finds them waiting. -/
def State.keepXlats (s : State) (acc : Access) (far : Bool) (pend : List Pending) (ps : List VPart) : State :=
  if !far || s.core.run.flight.isSome then s
  else s.setFlight { s.core.run.flightOr pend with xlats := ps.map (·.2), pages := s.elPages acc ps }

/-- The elements of a store or atomic translated, or as they were at its issue. -/
def State.translated (s : State) (acc : Access) (w : Nat) (els : List VEl) : List VPart × Option (VEl × Cause) :=
  match s.core.run.flight with
  | none => s.runAhead acc w els
  | some f => if f.xlats.isEmpty then s.runAhead acc w els else (els.zip f.xlats, none)

/-! ## Loads (R283) -/

/-- A part of an element: `at_` bytes into it. -/
structure ElPart where
  el   : VEl
  at_  : Nat
  part : Xlat × Nat

/-- The parts of some elements, in order. -/
def partsFrom (x : VEl) (at_ : Nat) : List (Xlat × Nat) → List ElPart
  | [] => []
  | p :: ps => ⟨x, at_, p⟩ :: partsFrom x (at_ + p.2) ps

def VPart.parts (ps : List VPart) : List ElPart := ps.flatMap (fun p => partsFrom p.1 0 p.2)

/-- What reading a part gave: its bytes as a number, or none when they have not come; they then come for the request of a
message slot that `slot` names, or the part is still to be performed. -/
structure LoadPart where
  p     : ElPart
  value : Option Nat
  slot  : Option SlotKey

/-- The parts read in sweep order up to the first that fails, with the element that it belongs to; `i` is the number of the
next part that another core's message slot is asked for, of which flight `f` says how far they have come. -/
def State.loadParts (s : State) (shown : List (Nat × Byte)) (f : Flight) : Nat → List ElPart →
    List LoadPart × Option (VEl × Cause) × State
  | _, [] => ([], none, s)
  | i, p :: ps =>
    let far := (s.farParts [p.part]).head?
    let late := far.isSome && f.done ≤ i
    let slot := if late && i < f.done + f.asked then far.map (fun q => SlotKey.mk f.id q.1 q.2.1 q.2.2) else none
    let k := if far.isSome then i + 1 else i
    let go (x : LoadPart) (t : State) : List LoadPart × Option (VEl × Cause) × State :=
      let r := State.loadParts t shown f k ps
      (x :: r.1, r.2)
    if late then go ⟨p, none, slot⟩ s
    else match s.readOver s.issuer shown [p.part] with
      | .error .wait => go ⟨p, none, none⟩ s
      | .error (.cause c s1) => ([], some (p.el, c), s1)
      | .ok (bs, s1) => go ⟨p, some (leNat bs), none⟩ s1

/-- What some elements ask of other cores' message slots. -/
def State.farLoads (s : State) (ps : List VPart) : List SlotAccess := ps.flatMap (fun p => s.farReads none p.2)

/-- How many elements one element asks for there. -/
def State.farCount (s : State) (p : VPart) : Nat := (s.farParts p.2).length

/-- What a part of an element of register `d`, of `w` bytes, is written into when it has not come, and how it is performed
(R373). -/
def State.elemPending (s : State) (acc : Access) (d : Fin 64) (w acq : Nat) (op : Option (AtomOp × Nat × Nat))
    (insn : BitVec 32) (slot : Option SlotKey) (p : ElPart) : Pending :=
  { dst := .elem d (s.core.run.rowByte p.el.row + p.el.elem * w + p.at_) p.part.2 p.el.row p.el.elem
    addr := p.el.addr
    part := if slot.isSome then none else some p.part
    slot := slot
    op := op
    pages := s.pagesOf acc (p.el.addr + w64 p.at_) p.part.2
    acq := acq
    coro := s.issuer.coro
    asid := s.issuer.asid
    eslot := s.issuer.slot
    index := s.indexOf p.el
    insn := insn }

/-- The values that have come written to register `d`. -/
def Coro.putParts (c : Coro) (d : Fin 64) (w : Nat) (ps : List LoadPart) : Coro :=
  ps.foldl (fun c x => match x.value with
    | none => c
    | some v => { c with v := c.v.set d (VReg.put c.v[d] (c.rowByte x.p.el.row + x.p.el.elem * w + x.p.at_) x.p.part.2 v) }) c

/-- What has come of a load is written, the rest is pending, and the acquire follows what comes last (R116, R372, R373). -/
def State.landParts (s : State) (d : Fin 64) (w acq : Nat) (ps : List LoadPart) : State :=
  let pend := (ps.filter (·.value.isNone)).map (fun x => s.elemPending .read d w acq none 0 x.slot x.p)
  let s1 := (s.modRun (fun c => (c.putParts d w ps).addPending pend)).askPending s.core.id pend
  if pend.isEmpty then s1.acquire acq else s1

/-- VL and RC trimmed at element `x` when the first enumerated element lies in row `fr` (R283). -/
def Coro.trimAt (c : Coro) (fr : Nat) (x : VEl) : Coro :=
  if x.row = fr then { c with vl := BitVec.ofNat 14 x.elem, rc := BitVec.ofNat 8 (fr + 1) }
  else { c with rc := BitVec.ofNat 8 x.row }

/-- Whether a trim at `x` keeps what has been read of another element. -/
def VEl.keeps (x : VEl) (fr : Nat) (y : VEl) : Bool :=
  if x.row = fr then placeBefore (y.row, y.elem) (x.row, x.elem) else decide (y.row < x.row)

/-- What a load finds in its way. -/
inductive LoadEnd where
  | none
  | fails (x : VEl) (c : Cause)
  | waits (x : VEl)                     -- a `.wp` load must wait for this element's bytes

/-- The elements of a `.wp` load that the channel lets pass, up to the first that it does not (R119). -/
def Chan.gateAll (ch : Chan) (w : Nat) : List VPart → List VPart × LoadEnd
  | [] => ([], .none)
  | x :: xs =>
    match ch.gate x.1.addr.toNat w with
    | .wait => ([], .waits x.1)
    | .range => ([], .fails x.1 .wpOutOfRange)
    | _ =>
      let r := Chan.gateAll ch w xs
      (x :: r.1, r.2)

/-- What a vector load or store checks at issue: type 15 is refused, and an index register is read in elements of 4
bytes. -/
def Coro.memOp (c : Coro) (g : Guard) (d : Fin 64) (f : AddrForm) (store : Bool) : VOp :=
  let w := c.tyBytes
  let rd : List (Fin 64 × Nat) := if store then [(d, 8 * w)] else []
  match f with
  | .indexed _ b =>
    { regs := [d, b], width := max w 4, okType := c.ty < 15, reads := [], masks := [g.idx], more := (b, 32) :: rd }
  | .shape v =>
    { regs := [d, v], width := w, okType := c.ty < 15, reads := [], masks := [g.idx], more := rd, record := some v }
  | _ => { regs := [d], width := w, okType := c.ty < 15, reads := [], masks := [g.idx], more := rd }

/-- Whether an uncorrectable bit lies in the shape record, which then raises DATA_VREG before it is judged (R360). -/
def Coro.recordLost (c : Coro) : AddrForm → Bool
  | .shape v => c.ecc.any (fun m => match m with
    | .vreg u b _ => u == v && b < 64
    | _ => false)
  | _ => false

/-- The place, no earlier than that it resumed from, at which the group of an element begins. -/
def Coro.groupOf (c : Coro) (w : Nat) (x : VEl) : Nat × Nat :=
  let per := 128 / max 1 w
  let p := (x.row, x.elem / per * per)
  let from_ := (c.vs.row.toNat, c.vs.elem.toNat)
  if placeBefore p from_ then from_ else p

/-- The end of a load of which `ps` has been read, up to a failing element, or a bad operand, or the place where it stops; its
first enumerated element is `first` (R283, R285, R378). -/
def State.endLoad (s : State) (d : Fin 64) (w acq : Nat) (first : Option VEl) (ps : List LoadPart)
    (fail : Option (VEl × Cause)) (stop : Option EccStop) (cut : Option (Nat × Nat)) : State :=
  match fail with
  | some (y, c) =>
    let fr := (first.getD y).row
    if first.getD y = y then s.failElem .read y c w
    else ((s.landParts d w acq (ps.filter (fun x => y.keeps fr x.p.el))).modRun (·.trimAt fr y)).finishV
  | none =>
    let s1 := s.landParts d w (if stop.isNone && s.endsAt cut then acq else 0) ps
    match stop with
    | some x => s1.raiseVreg x
    | none => s1.finishAt cut

/-- The load of some elements. It waits for all of them, but for one that is to stop for a pre-emption: what it has asked for
and not received is pending then (R372). -/
def State.loadEls (s : State) (d : Fin 64) (w acq : Nat) (ps : List VPart) (fail : Option (VEl × Cause))
    (stop : Option EccStop) (cut : Option (Nat × Nat)) : State :=
  let stopping := s.core.cut.isSome
  match (if stopping then none else s.ask [] (s.farLoads ps)) with
  | some s1 => s1
  | none =>
    let r := s.loadParts s.core.run.heldBytes (s.core.run.flightOr []) 0 (VPart.parts ps)
    if !stopping && r.1.any (·.value.isNone) then s
    else r.2.2.endLoad d w acq (ps.head?.map (·.1)) r.1 (r.2.1 <|> fail) stop cut

/-- The load itself, after its issue checks; `bad` is where an operand of the addresses is uncorrectable. -/
def State.vloadBody (s : State) (op : VOp) (bad : Option EccStop) (g : Guard) (d : Fin 64) (f : AddrForm)
    (ch : Option (Fin 8)) (acq : Nat) : State :=
  let c := s.core.run
  let w := c.tyBytes
  let r := s.runAhead .read w (VEl.upTo bad (c.enumerate g f w))
  let cut := s.cutFor op.width s.farCount r.1
  let ps := VPart.within cut none r.1
  let fail := r.2.filter (fun y => beforeCut cut (y.1.row, y.1.elem))
  let stop := bad.filter (·.isBefore cut)
  match ch with
  | none => s.loadEls d w acq ps fail stop cut
  | some h =>
    let q := (s.core.chans[h]).gateAll w ps
    match q.2 with
    | .none => s.loadEls d w acq q.1 fail stop cut
    | .fails x e => s.loadEls d w acq q.1 (some (x, e)) none cut
    | .waits x =>
      if s.core.cut.isNone then s
      else
        let p := c.groupOf op.width x
        s.loadEls d w acq (VPart.within (some p) none q.1) none none (some p)

def State.vload (s : State) (g : Guard) (d : Fin 64) (f : AddrForm) (ch : Option (Fin 8)) (acq : Nat) : State :=
  let op := s.core.run.memOp g d f false
  s.vIssue op (fun s =>
    if s.core.run.shapeBad f && !s.core.run.recordLost f then s.raise .vectorShape
    else s.vloadBody op (s.core.run.eccStop op false) g d f ch acq)

/-! ## Stores (R284, R287, R418) -/

/-- The bytes of an element of register `d`. -/
def Coro.storeBytes (c : Coro) (d : Fin 64) (w : Nat) (x : VEl) : List Byte := leBytes w (c.elem d w x.row x.elem)

/-- Elements performed in sweep order; the first that fails at its destination is deferred (R418). None where one
must wait. -/
def State.storeEach (s : State) (data : VEl → List Byte) (idx : VEl → Nat) : List VPart → Option State
  | [] => some s
  | (x, ps) :: xs =>
    match s.writeParts s.issuer (data x) ps with
    | .error _ => none
    | .ok (none, s1) => State.storeEach s1 data idx xs
    | .ok (some e, s1) =>
      State.storeEach (s1.deferFailure ⟨e, idx x, x.addr, s.core.insn, s.core.run.member, true, none⟩) data idx xs

/-- Strip entries that some elements take: one per element group (R287). -/
def stripEntries (w : Nat) (ps : List VPart) : Nat :=
  (ps.foldr (fun p (gs : List (Nat × Nat)) =>
    let g := (p.1.row, p.1.elem * w / 128)
    if gs.contains g then gs else g :: gs) []).length

/-- The elements held by the open strip, which take `n` entries. -/
def State.hold (s : State) (n : Nat) (data : VEl → List Byte) (idx : VEl → Nat) (ps : List VPart) (st : Strip) : Strip :=
  { st with
    entries := st.entries + n
    held := st.held ++ ps.map (fun p =>
      ⟨p.1.addr, data p.1, p.2, s.core.insn, idx p.1, s.core.run.member, s.elPages .write [p]⟩) }

/-- What some elements bring to other cores' message slots. -/
def State.farWrites (s : State) (data : VEl → List Byte) (idx : VEl → Nat) (ps : List VPart) : List (Nat × SlotStore) :=
  ps.flatMap (fun p => s.farStores p.1.addr (idx p.1) s.core.insn s.core.run.member (data p.1) p.2)

/-- Checked elements performed at their places, those of other cores' scratchpads posted there first: the state after it, or
the one in which it waits. -/
def State.performEls (s : State) (data : VEl → List Byte) (idx : VEl → Nat) (ps : List VPart) : Done Unit :=
  let far := s.farWrites data idx ps
  match (s.keepXlats .write (!far.isEmpty) [] ps).postFar far with
  | (s1, false) => .wait s1
  | (s1, true) => match (s1.cureWhole s1.issuer (ps.map (fun p => (data p.1, p.2)))).storeEach data idx ps with
    | none => .wait s1
    | some s2 => .ok () s2

/-- The elements of a checked store performed, or held, where they take `n` entries. -/
def State.performStore (s : State) (n : Nat) (data : VEl → List Byte) (idx : VEl → Nat) (ps : List VPart) : Done Unit :=
  match s.core.run.strip with
  | some st => .ok () (s.modRun (fun k => { k with strip := some (s.hold n data idx ps st) }))
  | none => s.performEls data idx ps

/-- Whether a strip has no room for `n` more entries. -/
def Coro.stripFull (c : Coro) (n : Nat) : Bool :=
  match c.strip with
  | some st => 256 < st.entries + n
  | none => false

/-- Some elements of a store performed, or held, after its release, and then its end: at a bad operand, at the place where it
stops, or whole. -/
def State.storeEls (s : State) (rel : Option Nat) (n : Nat) (data : VEl → List Byte) (idx : VEl → Nat) (ps : List VPart)
    (fin_ : State → State) : State :=
  match (if s.core.run.inMidst then some s else match rel with
    | none => some s
    | some k => s.release k) with
  | none => s.waitOrStop s
  | some s0 => match s0.performStore n data idx ps with
    | .wait s1 => s.waitOrStop s1
    | .cause _ _ => s
    | .ok () s1 => fin_ (s1.performed rel)

def State.vstoreBody (s : State) (op : VOp) (bad : Option EccStop) (g : Guard) (d : Fin 64) (f : AddrForm)
    (rel : Option Nat) : State :=
  let c := s.core.run
  let w := c.tyBytes
  let r := s.translated .write w (VEl.upTo bad (c.enumerate g f w))
  let cut := s.cutFor op.width (fun p => (s.farWrites (c.storeBytes d w) s.indexOf [p]).length) r.1
  match r.2 with
  | some (x, e) => s.failElem .write x e w
  | none =>
    if c.stripFull (stripEntries w r.1) then s.raise .stripOverflow
    else
      let stop := (c.eccStop op false).filter (·.isBefore cut)
      let ps := VPart.within cut stop r.1
      s.storeEls rel (stripEntries w ps) (c.storeBytes d w) s.indexOf ps (fun s => match stop with
        | none => s.finishAt cut
        | some x => s.raiseVreg x)

/-- A store with an ordering code and a scope; an open strip refuses a release at `.core` or wider (R127). -/
def State.vstore (s : State) (g : Guard) (d : Fin 64) (f : AddrForm) (o : Fin 4) (sc : Fin 8) : State :=
  let op := s.core.run.memOp g d f true
  s.vIssue op (fun s =>
    if wideRelease o sc && s.core.run.strip.isSome then s.raise .stripSync
    else if s.core.run.shapeBad f && !s.core.run.recordLost f then s.raise .vectorShape
    else s.vstoreBody op (s.core.run.eccStop (s.core.run.memOp g d f false) false) g d f (relOf o sc))

/-! ## Atomics (R290, R291) -/

/-- Types of `vatom` and `vwait`. -/
def Coro.atomType (c : Coro) : Bool := c.ty == 2 || c.ty == 3 || c.ty == 6 || c.ty == 7

/-- Minimum and maximum compare as the type says. -/
def vatomOp (o : AtomOp) (signed : Bool) : AtomOp :=
  match o with
  | .min => if signed then .min else .minu
  | .max => if signed then .max else .maxu
  | _ => o

/-- The operation of one element, with its operands. -/
def Coro.vatomArgs (c : Coro) (o : AtomOp) (d e : Fin 64) (w : Nat) (x : VEl) : AtomOp × Nat × Nat :=
  (vatomOp o (typeSigned c.ty), c.elem e w x.row x.elem, c.elem d w x.row x.elem)

/-- The element applied: its old value, its cause, or it waits. -/
def State.vatomElem (s : State) (c : Coro) (o : AtomOp) (d e : Fin 64) (w : Nat) (p : VPart) : Done Nat :=
  let q := c.vatomArgs o d e w p.1
  s.atomicDo s.issuer ((p.2.map (·.1)).headD { target := .zero }) w (fun old => atomNew q.1 w old q.2.1 q.2.2)

/-- Elements applied in sweep order: the state, and those that failed with their causes. -/
def State.vatomEach (s : State) (c : Coro) (o : AtomOp) (d e : Fin 64) (w : Nat) :
    List VPart → Option (List (VEl × Cause) × State)
  | [] => some ([], s)
  | p :: ps =>
    match s.vatomElem c o d e w p with
    | .wait _ => none
    | .cause x s1 => (State.vatomEach s1 c o d e w ps).map (fun r => ((p.1, x) :: r.1, r.2))
    | .ok old s1 =>
      State.vatomEach (s1.modRun (·.putElem d w p.1.row p.1.elem old)) c o d e w ps

/-- What the elements ask of other cores' message slots, those of one core together: each core's are applied there as one
group (R291). -/
def State.farAtoms (s : State) (c : Coro) (o : AtomOp) (d e : Fin 64) (w : Nat) (ps : List VPart) : List SlotAccess :=
  let els := ps.flatMap (fun p => s.farReads (some (c.vatomArgs o d e w p.1)) p.2)
  (els.map (·.core)).dedup.flatMap (fun k => els.filter (·.core == k))

/-- The elements' old values as they are pending when a save finds the `vatom` waiting (R372, R373). -/
def State.atomPending (s : State) (c : Coro) (o : AtomOp) (d e : Fin 64) (w acq : Nat) (ps : List VPart) : List Pending :=
  (VPart.parts ps).map (fun p => s.elemPending .atomic d w acq (some (c.vatomArgs o d e w p.el)) s.core.insn none p)

/-- The active element whose address is misaligned first. -/
def misaligned (w : Nat) (xs : List VEl) : Option VEl := xs.find? (fun x => x.addr.toNat % w != 0)

/-- ATOMIC_MISALIGNED at an element, which VSTARTn holds (R290, R361). -/
def State.failMisaligned (s : State) (x : VEl) : State :=
  (s.modRun (·.setVs x.row x.elem)).raiseAt .atomicMisaligned (s.indexOf x) x.addr

/-- The end of a `vatom` whose elements have all replied: at a bad operand, with the first failing element's cause, or
whole. -/
def State.vatomEnd (s : State) (acq w : Nat) (stop : Option EccStop) (fails : List (VEl × Cause)) : State :=
  match stop, fails with
  | some x, _ => s.raiseVreg x
  | none, [] => (s.acquire acq).finishV
  | none, (x, z) :: more =>
    ((s.acquire acq).finishV).raiseTrap { cause := z, index := s.indexOf x, addr := s.dataAddr .atomic z x.addr w, here := true,
                                          aux := some (more.length + 1) }

def State.vatomBody (s : State) (g : Guard) (op : VOp) (o : AtomOp) (d e a : Fin 64) (rel : Option Nat) (acq : Nat) : State :=
  let c := s.core.run
  let w := c.tyBytes
  let els := VEl.upTo (c.eccStop { op with more := [] } false) (c.enumerate g (.each a) w)
  match misaligned w els with
  | some x => s.failMisaligned x
  | none =>
    let r := s.translated .atomic w els
    match r.2 with
    | some (x, z) => s.failElem .atomic x z w
    | none =>
      let stop := c.eccStop op false
      let ps := VPart.within none stop r.1
      let far := s.farAtoms c o d e w ps
      s.released (if s.core.run.flight.isSome then none else rel) (fun s0 =>
        -- with a bad operand it is not begun until it can stop there
        let pend := if stop.isSome then [] else s0.atomPending c o d e w acq ps
        let s := s0.keepXlats .atomic true pend r.1
        match s.ask pend far with
        | some s1 => s1
        | none => match s.vatomEach c o d e w ps with
          | none => s
          | some (fails, s1) => s1.vatomEnd acq w stop fails)

/-- `vatom` (R290): `d` receives the old values, `e` holds the operands or the expected values. -/
def State.vatom (s : State) (g : Guard) (o : AtomOp) (d e a : Fin 64) (sc : Fin 8) (ord : Fin 4) : State :=
  let c := s.core.run
  let op : VOp :=
    { regs := if d = e then [d, a] else [d, a, e], width := 8, okType := c.atomType, reads := [a], masks := [g.idx],
      more := if d = e then [(d, 8 * c.tyBytes)] else [(d, 8 * c.tyBytes), (e, 8 * c.tyBytes)] }
  s.vIssue op (fun s => s.noStrip (fun s => s.vatomBody g op o d e a (relOf ord sc) (acqOf ord sc)))

/-! ## vwait (R292) -/

/-- Whether a value satisfies a condition against `t`, of `w` bytes (Table 6). -/
def waitCond (cc w x t : Nat) : Bool :=
  match cc with
  | 0 => x == t
  | 1 => x != t
  | 2 => decide (toSigned (8 * w) t ≤ toSigned (8 * w) x)
  | 3 => decide (t ≤ x)
  | _ => decide ((x + 2 ^ (8 * w) - t) % 2 ^ (8 * w) < 2 ^ (8 * w - 1))

/-- What a round found. -/
inductive Round where
  | wait (s : State)
  | held (s : State)                                  -- satisfied
  | unmet (s : State)
  | cause (x : VEl) (c : Cause) (s : State)

/-- One round's reads, by the elements' home: the condition over all of them. -/
def State.roundEach (s : State) (iss : Issuer) (c : Coro) (v : VWait) (ok : Bool) : List VPart → Round
  | [] => if ok then .held s else .unmet s
  | (x, ps) :: xs =>
    match s.readFresh iss ps with
    | .error .wait => .wait s
    | .error (.cause e s1) => .cause x e s1
    | .ok (bs, s1) =>
      State.roundEach s1 iss c v (ok && waitCond v.cond c.tyBytes (leNat bs) (c.elem v.vb c.tyBytes x.row x.elem)) xs

/-- A round of the coroutine in the register files: its elements in other cores' scratchpads are asked of their message slots,
and the round waits for them (R180, R292). -/
def State.roundOf (s : State) (v : VWait) (els : List VPart) : Round :=
  match s.ask [] (s.farLoads els) with
  | some s1 => .wait s1
  | none => s.roundEach s.issuer s.core.run v true els

/-- The state after a round that coroutine `c`, saved or Held, has made as if it were in the register files: those hold what
they held, and `c` what it waits for. -/
def State.backFrom (s t : State) (c : Coro) : State :=
  let put (k : Coro) : Coro := if k.cnum == c.cnum then { k with flight := t.core.run.flight } else k
  t.modCore (fun k => ({ k with run := s.core.run, slot := s.core.slot }).mapCoros put)

/-- A round for coroutine `c` of the core in focus; a page that fails is met as its element's cause. -/
def State.vwaitRoundOf (s : State) (c : Coro) (v : VWait) : Round :=
  let t := s.modCore (fun k => { k with run := c, slot := none })
  let r := t.runAhead .read c.tyBytes (c.enumerate v.guard (.each v.va) c.tyBytes)
  let back (u : State) : State := s.backFrom u.landed c
  match r.2 with
  | some (x, e) => .cause x e (back t)
  | none => match t.roundOf v r.1 with
    | .wait u => .wait (s.backFrom u c)
    | .held u => .held (back u)
    | .unmet u => .unmet (back u)
    | .cause x e u => .cause x e (back u)

/-- The first round, and the suspension after one that is not met: a full context is saved, and VSTARTn keeps what the later
rounds begin from. -/
def State.vwaitFirst (s : State) (v : VWait) (els : List VPart) : State :=
  let c := s.core.run
  match s.roundOf v els with
  | .wait s1 => s1
  | .held s1 => (s1.acquire 7).finishV
  | .cause x e s1 => s1.failElem .read x e c.tyBytes
  | .unmet s1 =>
    (s1.landed.saveContext ({ c.nextMember with flight := none }.fullContext s1.core.lanes) (.waitingVec v) (.vwait v)).push
      (.vwaitRound s.core.id c.cnum.toNat)

/-- A `vwait`: a cause leaves the element in VSTARTn, from which a resumed one goes on (R255, R361; log 54). -/
def State.vwaitOp (s : State) (g : Guard) (cc : Nat) (a b : Fin 64) : State :=
  let k := s.core.run
  let op : VOp :=
    { regs := [a, b], width := 8, okType := k.atomType, reads := [a], masks := [g.idx], more := [(b, 8 * k.tyBytes)] }
  s.vIssue op (fun s => s.noStrip (fun s =>
    let c := s.core.run
    let w := c.tyBytes
    let els := VEl.upTo (c.eccStop { op with more := [] } false) (c.enumerate g (.each a) w)
    match misaligned w els with
    | some x => s.failMisaligned x
    | none =>
      let r := s.runAhead .read w els
      match r.2, c.eccStop op false with
      | some (x, e), _ => s.failElem .read x e w
      | none, some x => s.raiseVreg x
      | none, none => s.vwaitFirst ⟨g, cc, a, b, s.core.insn⟩ r.1))

/-- A coroutine that a later round's cause parks: its program counter is the `vwait`'s, and VSTART0 holds the element (R292,
R361). -/
def Coro.backToWait (c : Coro) (x : VEl) : Coro :=
  { c with pc := c.pc - 4, flight := none, vstart := c.vstart.set 0 ⟨BitVec.ofNat 8 x.row, BitVec.ofNat 14 x.elem⟩ }

/-- One whose condition holds goes on (R178); its resumption is an acquire. -/
def Coro.waitedFor (c : Coro) (st : CState) : Coro := { c with state := st, woken := true, vstart := c.vstart.set 0 ⟨0, 0⟩ }

/-- A later round of coroutine `cnum` of the core in focus. -/
def State.vwaitAgain (s : State) (cnum : Nat) : State :=
  let again (t : State) : State := t.push (.vwaitRound s.core.id cnum)
  let trapOf (c : Coro) (v : VWait) (x : VEl) (e : Cause) : Trap :=
    { cause := e, index := c.sweepIndex x.row x.elem, addr := s.dataAddr .read e x.addr c.tyBytes, insn := some v.insn }
  match s.core.coros.find? (fun c => c.cnum.toNat == cnum) with
  | some c => match c.state with
    | .waitingVec v => match s.vwaitRoundOf c v with
      | .wait s1 => again s1
      | .unmet s1 => again s1
      | .held s1 =>
        let up (k : Coro) : Coro := if k.cnum == c.cnum then k.waitedFor .ready else k
        let s2 := s1.modCore (fun k => { k with coros := k.coros.map up })
        if s2.core.liveness == .idle then s2.askPacer else s2
      | .cause x e s1 =>
        let put (k : Coro) : Coro := if k.cnum == c.cnum then k.backToWait x else k
        (s1.modCore (fun k => { k with coros := k.coros.map put })).parkSaved (c.backToWait x) (trapOf c v x e)
    | _ => s
  | none => match s.core.current with
    | none => s
    | some c => match c.state with
      | .held (.vwait v) =>
        if c.cnum.toNat != cnum then s
        else match s.vwaitRoundOf c v with
          | .wait s1 => again s1
          | .unmet s1 => again s1
          | .held s1 => (s1.acquire 7).modCore (fun k =>
              (k.modCurrent (fun k => { k.waitedFor .running with woken := false })).setLiveness .running)
          | .cause x e s1 =>
            let s2 := s1.modCore (fun k => k.modCurrent (fun k => { k.backToWait x with state := .held .trap }))
            s2.appendRecord (dieOf s.core.id) true (trapRecord s.core.id (c.backToWait x) 0 v.insn (trapOf c v x e))
      | _ => s

/-! ## Meanings -/

def execVld (g : Guard) (_c : Bool) (d : Fin 64) (a : Fin 32) (sc : Fin 8) (o : Fin 4) (s : State) : Res :=
  .next (s.vload g d (.packed a) none (acqOf o sc))
def execVlds (g : Guard) (_c : Bool) (d : Fin 64) (a : Fin 32) (sc : Fin 8) (o : Fin 4) (s : State) : Res :=
  .next (s.vload g d (.strided a) none (acqOf o sc))
def execVldx (g : Guard) (_c : Bool) (d : Fin 64) (a : Fin 32) (b : Fin 64) (s : State) : Res :=
  .next (s.vload g d (.indexed a b) none 0)
def execVldt (g : Guard) (_c : Bool) (d : Fin 64) (a : Fin 32) (sc : Fin 8) (o : Fin 4) (s : State) : Res :=
  .next (s.vload g d (.tile a) none (acqOf o sc))
def execVldn (g : Guard) (_c : Bool) (d a : Fin 64) (s : State) : Res :=
  .next (s.vload g d (.shape a) none 0)
def execVldWp (g : Guard) (_c : Bool) (d : Fin 64) (a : Fin 32) (h : Fin 8) (s : State) : Res :=
  .next (s.vload g d (.packed a) (some h) 0)
def execVst (g : Guard) (_c : Bool) (d : Fin 64) (a : Fin 32) (sc : Fin 8) (o : Fin 4) (s : State) : Res :=
  .next (s.vstore g d (.packed a) o sc)
def execVsts (g : Guard) (_c : Bool) (d : Fin 64) (a : Fin 32) (sc : Fin 8) (o : Fin 4) (s : State) : Res :=
  .next (s.vstore g d (.strided a) o sc)
def execVstx (g : Guard) (_c : Bool) (d : Fin 64) (a : Fin 32) (b : Fin 64) (s : State) : Res :=
  .next (s.vstore g d (.indexed a b) 0 0)
def execVstt (g : Guard) (_c : Bool) (d : Fin 64) (a : Fin 32) (sc : Fin 8) (o : Fin 4) (s : State) : Res :=
  .next (s.vstore g d (.tile a) o sc)
def execVstn (g : Guard) (_c : Bool) (d a : Fin 64) (s : State) : Res :=
  .next (s.vstore g d (.shape a) 0 0)

def execVatomAdd (g : Guard) (d a : Fin 64) (sc : Fin 8) (o : Fin 4) (s : State) : Res := .next (s.vatom g .add d d a sc o)
def execVatomMin (g : Guard) (d a : Fin 64) (sc : Fin 8) (o : Fin 4) (s : State) : Res := .next (s.vatom g .min d d a sc o)
def execVatomMax (g : Guard) (d a : Fin 64) (sc : Fin 8) (o : Fin 4) (s : State) : Res := .next (s.vatom g .max d d a sc o)
def execVatomAnd (g : Guard) (d a : Fin 64) (sc : Fin 8) (o : Fin 4) (s : State) : Res := .next (s.vatom g .and d d a sc o)
def execVatomOr (g : Guard) (d a : Fin 64) (sc : Fin 8) (o : Fin 4) (s : State) : Res := .next (s.vatom g .or d d a sc o)
def execVatomXor (g : Guard) (d a : Fin 64) (sc : Fin 8) (o : Fin 4) (s : State) : Res := .next (s.vatom g .xor d d a sc o)
def execVatomSwap (g : Guard) (d a : Fin 64) (sc : Fin 8) (o : Fin 4) (s : State) : Res := .next (s.vatom g .swap d d a sc o)
def execVatomCas (g : Guard) (d : Fin 32) (a : Fin 64) (sc : Fin 8) (o : Fin 4) (s : State) : Res :=
  .next (s.vatom g .cas (vpairOdd d) (vpairEven d) a sc o)

def execVwait (g : Guard) (k a b : Fin 64) (s : State) : Res := .next (s.vwaitOp g k.val a b)

/-- One interval has passed since the last round (R89, R292). -/
def execVwaitRound (core cnum : Nat) (s : State) : Res := .next (s.onCore core (fun s => s.vwaitAgain cnum))

end Sys2Proof.Machine
end

