-- ==== Sys2Proof/Machine/Matrix.lean ====
section
/-! DEFINITION. The matrix unit and the attention instructions (spec/12_matrix_attention_instr.md R302 to R316,
spec/07_arithmetic.md R199): majors 0x30 to 0x33. -/

namespace Sys2Proof.Machine

/-! ## The grant (R302) -/

/-- The fields of MSHAPE (Table 11 of spec/08_encoding.md). -/
def Coro.mType (c : Coro) : Nat := bits c.mshape.toNat 22 19
def Coro.mK (c : Coro) : Nat := bits c.mshape.toNat 18 12
def Coro.mN (c : Coro) : Nat := bits c.mshape.toNat 11 6
def Coro.mM (c : Coro) : Nat := bits c.mshape.toNat 5 0

/-- A type that `mshape` grants. -/
def grantType (t : Nat) : Bool := t == 4 || t == 8 || t == 9 || (12 ≤ t && t ≤ 15)

/-- The grant for a request, with `a` lane groups and `g` element groups. -/
def grant (req a g : Nat) : Nat :=
  let t := bits req 22 19
  let k := bits req 18 12
  let kmax := if t == 8 || t == 9 then 32 else 64
  t * 2 ^ 19 + min (32 * ceilDiv k 32) kmax * 2 ^ 12 + min (min (bits req 11 6) (8 * a)) g * 2 ^ 6 +
    min (min (bits req 5 0) 32) g

def execMshape (d a : Fin 32) (s : State) : Res :=
  .next (
    let req := (s.getS a).toNat
    if !grantType (bits req 22 19) then s.raise .vectorType
    else
      let x := grant req s.core.lanes (s.core.run.rgroups s.core.lanes)
      ((s.modRun (fun c => { c with mshape := BitVec.ofNat 23 x })).setS d (w64 x)).advance)

/-! ## Rows (R303, R304) -/

/-- Whether row `i` is active: bit i of the mask XOR NEG. -/
def Coro.rowOn (c : Coro) (g : Guard) (i : Nat) : Bool :=
  (if h : g.idx.val < 7 then (c.m[g.idx.val]).getLsbD i else true) != g.neg

/-- The active rows below `m` from VSTARTn.ROW on. -/
def Coro.rowsOn (c : Coro) (g : Guard) (m : Nat) : List Nat :=
  (List.range m).filter (fun i => c.vs.row.toNat ≤ i && c.rowOn g i)

/-- Element group `i` of a register. -/
def Coro.group (c : Coro) (v : Fin 64) (i : Nat) : Nat := VReg.get c.v[v] (128 * i) 128

/-- Bytes of the codes of a type; MXFP4 counts as 8 bits (R304). -/
def codeBytes (t : Nat) : Nat := if t == 8 || t == 9 then 2 else 1

/-- Element (i, j) of an accumulator tile. -/
def Coro.accAt (c : Coro) (e : Fin 4) (i j : Nat) : Nat := c.acc[e].toNat / 2 ^ (32 * (32 * i + j)) % 2 ^ 32
def Coro.putAcc (c : Coro) (e : Fin 4) (i j x : Nat) : Coro :=
  { c with acc := c.acc.set e (BitVec.ofNat 32768
      (setBits (c.acc[e]).toNat (32 * (32 * i + j) + 31) (32 * (32 * i + j)) x)) }

/-! ## Uncorrectable operands of a row (R378) -/

/-- What reads of a byte of a register: the row that needs it, and the element there. -/
abbrev ByteUse := Nat → Option (Nat × Nat)

/-- The row at which a mark stops a matrix instruction, with the element and the lane there: `ops` gives the use of a byte
of an operand register, `e` an accumulator with its columns that are read. -/
def rowOfMark (g : Guard) (ops : List (Fin 64 × ByteUse)) (e : Option (Fin 4 × Nat)) (m : EccMark) :
    Option (Nat × Nat × Nat) :=
  match m with
  | .vreg v byte _ => ((ops.filter (·.1 == v)).findSome? (·.2 byte)).map (fun p => (p.1, p.2, byte % 128 / 4))
  | .mask k bit _ => if k = g.idx then some (bit, 0, 0) else none
  | .acc a i j _ => match e with
    | some x => if a = x.1 && j < x.2 then some (i, j, j % 32) else none
    | none => none
  | _ => none

/-- The rows below `m` from VSTARTn.ROW on, active or not. -/
def Coro.rowsFrom (c : Coro) (m : Nat) : List Nat := (List.range m).filter (fun i => c.vs.row.toNat ≤ i)

/-- The first row that a mark stops: of `rows`, and for a mark of the mask, which is read for every row, of `all`. -/
def Coro.rowStop (c : Coro) (all rows : List Nat) (f : EccMark → Option (Nat × Nat × Nat)) : Option EccStop :=
  (c.ecc.filterMap (fun m => match f m with
    | none => none
    | some p =>
      let of := match m with
        | .mask _ _ _ => all
        | _ => rows
      if of.contains p.1 then some (EccStop.mk p.1 p.2.1 0 p.2.2 m) else none)).foldl
      (fun o x => match o with
        | none => some x
        | some y => if x.row < y.row then some x else some y) none

/-- The trap at a row: VSTARTn holds it. The index is that of the row's first element, or of the accumulator's (R309). -/
def State.raiseRow (s : State) (x : EccStop) : State :=
  let s1 := s.modRun (·.setVs x.row 0)
  match x.mark with
  | .acc _ _ _ _ => s1.raiseLane .dataAcc (32 * x.row + x.elem) x.lane x.row x.elem x.mark
  | _ => s1.raiseLane .dataVreg (32 * x.row) x.lane x.row x.elem x.mark

/-- Those of some rows before a bad operand, and before the row at which the instruction stops. -/
def rowsWithin (cut : Option (Nat × Nat)) (stop : Option EccStop) (rows : List Nat) : List Nat :=
  rows.filter (fun i => beforeCut cut (i, 0) && (match stop with
    | none => true
    | some x => decide (i < x.row)))

/-- An instruction that works row by row: `body` does one row (R307, R378). -/
def State.rowSweep (s : State) (rows : List Nat) (stop : Option EccStop) (body : Coro → Nat → Coro) : State :=
  let cut := s.cutPlace 0
  let stop1 := stop.filter (·.isBefore cut)
  let s1 := s.modRun (fun c => (rowsWithin cut stop1 rows).foldl body c)
  match stop1 with
  | none => s1.finishAt cut
  | some x => s1.raiseRow x

/-! ## Products and sums (R193, R199, R303) -/

/-- The value of element `k` of an operand row of 128 bytes (R303). -/
def rowVal (t row k : Nat) : FVal :=
  let byte (o : Nat) : Nat := row / 2 ^ (8 * o) % 256
  if t == 8 || t == 9 then (typeFmt t).decode (row / 2 ^ (16 * k) % 2 ^ 16)
  else if t == 12 || t == 13 then (typeFmt t).decode (byte k)
  else
    let x := byte (64 + k / 32)
    if x = 0xFF then .nan false
    else if t == 14 then
      let i := toSigned 8 (byte k)
      .fin (decide (i < 0)) i.natAbs ((x : Int) - 133)
    else
      let code := byte (k / 2) / 16 ^ (k % 2) % 16
      .fin (bitAt code 3) (e2m1Halves (code % 8)) ((x : Int) - 128)

/-- A sum of products so far: a NaN or an undefined product, infinities met, all terms negative zeros, the exact sum. -/
structure ChunkSum where
  bad  : Bool
  pinf : Bool
  ninf : Bool
  negz : Bool
  sum  : Dy

/-- One product added exactly. -/
def ChunkSum.step (x : ChunkSum) (a b : FVal) : ChunkSum :=
  match a, b with
  | .nan _, _ => { x with bad := true }
  | _, .nan _ => { x with bad := true }
  | .inf n, .inf m => if n == m then { x with pinf := true } else { x with ninf := true }
  | .inf n, .fin m y _ => if y = 0 then { x with bad := true }
      else if n == m then { x with pinf := true } else { x with ninf := true }
  | .fin m y _, .inf n => if y = 0 then { x with bad := true }
      else if n == m then { x with pinf := true } else { x with ninf := true }
  | .fin n y e, .fin m z f =>
    { x with sum := dyAdd x.sum (dyOf (n != m) (y * z) (e + f)), negz := x.negz && n != m && y * z == 0 }

/-- The chunk's sum rounded once to FP32. -/
def ChunkSum.round (x : ChunkSum) : Nat × Flags :=
  let f := Fmt.f32
  if x.bad || (x.pinf && x.ninf) then (f.nan, Flags.iv)
  else if x.pinf then (f.infinity, 0)
  else if x.ninf then (f.sign true + f.infinity, 0)
  else f.roundDy .rne x.negz x.sum

/-- Whether a code is a NaN, of FP32. -/
def nan32 (x : Nat) : Bool := (Fmt.f32.decode x).isNan

/-- One chunk of floating-point products added to an accumulator element. -/
def chunkFp (t ra rb c x : Nat) : Nat × Flags :=
  let q := ((List.range 32).foldl (fun (z : ChunkSum) i => z.step (rowVal t ra (32 * c + i)) (rowVal t rb (32 * c + i)))
    ⟨false, false, false, true, (0, 0)⟩).round
  let r := Fmt.f32.add .rne x q.1
  (r.1, q.2 ||| r.2 ||| (if nan32 r.1 then Flags.iv else 0))

/-- One chunk of INT8 products: it wraps and sets no flag. -/
def chunkInt (ra rb c x : Nat) : Nat × Flags :=
  let v (row k : Nat) : Int := toSigned 8 (row / 2 ^ (8 * k) % 256)
  (wrap 32 ((List.range 32).foldl (fun z i => z + v ra (32 * c + i) * v rb (32 * c + i)) (x : Int)), 0)

/-- Element (i, j) of an accumulator after every chunk of rows `ra` and `rb`. -/
def macElem (t k ra rb x : Nat) : Nat × Flags :=
  (List.range (k / 32)).foldl (fun y c =>
    let r := if t == 4 then chunkInt ra rb c y.1 else chunkFp t ra rb c y.1
    (r.1, y.2 ||| r.2)) (x, 0)

/-- A row step: every column below N of row `i`. -/
def Coro.macRow (t k : Nat) (e : Fin 4) (bs : List Nat) (ra : Nat) (c : Coro) (i : Nat) : Coro :=
  (bs.foldl (fun (p : Coro × Nat) rb =>
    let r := macElem t k ra rb (p.1.accAt e i p.2)
    ((p.1.putAcc e i p.2 r.1).orFlags r.2, p.2 + 1)) (c, 0)).1

/-! ## Scratchpad rows and the segment table (R303, R306, R310) -/

/-- Virtual address of an own-scratchpad offset. -/
def ownAddr (off : Nat) : Word := w64 (2 ^ 64 - 2 ^ 18 + off)

/-- A cause and the address it is met at. -/
abbrev At := Cause × Word

/-- `n` bytes at an own-scratchpad offset, as the vector unit reads them: those that an open strip holds in place of
memory's (R100, R127). -/
def State.ownRead (s : State) (off n : Nat) : Except At Nat :=
  if s.core.padBytes < off + n then .error (.nearOutOfRange, ownAddr off)
  else match s.readOver s.issuer s.core.run.heldBytes [({ target := .pad s.core.id off }, n)] with
    | .error (.cause c _) => .error (c, s.dataAddr .read c (ownAddr off) n)
    | .error .wait => .error (.none, 0)
    | .ok (bs, _) => .ok (leNat bs)

/-- Rows of 128 bytes at some offsets, in order, or the first that fails. -/
def State.ownRows (s : State) : List Nat → Except At (List Nat)
  | [] => .ok []
  | o :: os => match s.ownRead o 128 with
    | .error e => .error e
    | .ok r => match State.ownRows s os with
      | .error e => .error e
      | .ok rs => .ok (r :: rs)

/-- The search of R310 from segment `i` on, `n` segments left, `start` being where segment `i` starts. -/
def State.segFrom (s : State) (g toff : Nat) : Nat → Nat → Nat → Except At (Option (Nat × Nat × Nat))
  | 0, _, _ => .ok none
  | n + 1, i, start => match s.ownRead (toff + 4 * i) 4 with
    | .error e => .error e
    | .ok cum => if start ≤ g && g < cum then .ok (some (i, start, cum)) else State.segFrom s g toff n (i + 1) cum

/-- The segment of packed row `g`: its number, where it starts and where it ends. -/
def State.segment (s : State) (g : Nat) : Except At (Option (Nat × Nat × Nat)) :=
  let c := s.core.run
  let toff := c.msegToff.toNat
  let nseg := c.msegNseg.toNat
  let cur := c.msegCur.toNat
  if s.core.padBytes < toff + 4 * nseg then .error (.nearOutOfRange, ownAddr toff)
  else if nseg ≤ cur then .ok none
  else if cur = 0 then s.segFrom g toff nseg 0 0
  else match s.ownRead (toff + 4 * (cur - 1)) 4 with
    | .error e => .error e
    | .ok st => s.segFrom g toff (nseg - cur) cur st

def execMseg (d a : Fin 32) (s : State) : Res :=
  let g := (s.getS a).toNat % 2 ^ 32
  .next (match s.segment g with
    | .error (c, x) => s.raiseAccess c 0 x
    | .ok none => (s.setS d (w64 (2 ^ 64 - 1))).advance
    | .ok (some (i, _, cum)) =>
      ((s.modRun (fun c => { c with msegCur := BitVec.ofNat 16 i })).setS d (w64 ((cum - g) * 2 ^ 32 + i))).advance)

/-! ## mmk and mmga (R304 to R307) -/

/-- The R160 checks of an instruction that names these registers with elements of `w` bytes. -/
def State.rowIssue (s : State) (regs : List (Fin 64)) (w : Nat) (k : State → State) : State :=
  s.vIssue ⟨regs, w, true, [], [], [], [], none⟩ k

/-- Whether a grant has nothing to do. -/
def Coro.emptyGrant (c : Coro) : Bool := c.mM == 0 || c.mN == 0 || c.mK == 0

/-- The B operand: a vector register, or a scalar register that holds a scratchpad address. -/
inductive BRows where
  | reg (v : Fin 64)
  | pad (r : Fin 32)
  deriving DecidableEq, Repr

/-- The B rows, or the cause that reading them meets. -/
def State.bRows (s : State) (b : BRows) (n : Nat) : Except At (List Nat) :=
  match b with
  | .reg v => .ok ((List.range n).map (s.core.run.group v))
  | .pad r =>
    let x := s.getS r
    if x.toNat < 2 ^ 64 - 2 ^ 18 || x.toNat % 128 != 0 then .error (.matrixOperand, x)
    else s.ownRows ((List.range n).map (fun j => x.toNat - (2 ^ 64 - 2 ^ 18) + 128 * j))

/-- The matrix checks of R304; `aReg` says that A comes from a register. -/
def Coro.matrixFits (c : Coro) (lanes t : Nat) (aReg : Bool) (b : BRows) : Bool :=
  t == c.mType && c.mN ≤ 8 * lanes && (!aReg || c.mM ≤ c.rgroups lanes) &&
    (match b with
      | .reg _ => decide (c.mN ≤ c.rgroups lanes)
      | .pad _ => true)

/-- Bytes of an operand row that a grant reads: the codes, and the scales of an MX type. -/
def usedByte (t k byte : Nat) : Bool :=
  byte < (if t == 15 then k / 2 else k * codeBytes t) || ((t == 14 || t == 15) && 64 ≤ byte && byte < 64 + k / 32)

/-- Registers that a product reads, with the row that a byte of each is read for; B is read for every row. -/
def Coro.macMarks (c : Coro) (t : Nat) (rows : List Nat) (aReg : Option (Fin 64)) (b : BRows) : List (Fin 64 × ByteUse) :=
  let first := rows.head?
  let code (byte : Nat) : Nat := byte % 128 / codeBytes t
  let bs : List (Fin 64 × ByteUse) := match b with
    | .reg v => [(v, fun byte =>
        if byte / 128 < c.mN && usedByte t c.mK (byte % 128) then first.map (fun i => (i, code byte)) else none)]
    | .pad _ => []
  bs ++
    (match aReg with
      | some v => [(v, fun byte => if usedByte t c.mK (byte % 128) then some (byte / 128, code byte) else none)]
      | none => [])

/-- The products of the rows that `aRow` gives, of those below `m`, after every check. -/
def State.macRows (s : State) (g : Guard) (e : Fin 4) (t m : Nat) (rows : List (Nat × Nat)) (bs : List Nat)
    (ops : List (Fin 64 × ByteUse)) : State :=
  let c := s.core.run
  let is := rows.map (·.1)
  s.rowSweep is (c.rowStop (c.rowsFrom m) is (rowOfMark g ops (some (e, c.mN)))) (fun k i =>
    Coro.macRow t c.mK e bs (((rows.find? (·.1 == i)).map (·.2)).getD 0) k i)

def State.mmkOp (s : State) (g : Guard) (e : Fin 4) (a : Fin 64) (b : BRows) (t : Nat) : State :=
  let regs := match b with
    | .reg v => [a, v]
    | .pad _ => [a]
  s.rowIssue regs (codeBytes t) (fun s =>
    let c := s.core.run
    if c.emptyGrant then s.finishV
    else if !c.matrixFits s.core.lanes t true b then s.raise .matrixShape
    else match s.bRows b c.mN with
      | .error (z, x) => s.raiseAccess z 0 x
      | .ok bs =>
        let rows := c.rowsOn g c.mM
        s.macRows g e t c.mM (rows.map (fun i => (i, c.group a i))) bs (c.macMarks t rows (some a) b))

/-- Index element `i` of `vx` (R306). -/
def Coro.rowIndex (c : Coro) (v : Fin 64) (i : Nat) : Nat := VReg.get c.v[v] (4 * i) 4

/-- The rows below M that a segmented gather keeps: those before the first, from 1 on, whose index lies outside the
segment (R306). -/
def Coro.inSegment (c : Coro) (v : Fin 64) (lo hi m : Nat) : Nat :=
  ((List.range m).find? (fun i => 1 ≤ i && !(lo ≤ c.rowIndex v i && c.rowIndex v i < hi))).getD m

/-- The rows below `m` that `mmga` gathers: the active ones before a row whose enable is uncorrectable (R378). -/
def Coro.gatherRows (c : Coro) (g : Guard) (m : Nat) : List Nat :=
  rowsWithin none (c.rowStop (c.rowsFrom m) [] (rowOfMark g [] none)) (c.rowsOn g m)

/-- Where an uncorrectable index stops `mmga`, before anything that the index leads to (R360, R378): at the first row that it
would gather, or, as the first row's index decides the segment, at the row that it resumes from. -/
def Coro.indexStop (c : Coro) (g : Guard) (a : Fin 64) : Option EccStop :=
  let rows := c.gatherRows g c.mM
  let use (byte : Nat) : Option (Nat × Nat) :=
    if byte < 128 && byte / 4 < c.mM && (c.msegEn || !rows.isEmpty) then some (rows.headD c.vs.row.toNat, byte / 4) else none
  c.rowStop [] [rows.headD c.vs.row.toNat] (rowOfMark g [(a, use)] none)

/-- The gather and the products of `mmga`, below row `m`. -/
def State.gatherMac (s : State) (g : Guard) (e : Fin 4) (a : Fin 64) (b : BRows) (t m : Nat) (bs : List Nat) : State :=
  let c := s.core.run
  let rows := c.gatherRows g m
  match s.ownRows (rows.map (fun i => 128 * c.rowIndex a i)) with
  | .error (z, x) => s.raiseAccess z 0 x
  | .ok as => s.macRows g e t m (rows.zip as) bs (c.macMarks t rows none b)

def State.mmgaOp (s : State) (g : Guard) (e : Fin 4) (a : Fin 64) (b : BRows) (t : Nat) : State :=
  let regs := match b with
    | .reg v => [a, v]
    | .pad _ => [a]
  s.rowIssue regs (codeBytes t) (fun s =>
    let c := s.core.run
    if c.emptyGrant then s.finishV
    else if !c.matrixFits s.core.lanes t false b then s.raise .matrixShape
    else match c.indexStop g a, s.bRows b c.mN with
      | some x, _ => s.raiseRow x
      | none, .error (z, x) => s.raiseAccess z 0 x
      | none, .ok bs =>
        if !c.msegEn then s.gatherMac g e a b t c.mM bs
        else match s.segment (c.rowIndex a 0) with
          | .error (z, x) => s.raiseAccess z 0 x
          | .ok none => s.finishV
          | .ok (some (i, lo, hi)) =>
            let m := c.inSegment a lo hi c.mM
            match s.ownRows ((c.gatherRows g m).map (fun i => 128 * c.rowIndex a i)) with
            | .error (z, x) => s.raiseAccess z 0 x
            | .ok _ => (s.modRun (fun k => { k with msegCur := BitVec.ofNat 16 i })).gatherMac g e a b t m bs)

def execMmk (g : Guard) (_c : Bool) (e : Fin 4) (a b : Fin 64) (t : Fin 16) (s : State) : Res :=
  .next (s.mmkOp g e a (.reg b) t.val)
def execMmkScratchpad (g : Guard) (_c : Bool) (e : Fin 4) (a : Fin 64) (b : Fin 32) (t : Fin 16) (s : State) : Res :=
  .next (s.mmkOp g e a (.pad b) t.val)
def execMmga (g : Guard) (_c : Bool) (e : Fin 4) (a b : Fin 64) (t : Fin 16) (s : State) : Res :=
  .next (s.mmgaOp g e a (.reg b) t.val)
def execMmgaScratchpad (g : Guard) (_c : Bool) (e : Fin 4) (a : Fin 64) (b : Fin 32) (t : Fin 16) (s : State) : Res :=
  .next (s.mmgaOp g e a (.pad b) t.val)

/-! ## Accumulator moves (R308, R309) -/

/-- `mzero` (R308) clears every active row of 32, whatever VSTARTn holds; it stops only where a row's enable is uncorrectable
(R378). -/
def execMzero (g : Guard) (e : Fin 4) (s : State) : Res :=
  let zero (c : Coro) (i : Nat) : Coro :=
    { c with acc := c.acc.set e (BitVec.ofNat 32768 (setBits (c.acc[e]).toNat (1024 * i + 1023) (1024 * i) 0)) }
  let stop := s.core.run.rowStop (List.range 32) [] (rowOfMark g [] none)
  let s1 := s.modRun (fun c => (rowsWithin none stop ((List.range 32).filter (c.rowOn g))).foldl zero c)
  .next (match stop with
    | none => s1.finishV
    | some x => s1.raiseRow x)

/-- The elements of the active rows of `mld` and `mst`, in order. -/
def State.rowEls (s : State) (a : Fin 32) (rows : List Nat) : List VEl :=
  rows.flatMap (fun i => (List.range 32).map (fun j =>
    ⟨i, j, s.getS a + w64 i * s.core.run.rstride + w64 (4 * j)⟩))

/-- A cause at an element of `mld` or `mst`: nothing is moved, and VSTARTn holds its row (R309, R361). -/
def State.failRow (s : State) (acc : Access) (x : VEl) (c : Cause) : State :=
  (s.modRun (·.setVs x.row 0)).failAccess acc c (32 * x.row + x.elem) x.addr 4

/-- The values of elements whose parts have all come. -/
def elemValues : List LoadPart → List (VEl × Nat)
  | [] => []
  | x :: xs =>
    let v := x.value.getD 0
    match elemValues xs with
    | (y, u) :: rest => if y = x.p.el then (y, v + 2 ^ (8 * x.p.part.2) * u) :: rest else (x.p.el, v) :: (y, u) :: rest
    | [] => [(x.p.el, v)]

def execMld (g : Guard) (e : Fin 4) (a : Fin 32) (s : State) : Res :=
  let c := s.core.run
  let rows := c.rowsOn g c.mM
  let bad := c.rowStop (c.rowsFrom c.mM) [] (rowOfMark g [] none)
  let r := s.runAhead .read 4 (s.rowEls a (rowsWithin none bad rows))
  let cut := s.cutFor 0 s.farCount r.1
  let stop := bad.filter (·.isBefore cut)
  let ps := VPart.within cut none r.1
  let put (k : Coro) (v : VEl × Nat) : Coro := k.putAcc e v.1.row v.1.elem v.2
  .next (match r.2 with
    | some (x, z) => s.failRow .read x z
    | none => match s.ask [] (s.farLoads ps) with
      | some s1 => s.waitOrStop s1
      | none =>
        let q := s.loadParts c.heldBytes (c.flightOr []) 0 (VPart.parts ps)
        if q.1.any (·.value.isNone) then s.waitOrStop s
        else match q.2.1 with
          | some (x, z) => q.2.2.failRow .read x z
          | none =>
            let s2 := q.2.2.modRun (fun k => (elemValues q.1).foldl put k)
            match stop with
            | some x => s2.raiseRow x
            | none => s2.finishAt cut)

def execMst (g : Guard) (e : Fin 4) (a : Fin 32) (s : State) : Res :=
  let c := s.core.run
  let rows := c.rowsOn g c.mM
  let bad := c.rowStop (c.rowsFrom c.mM) [] (rowOfMark g [] none)
  let r := s.translated .write 4 (s.rowEls a (rowsWithin none bad rows))
  let bytes (x : VEl) : List Byte := leBytes 4 (c.accAt e x.row x.elem)
  let index (x : VEl) : Nat := 32 * x.row + x.elem
  let cut := s.cutFor 0 (fun p => (s.farWrites bytes index [p]).length) r.1
  .next (match r.2 with
    | some (x, z) => s.failRow .write x z
    | none =>
      if c.stripFull (rowsWithin none bad rows).length then s.raise .stripOverflow
      else
        let stop := (c.rowStop (c.rowsFrom c.mM) rows (rowOfMark g [] (some (e, 32)))).filter (·.isBefore cut)
        let ps := VPart.within cut stop r.1
        s.storeEls none (rowsWithin cut stop rows).length bytes index ps (fun s => match stop with
            | none => s.finishAt cut
            | some x => s.raiseRow x))

/-- A type that `mcvt` accepts for the accumulator's (Table 1). -/
def cvtType (mt t : Nat) : Bool :=
  if mt == 4 then t ≤ 6 && t != 3 else t == 8 || t == 9 || t == 10 || t == 12 || t == 13

/-- An accumulator element converted. -/
def cvtAcc (mt t : Nat) (rm : Rm) (x : Nat) : Nat × Flags :=
  if mt == 4 then
    let i := toSigned 32 x
    let y := clampTo (typeSigned t) (typeBytes t) i
    (y, if asType t (typeBytes t) y = i then 0 else Flags.sat)
  else Fmt.f32.toFmt (typeFmt t) rm x

def execMcvt (g : Guard) (d : Fin 64) (e : Fin 4) (t : Fin 16) (s : State) : Res :=
  let w := typeBytes t.val
  .next (s.rowIssue [d] w (fun s =>
    let c := s.core.run
    if !cvtType c.mType t.val then s.raise .vectorType
    else if c.emptyGrant then s.finishV
    else if !(c.mN ≤ 8 * s.core.lanes && c.mM ≤ c.rgroups s.core.lanes) then s.raise .matrixShape
    else
      let rows := c.rowsOn g c.mM
      s.rowSweep rows (c.rowStop (c.rowsFrom c.mM) rows (rowOfMark g [] (some (e, c.mN)))) (fun k i =>
        (List.range c.mN).foldl (fun k j =>
          let r := cvtAcc c.mType t.val k.convRm (k.accAt e i j)
          ({ k with v := k.v.set d (VReg.put k.v[d] (128 * i + j * w) w r.1) } : Coro).orFlags r.2) k)))

/-! ## Attention (R311 to R316) -/

/-- The first stop of an instruction that also reads operands that `f` places. -/
def Coro.stopWith (c : Coro) (op : VOp) (whole : Bool) (f : EccMark → Option (Nat × Nat × Nat)) : Option EccStop :=
  c.firstStop op whole (fun m => match c.spoiled op m with
    | some p => some p
    | none => f m)

/-- Where a mark in word `k` of a row of register `v` stops an instruction that reads it for the whole row; the lane is that
of the word. -/
def Coro.headMark (c : Coro) (v : Fin 64) (k : Nat) (m : EccMark) : Option (Nat × Nat × Nat) :=
  match m with
  | .vreg x byte _ =>
    let row := byte / (max 1 c.gpr * 128)
    if x = v && row < c.rc.toNat && c.vl != 0 && byte % (max 1 c.gpr * 128) / 4 == k then
      some (row, if row = c.vs.row.toNat then c.vs.elem.toNat else 0, k)
    else none
  | _ => none

/-- Where a mark in an ancestor word stops `vtmask`. -/
def Coro.ancestorMark (c : Coro) (v : Fin 64) (m : EccMark) : Option (Nat × Nat × Nat) :=
  match m with
  | .vreg x byte _ =>
    let row := byte / 8
    if x = v && row < c.rc.toNat && c.vl != 0 then
      some (row, if row = c.vs.row.toNat then c.vs.elem.toNat else 0, laneOf row 64)
    else none
  | _ => none

def execVtmask (g : Guard) (_c : Bool) (d : Fin 8) (a : Fin 64) (b : Fin 32) (s : State) : Res :=
  let op : VOp := ⟨[a], 0, true, [], [g.idx], [], [], none⟩
  let p0 := (s.getS b).toNat
  .next (s.vIssue op (fun s =>
    let c0 := s.core.run
    if 64 < c0.rc.toNat || 128 * c0.rgroups s.core.lanes < 8 * c0.rc.toNat then s.raise .vectorShape
    else s.sweepTo op (c0.stopWith op false (c0.ancestorMark a)) (fun _ => Coro.eachActive g (fun c r e =>
      let word := VReg.get c0.v[a] (8 * r) 8
      (c.putMask d r e (decide (e < p0) || (decide (e - p0 < 64) && bitAt word (e - p0))), 0)))))

/-- exp2 of a rounded difference, and its flags (R313). -/
def expDiff (x y : Nat) : Nat × Flags :=
  let d := Fmt.f32.sub .rne x y
  let r := sfExp2 d.1
  (r.1, d.2 ||| r.2)

/-- One row of `vexpm`. -/
def Coro.vexpmRow (g : Guard) (d a b : Fin 64) (c : Coro) (r : Nat) : Coro :=
  let one := 0x3F800000
  let old := c.elem b 4 r 0
  let act := (List.range c.vl.toNat).filter (c.active g r)
  let mx := act.foldl (fun (x : Nat × Flags) e =>
    let y := Fmt.f32.minmax true x.1 (c.elem a 4 r e)
    (y.1, x.2 ||| y.2)) (old, 0)
  let new := mx.1
  let inf := match Fmt.f32.decode new with
    | .inf _ => true
    | _ => false
  let out (x : Nat) : Nat × Flags := if inf then (if x = new then one else 0, 0) else expDiff x new
  let c1 := act.foldl (fun k e =>
    let y := out (c.elem a 4 r e)
    (k.putElem d 4 r e y.1).orFlags y.2) (c.orFlags mx.2)
  let f := out old
  ((c1.putElem b 4 r 0 new).putElem b 4 r 1 f.1).orFlags f.2

def execVexpm (g : Guard) (_c : Bool) (d a b : Fin 64) (s : State) : Res :=
  let k := s.core.run
  let op : VOp := ⟨[d, a, b], k.tyBytes, k.ty == 10, [a], [g.idx], [], [], none⟩
  .next (s.vIssue op (fun s =>
    let c := s.core.run
    let body (c : Coro) : Coro := if c.vl = 0 then c else (List.range c.rc.toNat).foldl (Coro.vexpmRow g d a b) c
    match c.stopWith op true (c.headMark b 0) with
    | none => (s.modRun body).finishV
    | some x => (s.modRun (crossRows body x)).raiseVreg x))

/-- The accumulator element that (r, e) of a `vscore` reads: row e − 32q of column r (R312). -/
def scoreAt (q : Nat) (p : Nat × Nat) : Option Nat :=
  if p.1 < 32 && 32 * q ≤ p.2 && p.2 < 32 * q + 32 then some (p.2 - 32 * q) else none

/-- Where a mark of the accumulator stops `vscore`. -/
def Coro.scoreMark (c : Coro) (g : Guard) (e : Fin 4) (q : Nat) (m : EccMark) : Option (Nat × Nat × Nat) :=
  match m with
  | .acc a i j _ =>
    let p := (j, 32 * q + i)
    if a = e && j < c.rc.toNat && p.2 < c.vl.toNat && c.active g p.1 p.2 then some (p.1, p.2, j % 32) else none
  | _ => none

def execVscore (g : Guard) (_c : Bool) (d : Fin 64) (q : Fin 16) (e : Fin 4) (b : Fin 32) (s : State) : Res :=
  let k := s.core.run
  let op : VOp := ⟨[d], k.tyBytes, k.ty == 10, [], [g.idx], [], [], none⟩
  let sigma := (s.getS b).toNat % 2 ^ 32
  .next (s.vIssue op (fun s =>
    let c0 := s.core.run
    s.sweepTo op (c0.stopWith op false (c0.scoreMark g e q.val)) (fun _ ps c =>
      ps.foldl (fun c p => match scoreAt q.val p with
        | none => c
        | some i =>
          if c.active g p.1 p.2 then
            let x := c.accAt e i p.1
            let y := if c.mType == 4 then Fmt.f32.ofInt c.convRm (toSigned 32 x) else (x, 0)
            let z := Fmt.f32.mul c.arithRm y.1 sigma
            (c.putElem d 4 p.1 p.2 z.1).orFlags (y.2 ||| z.2)
          else c.putElem d 4 p.1 p.2 0xFF800000) c)))

def execVpacc (g : Guard) (_c : Bool) (d a b : Fin 64) (s : State) : Res :=
  let k := s.core.run
  let op : VOp := ⟨[d, a, b], k.tyBytes, k.ty == 10, [d, a], [g.idx], [], [], none⟩
  .next (s.vIssue op (fun s =>
    let c0 := s.core.run
    s.sweepTo op (c0.stopWith op false (c0.headMark b 1)) (fun _ => Coro.eachActive g (fun c r e =>
      let x := Fmt.f32.fma c.arithRm (c.elem d 4 r e) (c.elem b 4 r 1) (c.elem a 4 r e)
      (c.putElem d 4 r e x.1, x.2)))))

end Sys2Proof.Machine
end

