-- ==== Sys2Proof/Machine/Position.lean ====
section
/-! DEFINITION. Position translation (spec/12_matrix_attention_instr.md R317 to R319): major 0x34. -/

namespace Sys2Proof.Machine

/-! ## The position translation buffer (R317, R318) -/

/-- Whether an entry has a key. -/
def PtbEntry.is (p : PtbEntry) (asid stream : BitVec 16) (page : BitVec 32) : Bool :=
  p.asid == asid && p.stream == stream && p.page == page

def Core.ptbFind (c : Core) (asid stream : BitVec 16) (page : BitVec 32) : Option PtbEntry :=
  c.ptb.find? (·.is asid stream page)

/-- The entry written least recently, of a list. -/
def oldest : List PtbEntry → Option PtbEntry
  | [] => none
  | p :: ps => match oldest ps with
    | none => some p
    | some q => some (if p.stamp ≤ q.stamp then p else q)

/-- An entry written: in place, in a free one of the 64, or in place of the one written least recently. -/
def Core.ptbPut (c : Core) (p : PtbEntry) : Core :=
  let rest := c.ptb.filter (fun q => !q.is p.asid p.stream p.page)
  if rest.length < 64 then { c with ptb := p :: rest }
  else match oldest rest with
    | none => { c with ptb := [p] }
    | some o => { c with ptb := p :: rest.filter (fun q => q != o) }

/-! ## Misses (R319) -/

/-- The handler begins: its s24 to s31 are the shadow bank, with the stream, the page and the position written. -/
def State.enterPx (s : State) (stream : BitVec 16) (page p : BitVec 32) : State :=
  let c := s.core.run
  let bank (i : Nat) : Word :=
    if i = 24 then stream.setWidth 64
    else if i = 25 then page.setWidth 64
    else if i = 26 then p.setWidth 64
    else (s.core.shadow[i - 24]?).getD 0
  s.modCore (fun k => { k with
    px := some ⟨c.s, c.pc, stream, page, 0, none, k.insn⟩
    run := { c with s := c.s.mapIdx (fun i v => if i < 24 then v else bank i), pc := k.shadow[7] } })

/-- The miss of element (r, e), at position `p`, which VSTARTn names (R361): a trap, a handler, or the same key again. -/
def State.missAt (s : State) (stream : BitVec 16) (p : BitVec 32) (r e : Nat) : State :=
  let page : BitVec 32 := p >>> 4
  let idx := s.core.run.sweepIndex r e
  let s1 := (s.modCore (fun c => { c with pxLast := none })).modRun (·.setVs r e)
  if s.core.pxLast = some (stream, page) then s1.raiseAt .positionFault idx 0
  else
    if s.core.shadow[7] = 0 then s1.raiseAt .positionMiss idx 0 else s1.enterPx stream page p

/-! ## Meanings -/

/-- `pxl` writes nothing until every active element has translated. -/
def execPxl (g : Guard) (d a : Fin 64) (b : Fin 32) (s : State) : Res :=
  let op : VOp := ⟨[d, a], 8, s.core.run.ty == 3, [a], [g.idx], [], [], none⟩
  .next (s.vIssue op (fun s =>
    let c := s.core.run
    match c.eccStop op true with
    | some x => (s.modCore (fun k => { k with pxLast := none })).raiseVreg x
    | none =>
      let sb := s.getS b
      let stream : BitVec 16 := sb.setWidth 16
      let step := bits sb.toNat 47 32
      let pos (p : Nat × Nat) : BitVec 32 := BitVec.ofNat 32 (c.elem a 8 p.1 p.2)
      let act := c.tile.filter (fun p => c.active g p.1 p.2)
      let base (p : Nat × Nat) : Option PtbEntry := s.core.ptbFind c.asid stream (pos p >>> 4)
      match act.find? (fun p => (base p).isNone) with
      | some p => s.missAt stream (pos p) p.1 p.2
      | none =>
        let put (k : Coro) (p : Nat × Nat) : Coro := match base p with
          | none => k
          | some x => k.putElem d 8 p.1 p.2 (x.base + w64 ((pos p).toNat % 16 * step)).toNat
        ((s.modRun (fun k => act.foldl put k)).modCore (fun k => { k with pxLast := none })).finishV))

def execPxw (g : Guard) (a b : Fin 32) (s : State) : Res :=
  .next (s.guarded g (fun s =>
    let x := s.getS a
    let e : PtbEntry :=
      ⟨s.core.run.asid, x.setWidth 16, x.extractLsb' 16 32, s.getS b &&& ~~~0x3F#64, s.stamp⟩
    (({ s with stamp := s.stamp + 1 }).modCore (·.ptbPut e)).advance))

/-- `pxw.sh` writes shadow register s(24 + k); it is privileged at decode. -/
def execPxwSh (g : Guard) (a : Fin 32) (k : Fin 8) (s : State) : Res :=
  .next (s.privileged (fun s => s.guarded g (fun s =>
    (s.modCore (fun c => { c with shadow := c.shadow.set k (s.getS a) })).advance)))

def execPxinv (g : Guard) (a b : Fin 32) (s : State) : Res :=
  .next (s.guarded g (fun s =>
    let x := s.getS a
    let c := s.core.run
    let gone (p : PtbEntry) : Bool :=
      p.asid == c.asid && (x.getLsbD 63 || p.stream == x.setWidth 16) && decide ((s.getS b).toNat % 2 ^ 32 ≤ p.page.toNat)
    (s.modCore (fun k => { k with ptb := k.ptb.filter (fun p => !gone p) })).advance))

/-- `pxret` ends a handler, and the `pxl` issues again; elsewhere it raises POSITION_FAULT. -/
def execPxret (g : Guard) (s : State) : Res :=
  .next (s.guarded g (fun s =>
    match s.core.px with
    | some p => (s.leavePx p).modCore (fun c => { c with pxLast := some (p.stream, p.page) })
    | none => s.raise .positionFault))

end Sys2Proof.Machine
end

