-- ==== Sys2Proof/Machine/System.lean ====
section
/-! DEFINITION. Control registers, the register configuration, the scratchpad split, strips, address spaces and
translation maintenance, and fences (spec/09_scalar_control.md R239 to R248, spec/11 R294): majors 0x38 and 0x39. -/

namespace Sys2Proof.Machine

/-! ## cget and cset (R208, R215) -/

def execCget (g : Guard) (d : Fin 32) (r : Fin 64) (s : State) : Res :=
  .next (s.checked (s.cregCheck r.val false) (fun s => s.guarded g (fun s =>
    (s.setS d (s.cregRead r.val)).advance)))

def execCset (g : Guard) (r : Fin 64) (a : Fin 32) (s : State) : Res :=
  .next (s.checked (s.cregCheck r.val true) (fun s => s.guarded g (fun s =>
    (s.cregWrite r.val (s.getS a)).advance)))

/-! ## vcfg (R158) -/

/-- The configuration that `vcfg` leaves: vector registers and masks read zero. -/
def Coro.configured (c : Coro) (lanes : Nat) (r w : Fin 4) : Coro :=
  let k := { c with
    nreg := BitVec.ofNat 2 r.val
    wmax := BitVec.ofNat 2 w.val
    rc := 1
    vstart := Vector.replicate 4 ⟨0, 0⟩
    vcarry := 0
    v := Vector.replicate 64 0
    m := Vector.replicate 7 0 }
  { k with vl := BitVec.ofNat 14 (k.vlmax lanes) }

def State.vcfgOp (s : State) (d : Fin 32) (r w : Fin 4) : State :=
  if s.core.lanes = 0 then s.raise .laneRetired
  else
    let s1 := s.modRun (fun c => c.configured s.core.lanes r w)
    (s1.setS d (w64 (s1.core.run.vlmax s1.core.lanes))).advance

def execVcfg (g : Guard) (d : Fin 32) (r w : Fin 4) (s : State) : Res :=
  .next (s.guarded g (fun s => s.vcfgOp d r w))

/-! ## spsplit (R49 to R53, R242) -/

/-- The accesses in the message slot's queue are served before the split changes; its messages stay there (R51, R53). -/
def State.serveAccesses (s : State) : List SlotReq → State
  | [] => s
  | .message _ :: rs => State.serveAccesses s rs
  | r :: rs => State.serveAccesses (s.serveHead r (s.core.queue.erase r)) rs

/-- The scratchpad of the core in focus has `n` ways: converted ways read zero, and lost ones keep nothing. -/
def State.splitWays (s : State) (n : Nat) : State :=
  if n = s.core.spways then s
  else
  let old := s.core.spways
  let base := padStore s.core.id
  let lo := base + min old n * Config.wayBytes
  let hi := base + 8 * Config.wayBytes
  { s.modCore (fun c => { c with spways := n }) with
    mem := s.mem.erase lo hi
    padPoison := s.padPoison.filter (fun w => !(decide (lo ≤ 4 * w) && decide (4 * w < hi))) }

/-- The steps of R51: the ordering of `fence.all.core`, the slot's queue, the dirty words of the ways that convert, and then
the ways. Without a change only the ordering remains. Once begun it is not interrupted: while it waits its flight says so (R242). -/
def State.spsplitOp (s : State) (d : Fin 32) (n : Nat) : State :=
  match s.release 1 with
  | none => s.setFlight { s.core.run.flightOr [] with held := true }
  | some s =>
    let old := s.core.spways
    let s1 := if n = old then s
      else ((s.serveAccesses s.core.queue).writeBackAll (fun l => l.core == s.core.id && decide (l.way < n))).splitWays n
    ((s1.setS d (w64 old)).landed).advance

def execSpsplit (g : Guard) (d : Fin 32) (k : Fin 16) (s : State) : Res :=
  .next (s.guarded g (fun s => s.noStrip (fun s => s.spsplitOp d k.val)))

/-! ## Strips (R243 to R245) -/

def EccMark.inStrip : EccMark → Bool
  | .strip _ => true
  | _ => false

def execStripBegin (g : Guard) (a : Fin 32) (s : State) : Res :=
  .next (s.guarded g (fun s => s.noStrip (fun s =>
    (s.modRun (fun c => { c with
      strip := some ⟨0, [], []⟩
      stripBase := c.getS a
      ecc := c.ecc.filter (fun m => !m.inStrip) })).advance)))

/-- A held store as its coroutine waits for it to be performed. -/
def State.sentStore (s : State) (h : HeldStore) : Pending :=
  { dst := .store h, addr := h.va, part := h.parts.head?, op := none, pages := h.pages, coro := s.issuer.coro,
    asid := s.issuer.asid, eslot := s.issuer.slot, index := h.idx }

/-- Every held store is handed over in one step and the strip closes; what cannot be performed at once is, in its order, as
stores already sent, after a save if need be (R227, R244). An uncorrectable entry of the buffer discards the strip (R376,
R379). -/
def State.commitOp (s : State) : State :=
  match s.core.run.strip with
  | none => s.raise .stripSync
  | some st =>
    if s.core.run.ecc.any (·.inStrip) then s.raiseData .dataSram 0 0
    else
      let r := s.performAll s.core.run s.issuer State.deferFailure st.held
      let sent := r.2.map s.sentStore
      ((r.1.modRun (fun c => { c with strip := none }.addPending sent)).askPending s.core.id sent).advance

def execStripCommit (g : Guard) (s : State) : Res := .next (s.guarded g State.commitOp)

/-! ## Address spaces (R34 to R36, R246, R247) -/

/-- State of an ASID-table entry: bound, retiring, else free (Table 10). -/
def entryBound (e : Nat) : Bool := e % 4 == 1
def entryRetiring (e : Nat) : Bool := e % 4 == 2

/-- The entry of an ASID written at its home. -/
def State.setAsidEntry (s : State) (asid e : Nat) : State := s.storeHbm (s.asidEntryAddr asid) (leBytes 8 e)

/-- The bits of `asid.bind`'s operand that an entry takes: KEY and ROOT. -/
def bindBits (w : Word) : Nat := bits w.toNat 63 58 * 2 ^ 58 + bits w.toNat 51 13 * 2 ^ 13

def State.asidBindOp (s : State) (asid : Nat) (w : Word) : State :=
  let e := s.asidEntry asid
  if !s.asidEn then s.raise .asidUnbound
  else if !tablePlace (bits w.toNat 51 13 * 2 ^ 13) then s.raise .tableMalformed
  else if entryBound e || entryRetiring e then s.raise .asidNotQuiescent
  else if s.inSpillRegion (s.asidEntryAddr asid) then s.raise .writeDenied
  else (s.setAsidEntry asid (bindBits w + 1)).advance

def execAsidBind (g : Guard) (d a : Fin 32) (s : State) : Res :=
  .next (s.privileged (fun s => s.guarded g (fun s => s.asidBindOp ((s.getS d).toNat % 2 ^ 16) (s.getS a))))

/-- Outstanding maintenance operations of a die; 16 are accepted (R43). -/
def State.maintOf (s : State) (die : Nat) : Nat := (s.maint.filter (·.1 == die)).length

/-- An operation joins those outstanding on the issuer's die. -/
def State.addMaint (s : State) (k : MaintKind) (baton : Word) (e : Event) : State :=
  let m : Maint := ⟨k, baton⟩
  (({ s with maint := s.maint ++ [(dieOf s.core.id, m)] }).holdBaton baton).push e

/-- The retirement of an ASID (Table 11): a Free one signals at once, for no earlier retirement is in progress. No store
reaches an entry in a spill region (R68). -/
def State.asidRetireOp (s : State) (asid : Nat) (baton : Word) : State :=
  s.checkedDone baton (fun s =>
    let e := s.asidEntry asid
    if s.inSpillRegion (s.asidEntryAddr asid) then s.raise .writeDenied
    else if 16 ≤ s.maintOf (dieOf s.core.id) then s
    else s.released (some 4) (fun s =>
      if entryBound e then
        ((s.setAsidEntry asid (e / 4 * 4 + 2)).addMaint (.retire asid) baton (.asidRetirementComplete asid)).advance
      else if entryRetiring e then (s.addMaint (.retire asid) baton (.asidRetirementComplete asid)).advance
      else (s.deviceSignal baton 1).advance))

def execAsidRetire (g : Guard) (d a : Fin 32) (s : State) : Res :=
  .next (s.privileged (fun s => s.guarded g (fun s => s.asidRetireOp ((s.getS d).toNat % 2 ^ 16) (s.getS a))))

/-! ## Translation maintenance (R39, R40, R248) -/

/-- Whether a maintenance entry is a retirement of an ASID. -/
def Maint.retires (m : Maint) : Option Nat :=
  match m.kind with
  | .retire a => some a
  | _ => none

/-- The operations of a die that are no retirements, in order. -/
def State.maintList (s : State) (die : Nat) : List (Nat × Maint) :=
  s.maint.filter (fun m => m.1 == die && m.2.retires.isNone)

/-- A maintenance operation is accepted unless the die has 16 outstanding, after a release at module scope, which an open strip
refuses (R39, R43, R127). -/
def State.maintainOp (s : State) (k : MaintKind) (baton : Word) : State :=
  s.checkedDone baton (fun s => s.noStrip (fun s =>
    let die := dieOf s.core.id
    if 16 ≤ s.maintOf die then s
    else s.released (some 4) (fun s =>
      (s.addMaint k baton (.maintenanceComplete die (s.maintList die).length)).advance)))

def execXlinvVa (g : Guard) (d a b : Fin 32) (s : State) : Res :=
  .next (s.privileged (fun s => s.guarded g (fun s =>
    if !canonical (s.getS d) then s.raiseAt .addrNoncanonical 0 (s.getS d)
    else s.maintainOp (.va (s.getS d) ((s.getS a).toNat % 2 ^ 16)) (s.getS b))))

def execXlinvAsid (g : Guard) (d a : Fin 32) (s : State) : Res :=
  .next (s.privileged (fun s => s.guarded g (fun s =>
    s.maintainOp (.asid ((s.getS d).toNat % 2 ^ 16)) (s.getS a))))

def execXlinvGlob (g : Guard) (d : Fin 32) (s : State) : Res :=
  .next (s.privileged (fun s => s.guarded g (fun s => s.maintainOp .glob (s.getS d))))

/-- Whether a maintenance operation covers anything: a near-window address and an ASID that is not bound cover no entry
(R248). -/
def State.covering (s : State) (k : MaintKind) : Bool :=
  match k with
  | .va a n => !isNear a && entryBound (s.asidEntry n)
  | .asid n => entryBound (s.asidEntry n)
  | _ => true

/-- What a maintenance operation covers of a core's translation cache (Table 13). -/
def MaintKind.coversTlb (k : MaintKind) (t : TlbEntry) : Bool :=
  match k with
  | .va a n => t.covers n (a.toNat % 2 ^ 56)
  | .asid n => !t.glob && t.asid == n
  | .glob => t.glob
  | .retire n => !t.glob && t.asid == n

/-- What it covers of a die's walk cache, and of its ASID cache (Table 13). -/
def MaintKind.coversWalk (k : MaintKind) (w : WalkEntry) : Bool :=
  match k with
  | .va a n => w.asid == n && w.upper == a.toNat % 2 ^ 56 / leafBytes w.level
  | .asid n => w.asid == n
  | .glob => false
  | .retire n => w.asid == n
def MaintKind.coversAsid (k : MaintKind) (n : Nat) : Bool :=
  match k with
  | .asid m => m == n
  | .retire m => m == n
  | _ => false

/-- Whether a coroutine keeps a translation that the operation covers, for an access that is not performed yet: a store that a
strip holds, a datum that its home has not given, or an instruction that waits for message slots (R40, R244). -/
def MaintKind.awaits (k : MaintKind) (c : Coro) : Bool :=
  ((c.strip.map (·.held)).getD []).any (fun h => h.pages.any k.coversTlb) ||
    c.pending.any (fun p => p.pages.any k.coversTlb) ||
    (match c.flight with
      | none => false
      | some f => f.pages.any k.coversTlb || f.pend.any (fun p => p.pages.any k.coversTlb))

/-- Whether an operation can complete: no access still uses what it covers, those of killed coroutines among them. -/
def State.drained (s : State) (k : MaintKind) : Bool :=
  !s.covering k || s.cores.all (fun c =>
    c.allCoros.all (fun x => !k.awaits x) && c.orphans.all (fun p => !p.pages.any k.coversTlb))

/-- The covered entries leave every cache of the module (R36, R40). -/
def State.invalidate (s : State) (k : MaintKind) : State :=
  if !s.covering k then s
  else
  let keep (l : List TlbEntry) : List TlbEntry := l.filter (fun t => !k.coversTlb t)
  { s.mapCores (fun c => { c with tlb := keep c.tlb, fetchTlb := keep c.fetchTlb }) with
    caches := { s.caches with
      walks := s.caches.walks.filter (fun w => !k.coversWalk w)
      asids := s.caches.asids.filter (fun e => !k.coversAsid e.2.1)
      relays := s.caches.relays.filter (fun e => !k.coversTlb e.2) } }

/-- Once the operation at position `idx` of a die has gone, those behind it have moved up. -/
def movedUp (die idx : Nat) (e : Event) : Event :=
  match e with
  | .maintenanceComplete d j => if d = die && idx < j then .maintenanceComplete d (j - 1) else e
  | _ => e

/-- The operation at position `idx` of a die's outstanding maintenance completes, once every access that used what it covers
has been performed at module scope (R40). -/
def State.maintDone (s : State) (die idx : Nat) : State :=
  match (s.maintList die)[idx]? with
  | none => s
  | some m =>
    if s.drained m.2.kind then
      let s1 := { s with maint := s.maint.erase m, agenda := s.agenda.map (movedUp die idx) }
      (((s1.registerAll).invalidate m.2.kind).releaseBaton m.2.baton).deviceSignal m.2.baton 1
    else s.push (.maintenanceComplete die idx)

/-- A retirement completes (R36): the module's entries of the ASID are invalid, the entry is Free, and then every baton
of its retirements signals. -/
def State.retireDone (s : State) (asid : Nat) : State :=
  if !entryRetiring (s.asidEntry asid) then s
  else if !s.drained (.retire asid) then s.push (.asidRetirementComplete asid)
  else
    let mine := s.maint.filter (fun m => m.2.retires == some asid)
    let s1 := (({ s with maint := s.maint.filter (fun m => m.2.retires != some asid) }).registerAll).invalidate (.retire asid)
    let s2 := s1.mapCores (fun c => { c with ptb := c.ptb.filter (fun p => p.asid.toNat != asid) })
    let s3 := s2.setAsidEntry asid (s2.asidEntry asid / 4 * 4)
    mine.foldl (fun t m => (t.releaseBaton m.2.baton).deviceSignal m.2.baton 1) s3

def execMaintenanceComplete (die idx : Nat) (s : State) : Res := .next (s.maintDone die idx)
def execAsidRetirementComplete (asid : Nat) (s : State) : Res := .next (s.retireDone asid)

/-! ## fence (R105, R294) -/

/-- A fence waits for the coroutine's posted stores, registers the L1's dirty words and drops its clean ones at `.clus` or
wider, for a read before it makes it an acquire (R108, R114, R116); one that orders vector accesses before scalar ones
shows the bytes that an open strip holds (R127). At `.core` or wider it raises STRIP_SYNC inside an open strip. -/
def State.fenceOp (s : State) (k scope : Nat) : State :=
  s.released (some scope) (fun s =>
    ((if k = 1 || k = 3 then s.modRun Coro.showStrip else s).acquire scope).advance)

def execFence (g : Guard) (k : Fin 4) (sc : Fin 8) (s : State) : Res :=
  .next (s.guarded g (fun s =>
    if sc = 0 then s.fenceOp k.val 0 else s.noStrip (fun s => s.fenceOp k.val sc.val)))

end Sys2Proof.Machine
end

