-- ==== Sys2Proof/Machine/Relay.lean ====
section
/-! DEFINITION. Copy channels and relay engines (spec/05_batons_relay.md R144 to R153, spec/04 R117 to R120, spec/11
R296): major 0x2E minors 0 to 4, and the steps of a command in flight. -/

namespace Sys2Proof.Machine

def State.setChan (s : State) (h : Fin 8) (c : Chan) : State :=
  s.modCore (fun k => { k with chans := k.chans.set h c })

/-! ## Issue (R146, R149) -/

/-- The cause of a plane that refuses the first byte of a command: checks 14 and 15 of Table 8 of spec/01 (spec/03 R80, R92). -/
def State.probe (s : State) (x : Xlat) : Option Cause :=
  match x.target with
  | .plane p tag off =>
    match s.planeDo p tag off 1 ((s.tenantOf s.mySlot).getD 0) false none (fun _ => none) with
    | .error (.cause c _) => some c
    | _ => none
  | _ => none

/-- Step 4: the first byte of the source, and then of the destination. -/
def State.firstBytes (s : State) (src dst : Word) : Option (Cause × Word) :=
  let one (acc : Access) (a : Word) : Option (Cause × Word) :=
    match s.translate s.me acc false a with
    | .error c => some (c, a)
    | .ok x => (s.probe x).map (fun c => (c, a))
  (one .read src).orElse (fun _ => one .write dst)

/-- A command that passed every check; one of length 0 completes at once. -/
def State.startRelay (s : State) (h : Fin 8) (m : RelayCmd) (contig : Bool) : State :=
  let ch : Chan :=
    { state := if m.len = 0 then .idle else .inFlight, can := false, shp := m.shape.isSome, cause := .none, done := 0,
      wp := m.dst, dst := m.dst, contig := contig, cmd := if m.len = 0 then none else some m }
  let s1 := s.setChan h ch
  if m.len = 0 then (s1.deviceSignal m.baton 1).advance
  else ((s1.holdBaton m.baton).push (.relayChunk s.core.id h.val)).advance

/-- Steps 3 and 4 of R146, and the start, once every earlier access of the coroutine is performed at `.mod` (R117). -/
def State.issueRelay (s : State) (h : Fin 8) (m : RelayCmd) (contig : Bool) : State :=
  s.checkedDone m.baton (fun s =>
    match (if m.len = 0 then none else s.firstBytes m.src m.dst) with
    | some (c, a) => s.raiseAt c 0 a
    | none => s.released (some 4) (fun s => s.startRelay h m contig))

/-- The command of the running coroutine. -/
def State.relayCmd (s : State) (src dst : Word) (len : Nat) (sh : Option RShape) (baton : Word) : RelayCmd :=
  let c := s.core.run
  ⟨src, dst, len, sh, baton, c.asid, s.mySlot, c.priv, coroWord s.core.id c, c.inc, 0⟩

/-- `rcopy` (R146): the length is below 2^40. -/
def State.rcopyOp (s : State) (h : Fin 8) (dst src len baton : Word) : State :=
  if (s.core.chans[h]).state != .idle then s.raise .channelBusy
  else if 2 ^ 40 ≤ len.toNat then s.raise .relayShape
  else s.issueRelay h (s.relayCmd src dst len.toNat none baton) true

/-! ## Shape records (R149, R150) -/

/-- The shape of a record's sixteen words; none where R149 rejects it. -/
def shapeOf (w : Nat → Nat) : Option (RShape × Nat) :=
  let rank := w 12
  let ext (k : Nat) : Nat := w (2 + k)
  let total := w 2 * w 3 * w 4 * w 5
  if rank < 1 || 4 < rank || (List.range 4).any (fun k => rank ≤ k && ext k != 1) || w 2 = 0 || 2 ^ 32 < w 2 ||
      w 13 != 0 || w 14 != 0 || w 15 != 0 || 2 ^ 40 ≤ total then none
  else some (⟨w 2, w 3, w 4, w 5, (w64 (w 6), w64 (w 7), w64 (w 8)), (w64 (w 9), w64 (w 10), w64 (w 11))⟩, rank)

/-- Bytes that a shape moves. -/
def RShape.total (r : RShape) : Nat := r.e0 * r.e1 * r.e2 * r.e3

/-- Whether its destination is contiguous (R150). -/
def RShape.contig (r : RShape) (rank : Nat) : Bool :=
  (rank < 2 || r.ds.1 == w64 r.e0) && (rank < 3 || r.ds.2.1 == w64 (r.e0 * r.e1)) &&
    (rank < 4 || r.ds.2.2 == w64 (r.e0 * r.e1 * r.e2))

/-- The uncorrectable byte of a record in the first element group of register `v`. -/
def Coro.recordMark (c : Coro) (v : Fin 64) (n : Nat) : Option EccMark :=
  c.ecc.find? (fun m => match m with
    | .vreg x b _ => x == v && b < n
    | _ => false)

def State.rcopyShapeOp (s : State) (h : Fin 8) (v : Fin 64) (baton : Word) : State :=
  let c := s.core.run
  match c.recordMark v 128 with
  | some m =>
    let byte := match m with
      | .vreg _ b _ => b / 8 * 8
      | _ => 0
    s.raiseLane .dataVreg 0 (byte / 4) 0 (byte / 8) m
  | none =>
    if (s.core.chans[h]).state != .idle then s.raise .channelBusy
    else match shapeOf (c.shapeWord v) with
      | none => s.raise .relayShape
      | some (r, rank) =>
        s.issueRelay h (s.relayCmd (w64 (c.shapeWord v 0)) (w64 (c.shapeWord v 1)) r.total (some r) baton) (r.contig rank)

/-! ## Queries (R120, R152) -/

def ChanState.code : ChanState → Nat
  | .idle => 0
  | .inFlight => 1
  | .cancelling => 2

/-- The result of `rqry` (Table 11). -/
def Chan.query (c : Chan) : Word :=
  w64 (c.state.code * 2 ^ 62 + bit01 c.can * 2 ^ 61 + bit01 c.shp * 2 ^ 60 + c.cause.code * 2 ^ 54 + c.done % 2 ^ 40)

/-! ## Delivery (R144, R147, R148) -/

/-- Source and destination of the byte at position `pos` in iteration order, and the bytes that follow it without a
stride. -/
def RelayCmd.place (m : RelayCmd) (pos : Nat) : Word × Word × Nat :=
  match m.shape with
  | none => (m.src + w64 pos, m.dst + w64 pos, m.len - pos)
  | some r =>
    let off := pos % r.e0
    let q := pos / r.e0
    let i1 := w64 (q % r.e1)
    let i2 := w64 (q / r.e1 % r.e2)
    let i3 := w64 (q / r.e1 / r.e2)
    (m.src + w64 off + i1 * r.ss.1 + i2 * r.ss.2.1 + i3 * r.ss.2.2,
      m.dst + w64 off + i1 * r.ds.1 + i2 * r.ds.2.1 + i3 * r.ds.2.2, r.e0 - off)

/-- The accessor of a command's beats, which an engine carries with its own translation cache (R48, R145). -/
def State.relayWho (s : State) (m : RelayCmd) (engine : Nat) : Who :=
  { asid := m.asid, priv := m.priv, core := some s.core.id, slot := m.slot, engine := some engine }

def RelayCmd.issuer (m : RelayCmd) : Issuer := ⟨m.coro, m.asid.toNat, m.slot, .relay⟩

/-- The leaf of a page that a beat reaches, by an access of kind `acc`, joins the engine's translation cache of 64 entries, where
it may be held (R37, R48). -/
def State.cacheRelay (s : State) (who : Who) (engine : Nat) (acc : Access) (a : Word) : State :=
  let va := a.toNat % 2 ^ 56
  if !canonical a || isNear a || (s.tlbHit who .read va).isSome then s
  else match s.leafFor who acc va with
    | .error _ => s
    | .ok (leaf, level) =>
      if !s.holdable who [acc] leaf level va then s
      else { s with caches := { s.caches with
        relays := joinCapped (fun e : Nat × TlbEntry => e.1 == engine) 64
          (engine, tlbOf who.asid.toNat va leaf level) s.caches.relays } }

/-- The translation a number of bytes further on, in the same 64-byte unit. -/
def Xlat.later (x : Xlat) (i : Nat) : Xlat :=
  { x with target := match x.target with
    | .pad core off => .pad core (off + i)
    | .hbm pa => .hbm (pa + i)
    | .reg pa => .reg (pa + i)
    | .host pa => .host (pa + i)
    | .pod m off => .pod m (off + i)
    | .plane p tag off => .plane p tag (off + i)
    | .zero => .zero }

/-- The bytes that a piece reads: those before the first uncorrectable one, where there is one past the first (R148). -/
def State.relayRead (s : State) (iss : Issuer) (x : Xlat) (n : Nat) : Except Stop (List Byte × State) :=
  match s.partDo iss x n true false (fun _ => none) with
  | .error (.cause c s1) =>
    match (List.range n).find? (fun i => match s.partDo iss (x.later i) 1 true false (fun _ => none) with
      | .error (.cause _ _) => true
      | _ => false) with
    | some (i + 1) => s.partDo iss x (i + 1) true false (fun _ => none)
    | _ => .error (.cause c s1)
  | r => r

/-- Bytes from position `pos` on, at most `lim` of them, that lie in one 64-byte unit on each side: read, and then
written. `first` says that they begin a beat, which makes one request for each line that it reads or writes (R70, R147,
R412). -/
def State.relayPiece (s : State) (m : RelayCmd) (engine pos lim : Nat) (first : Bool) : Except Stop (Nat × State) :=
  let p := m.place pos
  let n := min (min p.2.2 lim) (min (64 - p.1.toNat % 64) (64 - p.2.1.toNat % 64))
  let who := s.relayWho m engine
  match s.translate who .read false p.1 with
  | .error c => .error (.cause c s)
  | .ok x =>
    let s1 := s.cacheRelay who engine .read p.1
    match s1.translate who .write false p.2.1 with
    | .error c => .error (.cause c s1)
    | .ok y =>
      let s2 := s1.cacheRelay who engine .write p.2.1
      match (if first || p.1.toNat % 128 = 0 then s2.beatArrive m.issuer x (min lim (128 - p.1.toNat % 128)) false
          else some s2) with
      | none => .error .wait
      | some s3 => match (if first then s3.beatArrive m.issuer y lim true else some s3) with
        | none => .error .wait
        | some s4 => match s4.relayRead m.issuer x n with
          | .error e => .error e
          | .ok (bs, s5) => match s5.writeParts m.issuer bs [(y, bs.length)] with
            | .error e => .error e
            | .ok (some c, s6) => .error (.cause c s6)
            | .ok (none, s6) => .ok (bs.length, s6)

/-- Lines that the engine reads ahead of its stream: up to 16 of them join the second-level cache, in the page frame already
translated, uncounted, and none while a maintenance operation covers the page (R73). -/
def State.readAhead (s : State) (m : RelayCmd) (engine pos : Nat) : State :=
  let a := (m.place pos).1
  let who := s.relayWho m engine
  match s.tlbHit who .read (a.toNat % 2 ^ 56), s.translate who .read false a with
  | some t, .ok x =>
    if isNear a || s.maint.any (fun q => s.covering q.2.kind && q.2.kind.coversTlb t) then s
    else
      let lines := (List.range 17).filter (fun i => i != 0 && (a.toNat % 2 ^ 16 / 128 + i) * 128 < 2 ^ 16)
      lines.foldl (fun t i => match x.target with
        | .hbm pa => t.allocL2 (dieOf s.core.id) (hbmStore (pa + 128 * i)) (pa + 128 * i) x.skew m.slot false
        | .host pa => t.allocL2 (dieOf s.core.id) (hostStore + pa + 128 * i) (pa + 128 * i) x.skew m.slot false
        | _ => t) s
  | _, _ => s

/-- DONE moves on, and WP with it where the destination is contiguous (R118, R150). DESIGN CHOICE (log 91): at the end of the
address space WP wraps to 0, and a `.wp` load of the last bytes then meets WP_OUT_OF_RANGE once the channel is idle (R119). -/
def Chan.deliver (c : Chan) (n : Nat) : Chan :=
  { c with done := c.done + n, wp := if c.contig then c.dst + w64 (c.done + n) else c.wp }

/-- The pieces of one beat, up to position `stop`. -/
def State.relayPieces (s : State) (h : Fin 8) (m : RelayCmd) (engine stop : Nat) (first : Bool) : Nat → State × Option Stop
  | 0 => (s, none)
  | fuel + 1 =>
    let done := (s.core.chans[h]).done
    if stop ≤ done then (s, none)
    else match s.relayPiece m engine done (stop - done) first with
      | .error .wait => (s, some .wait)
      | .error (.cause c s1) => (s1, some (.cause c s1))
      | .ok (n, s1) =>
        State.relayPieces (s1.setChan h ((s1.core.chans[h]).deliver n)) h m engine stop false fuel

/-- Whether an event is a step of a channel's command. -/
def isRelayStep (core ch : Nat) : Event → Bool
  | .relayChunk c h => c == core && h == ch
  | .relayBeat c h => c == core && h == ch
  | .relayComplete c h => c == core && h == ch
  | .relayCancelComplete c h => c == core && h == ch
  | _ => false

/-! ### Engines (R144) -/

/-- The engine that carries a chunk of a channel of the core in focus, and the state once it is free. -/
def State.engineOf (s : State) (h : Fin 8) : Option Nat :=
  (s.engines.find? (fun e => e.core == s.core.id && e.ch == h.val)).map (·.id)
def State.freeEngine (s : State) (h : Fin 8) : State :=
  { s with engines := s.engines.filter (fun e => !(e.core == s.core.id && e.ch == h.val)) }

/-- Whether channel number `k` of a cluster, core × 8 + channel, has work that no engine carries. -/
def State.chanWaits (s : State) (cluster k : Nat) : Bool :=
  s.cores.any (fun c => c.id == cluster * 96 + k / 8 && (match (c.chans[Fin.ofNat 8 k]).state, (c.chans[Fin.ofNat 8 k]).cmd with
    | .inFlight, some m => (c.chans[Fin.ofNat 8 k]).done != m.len && !s.engines.any (fun e => e.core == c.id && e.ch == k % 8)
    | _, _ => false))

/-- The channel whose chunk comes next in a cluster: round robin from the one served last. DESIGN CHOICE (log 90): channels stand
in the order core × 8 + channel, and the first after reset is channel 0. -/
def State.nextChan (s : State) (cluster : Nat) : Option Nat :=
  let last := ((s.lastChan.find? (·.1 == cluster)).map (·.2)).getD 767
  ((List.range 768).map (fun i => (last + 1 + i) % 768)).find? (s.chanWaits cluster)

/-- The lowest free engine of a cluster. DESIGN CHOICE (log 90): R144 does not say which idle engine takes a chunk. -/
def State.idleEngine (s : State) (cluster : Nat) : Option Nat :=
  ((List.range 8).map (fun e => cluster * 8 + e)).find? (fun e => !s.engines.any (·.id == e))

/-- The channel goes idle: WP takes the end of the delivered prefix (R118, R150), and its command's steps are over. -/
def State.relayIdle (s : State) (h : Fin 8) (can : Bool) (cause : Cause) : State :=
  let c := s.core.chans[h]
  { (s.freeEngine h).setChan h { c with state := .idle, can := can, cause := cause, wp := c.dst + w64 c.done, cmd := none } with
    agenda := s.agenda.filter (fun e => !isRelayStep s.core.id h.val e) }

/-- The end of a command with no cause: its baton is signalled once. -/
def State.relayEnd (s : State) (h : Fin 8) (m : RelayCmd) (can : Bool) : State :=
  ((s.relayIdle h can .none).releaseBaton m.baton).deviceSignal m.baton 1

/-- A stop (R148): a data error error-signals the baton with RELAY_DATA_ERROR; any other cause signals it normally and
makes an advisory record, with the destination of the first byte not delivered. -/
def State.relayStop (s : State) (h : Fin 8) (m : RelayCmd) (c : Cause) : State :=
  let s1 := (s.relayIdle h false c).releaseBaton m.baton
  if isDataCause c then s1.deviceErr m.baton 0x02
  else
    (s1.appendRecord (dieOf s.core.id) false
      (advisory 2 c.code 0 m.inc.toNat h.val m.coro 0 (w64 (s.core.chans[h]).done)
        (m.place (s.core.chans[h]).done).2.1 0)).deviceSignal m.baton 1

/-- The next step of a command in flight; its engine is free at the end of its chunk. -/
def State.relayNext (s : State) (h : Fin 8) (m : RelayCmd) : State :=
  let c := s.core.chans[h]
  if c.done = m.len then (s.freeEngine h).push (.relayComplete s.core.id h.val)
  else if m.budget = 0 then (s.freeEngine h).push (.relayChunk s.core.id h.val)
  else s.push (.relayBeat s.core.id h.val)

/-- A command in flight has its budget changed. -/
def State.setBudget (s : State) (h : Fin 8) (m : RelayCmd) (n : Nat) : State :=
  s.setChan h { s.core.chans[h] with cmd := some { m with budget := n } }

/-- The lowest free engine of the cluster takes the channel's next chunk, of up to 4 KiB, when it is the channel's turn;
otherwise the channel waits for it (R144). -/
def State.chunkOp (s : State) (h : Fin 8) : State :=
  let cluster := s.core.id / 96
  let k := s.core.id % 96 * 8 + h.val
  match (s.core.chans[h]).cmd with
  | none => s
  | some m =>
    if !s.chanWaits cluster k then s
    else match s.idleEngine cluster with
      | none => s.push (.relayChunk s.core.id h.val)
      | some e =>
        if s.nextChan cluster != some k then s.push (.relayChunk s.core.id h.val)
        else
          let s1 := s.setBudget h m 4096
          { s1 with
            engines := ⟨e, s.core.id, h.val⟩ :: s1.engines
            lastChan := (cluster, k) :: s1.lastChan.filter (·.1 != cluster)
            agenda := s1.agenda ++ [.relayBeat s.core.id h.val] }

/-- A beat: up to 128 bytes, aligned to the destination, of the chunk that an engine carries (R147). -/
def State.beatOp (s : State) (h : Fin 8) : State :=
  let c := s.core.chans[h]
  match c.state, c.cmd, s.engineOf h with
  | .inFlight, some m, some e =>
    let p := m.place c.done
    let n := min (min p.2.2 m.budget) (min (128 - p.2.1.toNat % 128) (m.len - c.done))
    let r := s.relayPieces h m e (c.done + n) true 128
    let done := (r.1.core.chans[h]).done
    let left := m.budget - (done - c.done)
    match r.2 with
    | some (.cause e _) => r.1.relayStop h m e
    | some .wait => (r.1.setBudget h m left).push (.relayBeat s.core.id h.val)
    | none => ((r.1.setBudget h m left).readAhead m e (done - 1)).relayNext h { m with budget := left }
  | _, _, _ => s

/-! ## Meanings -/

/-- The pairs hold destination and source, length and baton (R296). -/
def execRcopy (g : Guard) (h : Fin 8) (a b : Fin 16) (s : State) : Res :=
  .next (s.guarded g (fun s => s.noStrip (fun s =>
    s.rcopyOp h (s.getS (pairEven a)) (s.getS (pairOdd a)) (s.getS (pairEven b)) (s.getS (pairOdd b)))))

/-- The checks of R160 but the third, for no element width is read. -/
def execRcopyShape (g : Guard) (h : Fin 8) (a : Fin 64) (b : Fin 32) (s : State) : Res :=
  .next (s.guarded g (fun s =>
    s.vIssue { regs := [a], width := 0, okType := true, reads := [] } (fun s => s.noStrip (fun s =>
      s.rcopyShapeOp h a (s.getS b)))))

def execRwp (g : Guard) (d : Fin 32) (h : Fin 8) (s : State) : Res :=
  .next (s.guarded g (fun s => (s.setS d (s.core.chans[h]).wp).advance))

def execRcancel (g : Guard) (h : Fin 8) (s : State) : Res :=
  .next (s.guarded g (fun s => (s.cancelChan h).advance))

def execRqry (g : Guard) (d : Fin 32) (h : Fin 8) (s : State) : Res :=
  .next (s.guarded g (fun s => (s.setS d (s.core.chans[h]).query).advance))

def execRelayChunk (core ch : Nat) (s : State) : Res := .next (s.onCore core (fun s => s.chunkOp (Fin.ofNat 8 ch)))
def execRelayBeat (core ch : Nat) (s : State) : Res := .next (s.onCore core (fun s => s.beatOp (Fin.ofNat 8 ch)))

/-- The last byte has been delivered: the baton is signalled (Table 12). -/
def execRelayComplete (core ch : Nat) (s : State) : Res :=
  .next (s.onCore core (fun s =>
    match (s.core.chans[Fin.ofNat 8 ch]).state, (s.core.chans[Fin.ofNat 8 ch]).cmd with
    | .inFlight, some m => if (s.core.chans[Fin.ofNat 8 ch]).done = m.len then s.relayEnd (Fin.ofNat 8 ch) m false else s
    | _, _ => s))

/-- The beats in flight at a cancel are over (R151). -/
def execRelayCancelComplete (core ch : Nat) (s : State) : Res :=
  .next (s.onCore core (fun s =>
    match (s.core.chans[Fin.ofNat 8 ch]).state, (s.core.chans[Fin.ofNat 8 ch]).cmd with
    | .cancelling, some m => s.relayEnd (Fin.ofNat 8 ch) m true
    | _, _ => s))

end Sys2Proof.Machine
end

