-- ==== Sys2Proof/Machine/Fetch.lean ====
section
/-! DEFINITION. What comes before an instruction's own meaning: fetch (spec/08_encoding.md R201), decode (R208), the limits
of handler code (spec/06 R181, spec/12 R319), the forming of convoys (spec/08 R210, spec/10 R274), and uncorrectable scalar
operands (spec/15 R380). -/

namespace Sys2Proof.Machine

/-- What the core must know of an instruction before it executes it. -/
structure Traits where
  privOnly : Bool
  creg    : Option (Fin 64 × Bool)
  mayWait : Bool
  byRows  : Bool
  handler : Bool
  miss    : Bool
  member  : Option (Bool × Member)
  guards  : List (Fin 8)
  scalars : List (Fin 32)
  deriving DecidableEq, Repr

def traitsOfInstr (i : Instr) : Traits := ⟨i.privOnly, i.creg, i.mayWait, i.byRows, i.inHandler, i.inMissHandler, i.member, i.guards, i.scalars⟩

/-- The traits of a word, or none where it does not decode. -/
noncomputable def traitsOf (w : Nat) : Option Traits :=
  match decode w with
  | .ok i => some (traitsOfInstr i)
  | .error _ => none

/-- Whether a word's major is one that reduced service leaves unassigned (R413). -/
def matrixMajor (w : Nat) : Bool := decide (0x30 ≤ w / 2 ^ 26) && decide (w / 2 ^ 26 ≤ 0x33)

/-- The traits of a word that decodes in the service the module gives. -/
def State.known (s : State) (w : Nat) (t : Option Traits) : Option Traits :=
  if s.sys.reduced && matrixMajor w then none else t

/-- What a fetch and its checks come to: the fetch waits; a cause of the fetch; a word that does not decode; an end before
the instruction, with the state after it; a handler at its limit; or the word to execute. -/
inductive Ready where
  | wait
  | fetchFault (c : Cause)
  | undecoded (w : Nat) (s : State)
  | ended (s : State)
  | limit
  | run (w : Nat) (s : State)

/-! ## Fetch (R201) -/

/-- The word at `pc`: the alignment comes first. -/
def State.fetchAt (s : State) (pc : Word) : Except Stop Nat :=
  if pc.toNat % 4 != 0 then .error (.cause .fetchMisaligned s) else s.fetchWord s.me pc

/-- The fetch cache takes the page of a word fetched, where the core's cache holds it (R48). -/
def State.refilled (s : State) (pc : Word) : State :=
  if isNear pc then s else s.modCore (fun c => c.refillFetch c.run.asid.toNat (pc.toNat % 2 ^ 56))

/-! ## Convoys (R210, R274) -/

/-- A convoy that cannot form traps as a whole, before any element: MEMBER is the position of the word at fault. -/
def State.raiseForm (s : State) (cause : Cause) (member : Nat) (addr : Word) (w : Nat) : State :=
  let t : Trap := { cause := cause, addr := addr, insn := some (BitVec.ofNat 32 w), member := some member }
  if isDataCause cause then s.raiseDataTrap t else s.raiseTrap t

/-- What the words after a convoy's first member come to. -/
inductive Formed where
  | wait
  | trap (c : Cause) (member : Nat) (addr : Word) (w : Nat)
  | ok (words : List Nat) (members : List Member)

/-- The words from position `k` on, one after another, until one has C = 0; at most `fuel` of them. `find` gives a word's
traits. -/
def State.formFrom (s : State) (find : Nat → Option Traits) (k : Nat) (words : List Nat) (members : List Member) :
    Nat → Formed
  | 0 => .ok words members
  | fuel + 1 =>
    let pc := s.core.run.pc + w64 (4 * k)
    match s.fetchAt pc with
    | .error .wait => .wait
    | .error (.cause c _) => .trap c k pc 0
    | .ok w =>
      if !bitAt w 21 then .ok words members
      else match s.known w (find w) with
        | none => .trap (if s.sys.reduced && matrixMajor w then .illegalInstruction else undecodedCause w) k 0 w
        | some t => match t.member with
          | none => .trap .convoyConflict k 0 w
          | some (_, m) =>
            if Member.conflicts members m then .trap .convoyConflict k 0 w
            else State.formFrom s find (k + 1) (words ++ [w]) (members ++ [m]) fuel

/-- The word of the next member of the convoy in progress: it has been fetched already (R210). -/
def Coro.nextWord (c : Coro) : Option (BitVec 32) :=
  match c.convoy with
  | none => none
  | some v => if c.pc = v.start + w64 (4 * v.at_) then v.members[v.at_]? else none

/-- The next word: a convoy's members are fetched as it forms, any other word when it executes. -/
def State.nextFetch (s : State) : Except Stop Nat :=
  match s.core.run.nextWord with
  | some w => .ok w.toNat
  | none => s.fetchAt s.core.run.pc

/-- A class C word executes as a member of the convoy in progress, or, with C = 0, forms a new one. -/
def State.joinConvoy (s : State) (find : Nat → Option Traits) (w : Nat) (c : Bool) (m : Member) : Ready :=
  let s0 := s.modRun (fun x => { x with convoy := none })
  match s.core.run.nextWord, c with
  | some _, _ => .run w s
  | none, true => .ended (s0.raise .convoyConflict)
  | none, false => match s0.formFrom find 1 [w] [m] 4 with
    | .wait => .wait
    | .trap e k a x => .ended (s0.raiseForm e k a x)
    | .ok ws ms =>
      .run w (s0.modRun (fun x => { x with
        convoy := some ⟨x.pc, ws.map (BitVec.ofNat 32), 0, ms.any (·.cross), ms.any (·.mixed)⟩ }))

/-! ## Uncorrectable scalar operands (R380) -/

/-- The first guard or scalar register that the word reads and whose contents are lost, with its number. -/
def State.lostScalar (s : State) (t : Traits) (w : Nat) : Option (EccMark × Nat) :=
  let c := s.core.run
  let g := (t.guards.find? (fun g => g != 7 && c.ecc.contains (.guard g))).map (fun g => (EccMark.guard g, 32 + g.val))
  let on := t.guards.isEmpty || c.guardOn (guardOf w)
  let r := (t.scalars.find? (fun r => r != 0 && (s.core.px.isNone || r.val < 24) && c.ecc.contains (.sreg r))).map
    (fun r => (EccMark.sreg r, r.val))
  match g with
  | some x => some x
  | none => if on then r else none

/-- DATA_SCALAR: the saved value is 0. -/
def State.raiseScalar (s : State) (m : EccMark) (n : Nat) : State :=
  let zero (c : Coro) : Coro := match m with
    | .sreg r => c.setS r 0
    | .guard i => c.setG i false
    | _ => c
  (s.modRun (fun c => { zero c with ecc := c.ecc.filter (· != m) })).raiseData .dataScalar n 0

/-! ## All of it -/

/-- Whether the word meets a cause of its decoding, which comes before any data error (R208, R360). -/
def State.decodeCause (s : State) (t : Traits) : Bool :=
  (t.privOnly && !s.core.run.priv) || (match t.creg with
    | none => false
    | some (n, write) => (s.cregCheck n.val write).isSome)

/-- Whether an instruction has no boundary inside it at which a pre-emption that has been asked for could stop it: the
coroutine stops before it, unless it has begun what cannot be begun again (R242, R371, R372). -/
def State.stopsBefore (s : State) (t : Traits) : Bool :=
  if s.core.run.inMidst && s.core.run.holdsOn then false
  else match s.core.run.convoy with
    | none => !t.byRows
    | some v => v.whole && v.at_ == 0

/-- The instruction runs, in a convoy if it is of class C; any other word ends the convoy in progress. -/
def State.takeIn (s : State) (find : Nat → Option Traits) (w : Nat) (t : Traits) : Ready :=
  let r : Ready := match t.member with
    | some (c, m) => s.joinConvoy find w c m
    | none => .run w (s.modRun (fun x => { x with convoy := none }))
  match r with
  | .run w s1 => match s1.core.cut with
    | some (_, why) =>
      if s1.stopsBefore t then .ended ((s1.modCore (fun c => { c with cut := none })).preemptFor why)
      else if s1.decodeCause t then .run w s1
      else match s1.lostScalar t w with
        | some (m, n) => .ended (s1.raiseScalar m n)
        | none => .run w s1
    | none =>
      if s1.decodeCause t then .run w s1
      else match s1.lostScalar t w with
        | some (m, n) => .ended (s1.raiseScalar m n)
        | none => .run w s1
  | x => x

/-- The count of a handler's instructions with the one at `pc`, which counts once however often it is issued. -/
def countOne (n : Nat) (last : Option Word) (pc : Word) (t : Traits) : Nat × Option Word :=
  if last = some pc then (n, last) else (n + 1, if t.mayWait then some pc else none)

/-- One instruction of the core in focus, up to its meaning. -/
def State.ready (s : State) (find : Nat → Option Traits) : Ready :=
  let pc := s.core.run.pc
  match s.nextFetch with
  | .error .wait => .wait
  | .error (.cause c _) => .fetchFault c
  | .ok w =>
    let s1 := (s.refilled pc).modCore (fun c => { c with insn := BitVec.ofNat 32 w })
    match s1.known w (find w) with
    | none => .undecoded w s1
    | some t => match s1.core.slot with
      | some r =>
        let n := countOne r.count r.last pc t
        if 256 < n.1 || !t.handler then .limit
        else .run w (s1.modCore (fun c => { c with slot := some { r with count := n.1, last := n.2 } }))
      | none => match s1.core.px with
        | some p =>
          let n := countOne p.count p.last pc t
          if 512 < n.1 || !t.miss then .ended (s1.raiseTrap { cause := .none })
          else s1.modCore (fun c => { c with px := some { p with count := n.1, last := n.2 } }) |>.takeIn find w t
        | none => s1.takeIn find w t

end Sys2Proof.Machine
end

