-- ==== Sys2Proof/Machine/RunAhead.lean ====
section
/-! DEFINITION. The run-ahead pipeline (spec/01_address_spaces.md R44 to R48): the translations that a vector or matrix
memory instruction will use, found before it enters the memory pipeline. Its results change no other state. -/

namespace Sys2Proof.Machine

/-- Where the elements of a vector memory instruction lie, under which guard, and how they are accessed. -/
def Instr.aheadForm : Instr → Option (Guard × AddrForm × Access)
  | .vld g _ _ a _ _ | .vldWp g _ _ a _ => some (g, .packed a, .read)
  | .vst g _ _ a _ _ => some (g, .packed a, .write)
  | .vlds g _ _ a _ _ => some (g, .strided a, .read)
  | .vsts g _ _ a _ _ => some (g, .strided a, .write)
  | .vldt g _ _ a _ _ => some (g, .tile a, .read)
  | .vstt g _ _ a _ _ => some (g, .tile a, .write)
  | .vldx g _ _ a v => some (g, .indexed a v, .read)
  | .vstx g _ _ a v => some (g, .indexed a v, .write)
  | .vldn g _ _ v => some (g, .shape v, .read)
  | .vstn g _ _ v => some (g, .shape v, .write)
  | .vatomAdd g _ v _ _ | .vatomMin g _ v _ _ | .vatomMax g _ v _ _ | .vatomAnd g _ v _ _ | .vatomOr g _ v _ _
  | .vatomXor g _ v _ _ | .vatomSwap g _ v _ _ | .vatomCas g _ v _ _ => some (g, .each v, .atomic)
  | .vwait g _ v _ => some (g, .each v, .read)
  | _ => none

/-- The vector register that a form's addresses come from (R46). -/
def AddrForm.index : AddrForm → List (Fin 64)
  | .indexed _ v | .shape v | .each v => [v]
  | _ => []

/-- The vector registers that an instruction outside convoys writes, if the pipeline may go past it. -/
def Instr.aheadWrites : Instr → Option (List (Fin 64))
  | .vatomAdd _ d _ _ _ | .vatomMin _ d _ _ _ | .vatomMax _ d _ _ _ | .vatomAnd _ d _ _ _ | .vatomOr _ d _ _ _
  | .vatomXor _ d _ _ _ | .vatomSwap _ d _ _ _ => some [d]
  | .vatomCas _ d _ _ _ => some [vpairOdd d]
  | _ => none

/-- How far the pipeline has come: the memory instructions that it has passed, the position in its convoy of the next word,
the positions whose VSTART registers earlier convoys leave zero, and what the words passed have yet to produce. -/
structure Ahead where
  n   : Nat
  pos : Nat
  top : Nat
  wv  : List (Fin 64) := []
  wm  : List (Fin 8) := []
  ws  : List (Fin 32) := []

/-- What a memory instruction needs before it is enumerated, how it is accessed, and its elements with their bytes. -/
structure AheadOp where
  index   : List (Fin 64)
  mask    : Fin 8
  scalars : List (Fin 32)
  acc     : Access
  els     : List (Word × Nat)

/-- Whether everything that it needs has been produced (R46). -/
def AheadOp.ready (o : AheadOp) (x : Ahead) : Bool := !meet o.index x.wv && !x.wm.contains o.mask && !meet o.scalars x.ws

/-- The coroutine as a word at convoy position `pos` finds it (R44). -/
def Coro.aheadAt (c : Coro) (x : Ahead) (pos : Nat) : Coro :=
  { c with convoy := some ⟨c.pc, [], pos, false, false⟩, vstart := c.vstart.mapIdx (fun i v => if i < x.top then ⟨0, 0⟩ else v) }

/-- The memory access of a word, if it has one that the pipeline handles and its shape record does not stop. -/
def State.aheadOp (s : State) (c : Coro) (w : Nat) (i : Option Instr) : Option AheadOp :=
  if w / 2 ^ 26 = 0x32 then
    if w % 8 = 2 || w % 8 = 3 then
      let a : Fin 32 := fieldAt w 9 32
      let t := s.modRun (fun _ => c)
      some ⟨[], (guardOf w).idx, [a], if w % 8 = 2 then .read else .write,
        (t.rowEls a (c.rowsOn (guardOf w) c.mM)).map (fun x => (x.addr, 4))⟩
    else none
  else match i with
    | none => none
    | some i => match Instr.aheadForm i with
      | none => none
      | some (g, f, acc) => if c.shapeBad f then none else some ⟨f.index, g.idx, i.scalars, acc,
          (c.enumerate g f c.tyBytes).map (fun x => (x.addr, c.tyBytes))⟩

/-- The translations of some elements join the core's cache, up to the first that fails; and whether none did (R37, R45). -/
def State.aheadEls (s : State) (acc : Access) : List (Word × Nat) → State × Bool
  | [] => (s, true)
  | (a, n) :: xs =>
    match s.translateAccess s.me acc false a n with
    | .error _ => (s, false)
    | .ok _ =>
      let asid := s.core.run.asid.toNat
      State.aheadEls ((s.walkFor asid [acc] a).walkFor asid [acc] (a + w64 (n - 1))) acc xs

/-- One word of the pipeline's: the state after it, and how far the pipeline has come if it goes on. It goes past vector
instructions of convoys and `vatom`, `mld` and `mst`, and stops at any other word, at an access that is not ready, at one that
fails and past 8 memory instructions. -/
def State.aheadWord (s : State) (x : Ahead) (w : Nat) : State × Option Ahead :=
  let i := decodeLow w
  let m := i.bind Instr.member
  let pos := match m with
    | some (true, _) => x.pos
    | _ => 0
  let x0 : Ahead := if pos = 0 then { x with top := max x.top x.pos } else x
  let after (x : Ahead) : Option Ahead := match m with
    | some (_, e) => some { x with pos := pos + 1, wv := x.wv ++ e.wv, wm := x.wm ++ e.wm, ws := x.ws ++ e.ws }
    | none =>
      if w / 2 ^ 26 = 0x32 then some { x with pos := 1 }
      else (i.bind Instr.aheadWrites).map (fun d => { x with pos := 1, wv := x.wv ++ d })
  match s.aheadOp (s.core.run.aheadAt x0 pos) w i with
  | none => (s, after x0)
  | some o =>
    if 8 < x.n || !o.ready x0 then (s, none)
    else
      let r := s.aheadEls o.acc o.els
      (r.1, if r.2 then after { x0 with n := x0.n + 1 } else none)

/-- The words from `pc` to `last`, in program order (R44). -/
def State.aheadFrom (s : State) (last : Word) : Nat → Ahead → Word → State
  | 0, _, _ => s
  | fuel + 1, x, pc =>
    match s.fetchWord s.me pc with
    | .error _ => s
    | .ok w => match s.aheadWord x w with
      | (s1, none) => s1
      | (s1, some y) => if pc = last then s1 else State.aheadFrom s1 last fuel y (pc + 4)

/-- The run-ahead pipeline of the running coroutine goes from its program counter to the word at `pc`, at most 256 words on. -/
def State.runAheadOp (s : State) (pc : Word) : State :=
  let c := s.core.run
  let words := (pc - c.pc).toNat / 4 + 1
  if s.core.live != .running || s.core.slot.isSome || 256 < words then s
  else s.aheadFrom pc words ⟨0, if c.nextWord.isSome then c.pos.val else 0, 0, [], [], []⟩ c.pc

def execRunAheadTranslation (core : Nat) (pc : Word) (s : State) : Res :=
  .next (s.onCore core (fun s => s.runAheadOp pc))

end Sys2Proof.Machine
end

