-- ==== Sys2Proof/Machine/Scalar.lean ====
section
/-! DEFINITION. Scalar integer instructions (spec/09_scalar_control.md R228 to R231): majors 0x00 to 0x08. -/

namespace Sys2Proof.Machine

/-! ## Operations on 64-bit words (R183, R228, R229) -/

/-- Signed and unsigned division and remainder, with the cases of Table 1 of spec/07_arithmetic.md. -/
def divS (a b : Word) : Word := if b = 0 then -1 else a.sdiv b
def divU (a b : Word) : Word := if b = 0 then -1 else a / b
def remS (a b : Word) : Word := if b = 0 then a else a.srem b
def remU (a b : Word) : Word := if b = 0 then a else a % b

/-- High halves of the 128-bit products. -/
def mulHigh (a b : Word) : Word := BitVec.ofInt 64 (a.toInt * b.toInt / 2 ^ 64)
def mulHighU (a b : Word) : Word := w64 (a.toNat * b.toNat / 2 ^ 64)

/-- Shifts by the low six bits of `b`. -/
def shl (a b : Word) : Word := a <<< (b.toNat % 64)
def shr (a b : Word) : Word := a >>> (b.toNat % 64)
def sar (a b : Word) : Word := a.sshiftRight (b.toNat % 64)

def minS (a b : Word) : Word := if a.slt b then a else b
def maxS (a b : Word) : Word := if a.slt b then b else a
def minU (a b : Word) : Word := if a < b then a else b
def maxU (a b : Word) : Word := if a < b then b else a

/-- Leading zero bits of the `n` low bits of a number, counted from bit `n - 1`. -/
def leadZeros : Nat → Nat → Nat
  | 0, _ => 0
  | n + 1, x => if bitAt x n then 0 else 1 + leadZeros n x

/-- Trailing zero bits of the `n` low bits of a number. -/
def trailZeros : Nat → Nat → Nat
  | 0, _ => 0
  | n + 1, x => if x % 2 = 1 then 0 else 1 + trailZeros n (x / 2)

def countLead (a : Word) : Word := w64 (leadZeros 64 a.toNat)
def countTrail (a : Word) : Word := w64 (trailZeros 64 a.toNat)
def countOnes (a : Word) : Word := w64 (popLow 64 a.toNat)

/-- The eight bytes in reverse order. -/
def reverseBytes (a : Word) : Word := w64 (leNat (leBytes 8 a.toNat).reverse)

/-- The field that a control word names (R229): its lowest bit, and its length cut at bit 63. -/
def fieldLow (b : Word) : Nat := b.toNat % 64
def fieldLen (b : Word) : Nat := min (min (bits b.toNat 14 8) 64) (64 - fieldLow b)

/-- `bfx`, `bfxs` and `bfi` (R229). -/
def fieldGet (a b : Word) : Word := w64 (a.toNat / 2 ^ fieldLow b % 2 ^ fieldLen b)
def fieldGetS (a b : Word) : Word :=
  if fieldLen b = 0 then 0 else BitVec.ofInt 64 (toSigned (fieldLen b) (a.toNat / 2 ^ fieldLow b))
def fieldPut (d a b : Word) : Word :=
  if fieldLen b = 0 then d else w64 (setBits d.toNat (fieldLow b + fieldLen b - 1) (fieldLow b) a.toNat)

/-! ## Forms -/

/-- `sd` receives `f sa sb`. -/
def State.alu (s : State) (g : Guard) (d a b : Fin 32) (f : Word → Word → Word) : State :=
  s.guarded g (fun s => (s.setS d (f (s.getS a) (s.getS b))).advance)

/-- `sd` receives `f sa`. -/
def State.alu1 (s : State) (g : Guard) (d a : Fin 32) (f : Word → Word) : State :=
  s.guarded g (fun s => (s.setS d (f (s.getS a))).advance)

/-- A compare writes one guard, or a guard and its complement (R230). -/
def State.compare (s : State) (g : Guard) (d : Fin 64) (a b : Fin 32) (f : Word → Word → Bool) : State :=
  s.guarded g (fun s => (s.setGPair d (f (s.getS a) (s.getS b))).advance)

/-- `gand` and `gor` (R230). -/
def State.combine (s : State) (g : Guard) (d : Fin 64) (a b : Fin 8) (f : Bool → Bool → Bool) : State :=
  s.guarded g (fun s => (s.setGPair d (f (s.core.run.getG a) (s.core.run.getG b))).advance)

/-! ## Meanings -/

/-- The canonical no-op changes only the program counter (R203). -/
def execNop (s : State) : Res := .next s.advance

def execAdd (g : Guard) (d a b : Fin 32) (s : State) : Res := .next (s.alu g d a b (· + ·))
def execSub (g : Guard) (d a b : Fin 32) (s : State) : Res := .next (s.alu g d a b (· - ·))
def execAnd (g : Guard) (d a b : Fin 32) (s : State) : Res := .next (s.alu g d a b (· &&& ·))
def execOr (g : Guard) (d a b : Fin 32) (s : State) : Res := .next (s.alu g d a b (· ||| ·))
def execXor (g : Guard) (d a b : Fin 32) (s : State) : Res := .next (s.alu g d a b (· ^^^ ·))
def execSll (g : Guard) (d a b : Fin 32) (s : State) : Res := .next (s.alu g d a b shl)
def execSrl (g : Guard) (d a b : Fin 32) (s : State) : Res := .next (s.alu g d a b shr)
def execSra (g : Guard) (d a b : Fin 32) (s : State) : Res := .next (s.alu g d a b sar)
def execMul (g : Guard) (d a b : Fin 32) (s : State) : Res := .next (s.alu g d a b (· * ·))
def execMulh (g : Guard) (d a b : Fin 32) (s : State) : Res := .next (s.alu g d a b mulHigh)
def execMulhu (g : Guard) (d a b : Fin 32) (s : State) : Res := .next (s.alu g d a b mulHighU)
def execDiv (g : Guard) (d a b : Fin 32) (s : State) : Res := .next (s.alu g d a b divS)
def execDivu (g : Guard) (d a b : Fin 32) (s : State) : Res := .next (s.alu g d a b divU)
def execRem (g : Guard) (d a b : Fin 32) (s : State) : Res := .next (s.alu g d a b remS)
def execRemu (g : Guard) (d a b : Fin 32) (s : State) : Res := .next (s.alu g d a b remU)
def execMin (g : Guard) (d a b : Fin 32) (s : State) : Res := .next (s.alu g d a b minS)
def execMax (g : Guard) (d a b : Fin 32) (s : State) : Res := .next (s.alu g d a b maxS)
def execMinu (g : Guard) (d a b : Fin 32) (s : State) : Res := .next (s.alu g d a b minU)
def execMaxu (g : Guard) (d a b : Fin 32) (s : State) : Res := .next (s.alu g d a b maxU)
def execClz (g : Guard) (d a : Fin 32) (s : State) : Res := .next (s.alu1 g d a countLead)
def execCtz (g : Guard) (d a : Fin 32) (s : State) : Res := .next (s.alu1 g d a countTrail)
def execPopc (g : Guard) (d a : Fin 32) (s : State) : Res := .next (s.alu1 g d a countOnes)
def execRev (g : Guard) (d a : Fin 32) (s : State) : Res := .next (s.alu1 g d a reverseBytes)

/-- `sel` is always executed: its guard chooses the operand (R229). -/
def execSel (g : Guard) (d a b : Fin 32) (s : State) : Res :=
  .next (s.setS d (if s.core.run.guardOn g then s.getS a else s.getS b)).advance

def execBfx (g : Guard) (d a b : Fin 32) (s : State) : Res := .next (s.alu g d a b fieldGet)
def execBfxs (g : Guard) (d a b : Fin 32) (s : State) : Res := .next (s.alu g d a b fieldGetS)
def execBfi (g : Guard) (d a b : Fin 32) (s : State) : Res :=
  .next (s.guarded g (fun s => (s.setS d (fieldPut (s.getS d) (s.getS a) (s.getS b))).advance))

def execCmpEq (g : Guard) (d : Fin 64) (a b : Fin 32) (s : State) : Res := .next (s.compare g d a b (· == ·))
def execCmpNe (g : Guard) (d : Fin 64) (a b : Fin 32) (s : State) : Res := .next (s.compare g d a b (· != ·))
def execCmpLt (g : Guard) (d : Fin 64) (a b : Fin 32) (s : State) : Res := .next (s.compare g d a b BitVec.slt)
def execCmpLtu (g : Guard) (d : Fin 64) (a b : Fin 32) (s : State) : Res := .next (s.compare g d a b BitVec.ult)
def execCmpLe (g : Guard) (d : Fin 64) (a b : Fin 32) (s : State) : Res := .next (s.compare g d a b BitVec.sle)
def execCmpLeu (g : Guard) (d : Fin 64) (a b : Fin 32) (s : State) : Res := .next (s.compare g d a b BitVec.ule)
def execGand (g : Guard) (d : Fin 64) (a b : Fin 8) (s : State) : Res := .next (s.combine g d a b (· && ·))
def execGor (g : Guard) (d : Fin 64) (a b : Fin 8) (s : State) : Res := .next (s.combine g d a b (· || ·))

/-- Immediate forms (R231): nine bits signed, six bits unsigned. -/
def execAddi (g : Guard) (d a : Fin 32) (i : BitVec 9) (s : State) : Res :=
  .next (s.alu1 g d a (· + i.signExtend 64))
def execAndi (g : Guard) (d a : Fin 32) (u : BitVec 6) (s : State) : Res := .next (s.alu1 g d a (· &&& u.setWidth 64))
def execOri (g : Guard) (d a : Fin 32) (u : BitVec 6) (s : State) : Res := .next (s.alu1 g d a (· ||| u.setWidth 64))
def execXori (g : Guard) (d a : Fin 32) (u : BitVec 6) (s : State) : Res := .next (s.alu1 g d a (· ^^^ u.setWidth 64))
def execSlli (g : Guard) (d a : Fin 32) (u : BitVec 6) (s : State) : Res := .next (s.alu1 g d a (· <<< u.toNat))
def execSrli (g : Guard) (d a : Fin 32) (u : BitVec 6) (s : State) : Res := .next (s.alu1 g d a (· >>> u.toNat))
def execSrai (g : Guard) (d a : Fin 32) (u : BitVec 6) (s : State) : Res := .next (s.alu1 g d a (·.sshiftRight u.toNat))
def execLi (g : Guard) (d : Fin 32) (i : BitVec 15) (s : State) : Res :=
  .next (s.guarded g (fun s => (s.setS d (i.signExtend 64)).advance))
def execLis (g : Guard) (d : Fin 32) (i : BitVec 15) (s : State) : Res :=
  .next (s.alu1 g d d (fun x => (x <<< 15) ||| i.setWidth 64))

end Sys2Proof.Machine
end

