-- ==== Sys2Proof/Machine/ScalarFp.lean ====
section
/-! DEFINITION. Scalar floating point (spec/09_scalar_control.md R232 to R234): majors 0x0A to 0x0C. -/

namespace Sys2Proof.Machine

/-- Low bits of a register that a format reads; the upper bits are ignored (R232). -/
def State.getF (s : State) (f : Fmt) (r : Fin 32) : Nat := (s.getS r).toNat % 2 ^ f.width

/-- A binary operation in format `f`, rounded once with FRM. -/
def State.fop (s : State) (g : Guard) (d a b : Fin 32) (f : Fmt) (op : Rm → Nat → Nat → Nat × Flags) : State :=
  s.guarded g (fun s => s.finishFp d (op s.core.run.arithRm (s.getF f a) (s.getF f b)))

/-- Minimum or maximum (R188), which do not round. -/
def State.fminmax (s : State) (g : Guard) (d a b : Fin 32) (f : Fmt) (isMax : Bool) : State :=
  s.guarded g (fun s => s.finishFp d (f.minmax isMax (s.getF f a) (s.getF f b)))

/-- `fma`, which reads its destination, and `fsqrt`. -/
def State.ffma (s : State) (g : Guard) (d a b : Fin 32) (f : Fmt) : State :=
  s.guarded g (fun s => s.finishFp d (f.fma s.core.run.arithRm (s.getF f a) (s.getF f b) (s.getF f d)))
def State.fsqrt (s : State) (g : Guard) (d a : Fin 32) (f : Fmt) : State :=
  s.guarded g (fun s => s.finishFp d (f.sqrt s.core.run.arithRm (s.getF f a)))

/-- A comparison (R233): 0 equal, 1 less, 2 less or equal. -/
def State.fcompare (s : State) (g : Guard) (d : Fin 64) (a b : Fin 32) (f : Fmt) (cc : Nat) : State :=
  s.guarded g (fun s => s.finishFcmp d (f.compare cc (s.getF f a) (s.getF f b)))

/-! ## Conversions (R234, Table 3) -/

/-- The format of a conversion kind, 4 to 7. -/
def kindFmt (k : Fin 8) : Fmt := if k = 4 then .f64 else if k = 5 then .f32 else if k = 6 then .f16 else .bf16

/-- Integer width and signedness of a kind, 0 to 3. -/
def kindWidth (k : Fin 8) : Nat := if k.val < 2 then 64 else 32
def kindSigned (k : Fin 8) : Bool := k.val % 2 == 0

/-- The conversion of a 64-bit register from kind `sc` to kind `t`. -/
def convert (rm : Rm) (t sc : Fin 8) (x : Word) : Word × Flags :=
  if 4 ≤ sc.val then
    let v := x.toNat % 2 ^ (kindFmt sc).width
    if 4 ≤ t.val then
      let r := (kindFmt sc).toFmt (kindFmt t) rm v
      (w64 r.1, r.2)
    else
      let r := (kindFmt sc).toInt rm (kindWidth t) (kindSigned t) v
      (if kindSigned t then BitVec.ofInt 64 (toSigned (kindWidth t) r.1) else w64 r.1, r.2)
  else
    let n := x.toNat % 2 ^ kindWidth sc
    let i : Int := if kindSigned sc then toSigned (kindWidth sc) n else n
    let r := (kindFmt t).ofInt rm i
    (w64 r.1, r.2)

/-! ## Meanings -/

def execFaddF64 (g : Guard) (d a b : Fin 32) (s : State) : Res := .next (s.fop g d a b .f64 (Fmt.add .f64))
def execFsubF64 (g : Guard) (d a b : Fin 32) (s : State) : Res := .next (s.fop g d a b .f64 (Fmt.sub .f64))
def execFmulF64 (g : Guard) (d a b : Fin 32) (s : State) : Res := .next (s.fop g d a b .f64 (Fmt.mul .f64))
def execFdivF64 (g : Guard) (d a b : Fin 32) (s : State) : Res := .next (s.fop g d a b .f64 (Fmt.div .f64))
def execFminF64 (g : Guard) (d a b : Fin 32) (s : State) : Res := .next (s.fminmax g d a b .f64 false)
def execFmaxF64 (g : Guard) (d a b : Fin 32) (s : State) : Res := .next (s.fminmax g d a b .f64 true)
def execFmaF64 (g : Guard) (d a b : Fin 32) (s : State) : Res := .next (s.ffma g d a b .f64)
def execFsqrtF64 (g : Guard) (d a : Fin 32) (s : State) : Res := .next (s.fsqrt g d a .f64)
def execFcmpEqF64 (g : Guard) (d : Fin 64) (a b : Fin 32) (s : State) : Res := .next (s.fcompare g d a b .f64 0)
def execFcmpLtF64 (g : Guard) (d : Fin 64) (a b : Fin 32) (s : State) : Res := .next (s.fcompare g d a b .f64 1)
def execFcmpLeF64 (g : Guard) (d : Fin 64) (a b : Fin 32) (s : State) : Res := .next (s.fcompare g d a b .f64 2)
def execFaddF32 (g : Guard) (d a b : Fin 32) (s : State) : Res := .next (s.fop g d a b .f32 (Fmt.add .f32))
def execFsubF32 (g : Guard) (d a b : Fin 32) (s : State) : Res := .next (s.fop g d a b .f32 (Fmt.sub .f32))
def execFmulF32 (g : Guard) (d a b : Fin 32) (s : State) : Res := .next (s.fop g d a b .f32 (Fmt.mul .f32))
def execFdivF32 (g : Guard) (d a b : Fin 32) (s : State) : Res := .next (s.fop g d a b .f32 (Fmt.div .f32))
def execFminF32 (g : Guard) (d a b : Fin 32) (s : State) : Res := .next (s.fminmax g d a b .f32 false)
def execFmaxF32 (g : Guard) (d a b : Fin 32) (s : State) : Res := .next (s.fminmax g d a b .f32 true)
def execFmaF32 (g : Guard) (d a b : Fin 32) (s : State) : Res := .next (s.ffma g d a b .f32)
def execFsqrtF32 (g : Guard) (d a : Fin 32) (s : State) : Res := .next (s.fsqrt g d a .f32)
def execFcmpEqF32 (g : Guard) (d : Fin 64) (a b : Fin 32) (s : State) : Res := .next (s.fcompare g d a b .f32 0)
def execFcmpLtF32 (g : Guard) (d : Fin 64) (a b : Fin 32) (s : State) : Res := .next (s.fcompare g d a b .f32 1)
def execFcmpLeF32 (g : Guard) (d : Fin 64) (a b : Fin 32) (s : State) : Res := .next (s.fcompare g d a b .f32 2)

/-- `fcvt` rounds with FRM, mode 4 included (R234). -/
def execFcvt (g : Guard) (d a : Fin 32) (t sc : Fin 8) (s : State) : Res :=
  .next (s.guarded g (fun s =>
    let r := convert s.core.run.convRm t sc (s.getS a)
    ((s.setS d r.1).modRun (·.orFlags r.2)).advance))

end Sys2Proof.Machine
end

