-- ==== Sys2Proof/Machine/Switch.lean ====
section
/-! DEFINITION. The switch-tier instructions and the planes' own steps (spec/03_switch_tier.md R76 to R95, spec/11 R301):
major 0x2F, accesses of other modules, mirror images, merge locks, and planes going down and up. -/

namespace Sys2Proof.Machine

/-! ## Requests of other modules (R80, R87, R92, R95) -/

/-- The key of a request: none for a clear page. PRESUMED (log 6): the slot that another module names is looked up in this
module's own key slots, when the request is performed; R94 asks that every module hold the same key there. -/
def State.requestKey (s : State) (r : SwitchReq) : Option KeyMat := r.key.map s.keyMat

/-- What a request writes over the old bytes: a store's data, or what an atomic makes of them (R87). -/
def SwitchReqData (r : SwitchReq) (old : List Byte) : Option (List Byte) :=
  match r.atomic with
  | some (op, x, y) => (atomNew op r.len (leNat old) x y).map (leBytes r.len)
  | none => if r.write then some r.data else none

/-- A request cut at granule boundaries. -/
def cutRequest : Nat → SwitchReq → List SwitchReq
  | 0, _ => []
  | n + 1, r =>
    let m := min r.len (64 - r.offset % 64)
    if r.len = 0 then []
    else { r with len := m, data := r.data.take m } ::
      cutRequest n { r with offset := r.offset + m, len := r.len - m, data := r.data.drop m }

/-- Whether the plane holds an access back: another store has its granule locked. -/
def State.lockedAgainst (s : State) (p : Nat) (r : SwitchReq) : Bool :=
  (s.plane p).locks.any (fun l => l.1 == r.offset / 64 && l.2 != r)

/-- Whether a confidential store covers only a part of its granule, so that it is merged under a lock (R95). -/
def needsMerge (r : SwitchReq) : Bool := r.write && r.atomic.isNone && r.key.isSome && r.len != 64

/-- The image of a granule goes to the partner of a mirrored allocation (R90). -/
def State.sendImage (s : State) (p g : Nat) : State :=
  let x := s.plane p
  s.push (.mirrorImageInstall ⟨partnerOf p, g, x.seq g, s.mem.read (planeStore p + 64 * g) 64, (x.sealOf g).map (·.1),
    s.granuleBad p g⟩)

/-- A confidential store of a part of a granule locks it; its write follows, or the lock lapses (R95). -/
def State.lockGranule (s : State) (p : Nat) (over_ : Bool) (r : SwitchReq) : State :=
  let g := r.offset / 64
  ((s.setPlane p { s.plane p with locks := (g, r) :: (s.plane p).locks }).push
    (if over_ then .failoverAccess r else .switchAccess r)).push (.mergeLockLapse p g)

/-- One granule's part of a request performed at plane `p` for allocation `a`. -/
def State.performAt (s : State) (p : Nat) (a : Alloc) (r : SwitchReq) : State :=
  let g := r.offset / 64
  match s.granuleDo p g (r.offset % 64) r.len (!r.write || r.atomic.isSome) (s.requestKey r) none (SwitchReqData r) with
  | .error _ => s
  | .ok (_, s1) => if (r.write || r.atomic.isSome) && a.state == .mirrored && p == a.plane then s1.sendImage p g else s1

/-- A request's turn at plane `p`, in the order of arrival: it is held back by another store's lock, takes a lock of its
own, or is performed (R87, R95). -/
def State.turnAt (s : State) (p : Nat) (over_ : Bool) (a : Alloc) (r : SwitchReq) : State :=
  if s.lockedAgainst p r then s.setPlane p { s.plane p with held := (s.plane p).held ++ [(over_, r)] }
  else if needsMerge r then s.lockGranule p over_ r
  else s.performAt p a r

/-- The allocation for which a plane serves an access after the generation check and the ownership check: none where it
refuses it, and nothing is written (R80). A primary whose partner serves the allocation refuses it with SWITCH_TIER_LOST. -/
def State.servedHere (s : State) (r : SwitchReq) : Option Alloc :=
  let x := s.plane r.plane
  if !x.up || x.gen.toNat % 32 != r.tag then none
  else (s.allocs.find? (fun a => a.plane == r.plane && a.listed && a.covers r.offset)).filter (·.tenant == r.tenant)

/-- The partner's mirror record for a failover access (R92). -/
def State.servedOver (s : State) (r : SwitchReq) : Option Alloc :=
  if !(s.plane (partnerOf r.plane)).up then none
  else (s.allocs.find? (fun a => a.plane == r.plane && a.tag == r.tag && a.onPartner && a.covers r.offset)).filter
    (·.tenant == r.tenant)

/-- One part of a request, at the primary or, as a failover access, at the partner. -/
def State.serveOne (s : State) (over_ : Bool) (r : SwitchReq) : State :=
  if over_ then match s.servedOver r with
    | none => s
    | some a =>
      let b := a.failsOver (s.plane r.plane).up
      ((s.settleImages (partnerOf r.plane)).setAlloc b).turnAt (partnerOf r.plane) true b r
  else match s.servedHere r with
    | none => s
    | some a => if a.left then s.push (.failoverAccess r) else s.turnAt r.plane false a r

/-- The lock of a granule goes, and with it its lapse; the accesses that it held back have their turns. -/
def State.unlock (s : State) (p g : Nat) : State :=
  let x := s.plane p
  let here (h : Bool × SwitchReq) : Bool := h.2.offset / 64 == g
  let s1 : State := { s.setPlane p { x with locks := x.locks.filter (·.1 != g), held := x.held.filter (fun h => !here h) } with
    agenda := s.agenda.filter (· != .mergeLockLapse p g) }
  (x.held.filter here).foldl (fun t h => t.serveOne h.1 h.2) s1

/-- The write of a merge under way, which ends its lock; none where the request holds no lock. A primary whose partner has come
to serve the allocation refuses it, and its module repeats the merge there (R92, R95). -/
def State.endMerge (s : State) (p : Nat) (over_ : Bool) (r : SwitchReq) : Option State :=
  let g := r.offset / 64
  if !(s.plane p).locks.any (fun l => l.1 == g && l.2 == r) then none
  else match if over_ then s.servedOver r else s.servedHere r with
    | none => some (s.unlock p g)
    | some a =>
      if !over_ && a.left then some ((s.unlock p g).push (.failoverAccess r))
      else some ((s.performAt p a r).unlock p g)

/-- A plane serves a request of another module (R87). -/
def State.switchServe (s : State) (r : SwitchReq) : State := (s.endMerge r.plane false r).getD (s.serveOne false r)

/-- The partner serves a failover access (R92). -/
def State.failoverServe (s : State) (r : SwitchReq) : State :=
  (s.endMerge (partnerOf r.plane) true r).getD (s.serveOne true r)

/-- A partner installs an image for an allocation of which it holds a copy (R90). -/
def State.imageOp (s : State) (m : MirrorImage) : State :=
  let a := s.allocs.any (fun a => a.plane == partnerOf m.plane && a.onPartner && a.covers (64 * m.granule))
  if (s.plane m.plane).up && a then s.installImage m.plane m.granule m.seq m.data m.sealed m.bad else s

/-! ## Meanings -/

/-- `swalloc` and `swfree` are privileged (R86); every other outcome is a status. -/
def execSwalloc (g : Guard) (d a b : Fin 32) (s : State) : Res :=
  .next (s.privileged (fun s => s.guarded g (fun s =>
    let r := s.swallocOp (s.getS a) (s.getS b)
    (r.2.setS d r.1).advance)))

def execSwfree (g : Guard) (d a : Fin 32) (s : State) : Res :=
  .next (s.privileged (fun s => s.guarded g (fun s =>
    let r := s.swfreeOp (s.getS a)
    (r.2.setS d r.1).advance)))

def execSwquota (g : Guard) (d a : Fin 32) (s : State) : Res :=
  .next (s.guarded g (fun s => (s.setS d (s.swquotaOp (s.getS a))).advance))

/-- A request of another module reaches a plane; one of several granules is served granule by granule (R87). -/
def execSwitchAccess (r : SwitchReq) (s : State) : Res :=
  .next (if 18 ≤ r.plane then s else (cutRequest (r.len / 64 + 2) r).foldl State.switchServe s)

def execFailoverAccess (r : SwitchReq) (s : State) : Res :=
  .next (if 18 ≤ r.plane then s else (cutRequest (r.len / 64 + 2) r).foldl State.failoverServe s)

def execMirrorImageInstall (r : MirrorImage) (s : State) : Res := .next (s.imageOp r)

/-- The lock lapses: the granule is unchanged, and the late write finds no lock (R95). -/
def execMergeLockLapse (plane granule : Nat) (s : State) : Res := .next (s.unlock plane granule)

def execPlaneDown (p : PlaneLoss) (s : State) : Res :=
  .next (if 18 ≤ p.plane then s else s.planeDownOp p.plane p.failed)
def execPlaneUp (p gen : Nat) (s : State) : Res := .next (if 18 ≤ p then s else s.planeUpOp p gen)

end Sys2Proof.Machine
end

