-- ==== Sys2Proof/Machine/VRed.lean ====
section
/-! DEFINITION. Reductions and scans (spec/10_vector.md R270 to R272, spec/07_arithmetic.md R200): majors 0x1C and
0x1D. -/

namespace Sys2Proof.Machine

/-! ## Combinations and their identities (R200, R270) -/

/-- What a reduction or scan does. -/
inductive RedOp where
  | sum | min | max | and | or | xor
  deriving DecidableEq, Repr

/-- Two elements of type `t` combined. -/
def RedOp.comb (o : RedOp) (t : Nat) (rm : Rm) (x y : Nat) : Nat × Flags :=
  let w := typeBytes t
  if typeInt t then
    (match o with
      | .sum => elAdd t w x y
      | .min => if typeSigned t then elMin t w x y else elMinu t w x y
      | .max => if typeSigned t then elMax t w x y else elMaxu t w x y
      | .and => x &&& y
      | .or => x ||| y
      | .xor => x ^^^ y, 0)
  else match o with
    | .sum => (typeFmt t).add rm x y
    | .min => (typeFmt t).minmax false x y
    | _ => (typeFmt t).minmax true x y

/-- The identity of an operation (R270). -/
def RedOp.identity (o : RedOp) (t : Nat) : Nat :=
  let w := typeBytes t
  if typeInt t then
    match o with
    | .min => if typeSigned t then 2 ^ (8 * w - 1) - 1 else 2 ^ (8 * w) - 1
    | .max => if typeSigned t then 2 ^ (8 * w - 1) else 0
    | .and => 2 ^ (8 * w) - 1
    | _ => 0
  else
    let f := typeFmt t
    match o with
    | .sum => f.sign true
    | .min => f.infinity
    | _ => f.sign true + f.infinity

/-! ## The tree (R200) -/

abbrev Comb := Nat → Nat → Nat × Flags

/-- Two groups combined position by position. -/
def combGroups (f : Comb) : List Nat → List Nat → List Nat × Flags
  | x :: xs, y :: ys =>
    let r := f x y
    let t := combGroups f xs ys
    (r.1 :: t.1, r.2 ||| t.2)
  | _, _ => ([], 0)

/-- One level of the pairwise tree; an odd last group passes up unchanged. -/
def treeLevel (f : Comb) : List (List Nat) → List (List Nat) × Flags
  | x :: y :: gs =>
    let r := combGroups f x y
    let t := treeLevel f gs
    (r.1 :: t.1, r.2 ||| t.2)
  | gs => (gs, 0)

/-- Levels until one group remains. -/
def treeUp (f : Comb) : Nat → List (List Nat) → List (List Nat) × Flags
  | 0, gs => (gs, 0)
  | n + 1, gs =>
    if gs.length ≤ 1 then (gs, 0)
    else
      let r := treeLevel f gs
      let t := treeUp f n r.1
      (t.1, r.2 ||| t.2)

/-- The positions of a group folded in index order. -/
def foldGroup (f : Comb) : List Nat → Nat × Flags
  | [] => (0, 0)
  | x :: xs => xs.foldl (fun a y =>
      let r := f a.1 y
      (r.1, a.2 ||| r.2)) (x, 0)

/-- The tree over `n` groups of `per` elements, `val` giving each. -/
def redTree (f : Comb) (per n : Nat) (val : Nat → Nat) : Nat × Flags :=
  let gs := (List.range n).map (fun g => (List.range per).map (fun i => val (g * per + i)))
  let t := treeUp f n gs
  let r := foldGroup f (t.1.headD [])
  (r.1, t.2 ||| r.2)

/-- The reduction of the `n` elements of row `r` from element `lo` on, as a row of its own. -/
def Coro.reduceFrom (c : Coro) (o : RedOp) (g : Guard) (a : Fin 64) (r lo n : Nat) : Nat × Flags :=
  let w := c.tyBytes
  redTree (o.comb c.ty c.arithRm) (128 / w) (ceilDiv (n * c.wb) 128) (fun i =>
    if i < n && c.active g r (lo + i) then c.elem a w r (lo + i) else o.identity c.ty)

/-! ## Full and segmented reductions (R270, R272) -/

/-- Types of a sum, minimum, maximum or scan (Table 2). -/
def Coro.sumType (c : Coro) : Bool := c.ty < 12

/-- A scan's types; of the floating-point ones reduced service leaves type 10 alone (R413). -/
def State.sumType (s : State) : Bool := s.core.run.sumType && s.serviceType s.core.run.ty

/-- A reduction's types, of those that `ok` accepts: reduced service leaves type 10 alone (R413). -/
def State.redType (ok : Coro → Bool) (s : State) : Bool := ok s.core.run && (!s.sys.reduced || s.core.run.ty == 10)

def State.vreduce (s : State) (g : Guard) (d a : Fin 64) (o : RedOp) (ok : Coro → Bool) : State :=
  let k := s.core.run
  s.crossSweep ⟨[d, a], k.tyBytes, s.redType ok, [a], [g.idx], [], [], none⟩ crossRows (fun c0 =>
    if c0.vl = 0 then c0
    else (List.range c0.rc.toNat).foldl (fun c r =>
      let x := c0.reduceFrom o g a r 0 c0.vl.toNat
      (c.putElem d k.tyBytes r 0 x.1).orFlags x.2) c0)

/-- The segments of row `r`: first element and length of each (R272). -/
def Coro.segments (c : Coro) (m : Fin 8) (r : Nat) : List (Nat × Nat) :=
  let starts := (List.range c.vl.toNat).filter (fun e => e == 0 || c.maskBit m r e)
  (starts.zip (starts.drop 1 ++ [c.vl.toNat])).map (fun p => (p.1, p.2 - p.1))

def State.vsegReduce (s : State) (g : Guard) (d a : Fin 64) (m : Fin 8) (o : RedOp) : State :=
  let k := s.core.run
  s.crossSweep ⟨[d, a], k.tyBytes, s.redType Coro.sumType, [a], [g.idx, m], [], [], none⟩ crossRows (fun c0 =>
    (List.range c0.rc.toNat).foldl (fun c r =>
      ((c0.segments m r).foldl (fun (x : Coro × Nat) p =>
        let y := c0.reduceFrom o g a r p.1 p.2
        ((x.1.putElem d k.tyBytes r x.2 y.1).orFlags y.2, x.2 + 1)) (c, 0)).1) c0)

/-! ## Scans (R271, R272) -/

/-- A scan in progress: the coroutine, the row being scanned and the running value. -/
structure Scan where
  c   : Coro
  row : Option Nat
  acc : Nat

/-- The running value with which row `r` begins, or resumes. -/
def Coro.scanStart (c : Coro) (o : RedOp) (r : Nat) : Nat :=
  if c.vs != ⟨0, 0⟩ && r == c.vs.row.toNat then c.vcarry.toNat % 2 ^ (8 * c.tyBytes) else o.identity c.ty

/-- One element: at a segment start, which `m` marks, the running value returns to the identity. -/
def Coro.scanStep (c0 : Coro) (o : RedOp) (g : Guard) (d a : Fin 64) (m : Option (Fin 8)) (x : Scan) (p : Nat × Nat) :
    Scan :=
  let w := c0.tyBytes
  let acc := if x.row = some p.1 then x.acc else c0.scanStart o p.1
  let acc1 := match m with
    | none => acc
    | some i => if p.2 == 0 || x.c.maskBit i p.1 p.2 then o.identity c0.ty else acc
  if x.c.active g p.1 p.2 then
    let y := o.comb c0.ty c0.arithRm acc1 (x.c.elem a w p.1 p.2)
    ⟨(x.c.putElem d w p.1 p.2 y.1).orFlags y.2, some p.1, y.1⟩
  else ⟨x.c, some p.1, acc1⟩

/-- VCARRY at the end of a scan, or at its stop: the running value of the row in which it goes on. -/
def Coro.scanCarry (c0 : Coro) (o : RedOp) (done : Bool) (ps : List (Nat × Nat)) (x : Scan) : Word :=
  if done then 0
  else match (c0.todo.drop ps.length).head? with
    | none => 0
    | some p => w64 (if x.row = some p.1 then x.acc else c0.scanStart o p.1)

def State.vscanOp (s : State) (g : Guard) (d a : Fin 64) (o : RedOp) (m : Option (Fin 8)) : State :=
  let k := s.core.run
  s.sweep ⟨[d, a], k.tyBytes, s.sumType, [a], g.idx :: m.toList, [], [], none⟩ (fun done ps c0 =>
    let x := ps.foldl (c0.scanStep o g d a m) ⟨c0, none, 0⟩
    { x.c with vcarry := c0.scanCarry o done ps x })

/-! ## Meanings -/

def execVredsum (g : Guard) (_c : Bool) (d a : Fin 64) (s : State) : Res := .next (s.vreduce g d a .sum Coro.sumType)
def execVredmin (g : Guard) (_c : Bool) (d a : Fin 64) (s : State) : Res := .next (s.vreduce g d a .min Coro.sumType)
def execVredmax (g : Guard) (_c : Bool) (d a : Fin 64) (s : State) : Res := .next (s.vreduce g d a .max Coro.sumType)
def execVredand (g : Guard) (_c : Bool) (d a : Fin 64) (s : State) : Res := .next (s.vreduce g d a .and Coro.intType)
def execVredor (g : Guard) (_c : Bool) (d a : Fin 64) (s : State) : Res := .next (s.vreduce g d a .or Coro.intType)
def execVredxor (g : Guard) (_c : Bool) (d a : Fin 64) (s : State) : Res := .next (s.vreduce g d a .xor Coro.intType)
def execVscan (g : Guard) (_c : Bool) (d a : Fin 64) (s : State) : Res := .next (s.vscanOp g d a .sum none)
def execVscanmax (g : Guard) (_c : Bool) (d a : Fin 64) (s : State) : Res := .next (s.vscanOp g d a .max none)
def execVsredsum (g : Guard) (_c : Bool) (d a : Fin 64) (b : Fin 8) (s : State) : Res := .next (s.vsegReduce g d a b .sum)
def execVsredmin (g : Guard) (_c : Bool) (d a : Fin 64) (b : Fin 8) (s : State) : Res := .next (s.vsegReduce g d a b .min)
def execVsredmax (g : Guard) (_c : Bool) (d a : Fin 64) (b : Fin 8) (s : State) : Res := .next (s.vsegReduce g d a b .max)
def execVsscan (g : Guard) (_c : Bool) (d a : Fin 64) (b : Fin 8) (s : State) : Res := .next (s.vscanOp g d a .sum (some b))

end Sys2Proof.Machine
end

