-- ==== Sys2Proof/Machine/Dispatch.lean ====
section
/-! DEFINITION. One arm for every constructor of Instr: its meaning. -/

namespace Sys2Proof.Machine

def exec (i : Instr) (s : State) : Host.Outcome State Fault Refusal :=
  match i with
  | .nop => Sys2Proof.Machine.execNop s
  | .add g d a b => Sys2Proof.Machine.execAdd g d a b s
  | .sub g d a b => Sys2Proof.Machine.execSub g d a b s
  | .and g d a b => Sys2Proof.Machine.execAnd g d a b s
  | .or g d a b => Sys2Proof.Machine.execOr g d a b s
  | .xor g d a b => Sys2Proof.Machine.execXor g d a b s
  | .sll g d a b => Sys2Proof.Machine.execSll g d a b s
  | .srl g d a b => Sys2Proof.Machine.execSrl g d a b s
  | .sra g d a b => Sys2Proof.Machine.execSra g d a b s
  | .mul g d a b => Sys2Proof.Machine.execMul g d a b s
  | .mulh g d a b => Sys2Proof.Machine.execMulh g d a b s
  | .mulhu g d a b => Sys2Proof.Machine.execMulhu g d a b s
  | .div g d a b => Sys2Proof.Machine.execDiv g d a b s
  | .divu g d a b => Sys2Proof.Machine.execDivu g d a b s
  | .rem g d a b => Sys2Proof.Machine.execRem g d a b s
  | .remu g d a b => Sys2Proof.Machine.execRemu g d a b s
  | .min g d a b => Sys2Proof.Machine.execMin g d a b s
  | .max g d a b => Sys2Proof.Machine.execMax g d a b s
  | .minu g d a b => Sys2Proof.Machine.execMinu g d a b s
  | .maxu g d a b => Sys2Proof.Machine.execMaxu g d a b s
  | .clz g d a => Sys2Proof.Machine.execClz g d a s
  | .ctz g d a => Sys2Proof.Machine.execCtz g d a s
  | .popc g d a => Sys2Proof.Machine.execPopc g d a s
  | .rev g d a => Sys2Proof.Machine.execRev g d a s
  | .sel g d a b => Sys2Proof.Machine.execSel g d a b s
  | .bfx g d a b => Sys2Proof.Machine.execBfx g d a b s
  | .bfxs g d a b => Sys2Proof.Machine.execBfxs g d a b s
  | .bfi g d a b => Sys2Proof.Machine.execBfi g d a b s
  | .cmpEq g d a b => Sys2Proof.Machine.execCmpEq g d a b s
  | .cmpNe g d a b => Sys2Proof.Machine.execCmpNe g d a b s
  | .cmpLt g d a b => Sys2Proof.Machine.execCmpLt g d a b s
  | .cmpLtu g d a b => Sys2Proof.Machine.execCmpLtu g d a b s
  | .cmpLe g d a b => Sys2Proof.Machine.execCmpLe g d a b s
  | .cmpLeu g d a b => Sys2Proof.Machine.execCmpLeu g d a b s
  | .gand g d a b => Sys2Proof.Machine.execGand g d a b s
  | .gor g d a b => Sys2Proof.Machine.execGor g d a b s
  | .addi g d a xi => Sys2Proof.Machine.execAddi g d a xi s
  | .andi g d a u => Sys2Proof.Machine.execAndi g d a u s
  | .ori g d a u => Sys2Proof.Machine.execOri g d a u s
  | .xori g d a u => Sys2Proof.Machine.execXori g d a u s
  | .slli g d a u => Sys2Proof.Machine.execSlli g d a u s
  | .srli g d a u => Sys2Proof.Machine.execSrli g d a u s
  | .srai g d a u => Sys2Proof.Machine.execSrai g d a u s
  | .li g d xi => Sys2Proof.Machine.execLi g d xi s
  | .lis g d xi => Sys2Proof.Machine.execLis g d xi s
  | .loop g k xi => Sys2Proof.Machine.execLoop g k xi s
  | .faddF64 g d a b => Sys2Proof.Machine.execFaddF64 g d a b s
  | .fsubF64 g d a b => Sys2Proof.Machine.execFsubF64 g d a b s
  | .fmulF64 g d a b => Sys2Proof.Machine.execFmulF64 g d a b s
  | .fdivF64 g d a b => Sys2Proof.Machine.execFdivF64 g d a b s
  | .fminF64 g d a b => Sys2Proof.Machine.execFminF64 g d a b s
  | .fmaxF64 g d a b => Sys2Proof.Machine.execFmaxF64 g d a b s
  | .fmaF64 g d a b => Sys2Proof.Machine.execFmaF64 g d a b s
  | .fsqrtF64 g d a => Sys2Proof.Machine.execFsqrtF64 g d a s
  | .faddF32 g d a b => Sys2Proof.Machine.execFaddF32 g d a b s
  | .fsubF32 g d a b => Sys2Proof.Machine.execFsubF32 g d a b s
  | .fmulF32 g d a b => Sys2Proof.Machine.execFmulF32 g d a b s
  | .fdivF32 g d a b => Sys2Proof.Machine.execFdivF32 g d a b s
  | .fminF32 g d a b => Sys2Proof.Machine.execFminF32 g d a b s
  | .fmaxF32 g d a b => Sys2Proof.Machine.execFmaxF32 g d a b s
  | .fmaF32 g d a b => Sys2Proof.Machine.execFmaF32 g d a b s
  | .fsqrtF32 g d a => Sys2Proof.Machine.execFsqrtF32 g d a s
  | .fcmpEqF64 g d a b => Sys2Proof.Machine.execFcmpEqF64 g d a b s
  | .fcmpLtF64 g d a b => Sys2Proof.Machine.execFcmpLtF64 g d a b s
  | .fcmpLeF64 g d a b => Sys2Proof.Machine.execFcmpLeF64 g d a b s
  | .fcmpEqF32 g d a b => Sys2Proof.Machine.execFcmpEqF32 g d a b s
  | .fcmpLtF32 g d a b => Sys2Proof.Machine.execFcmpLtF32 g d a b s
  | .fcmpLeF32 g d a b => Sys2Proof.Machine.execFcmpLeF32 g d a b s
  | .fcvt g d a t sc => Sys2Proof.Machine.execFcvt g d a t sc s
  | .b g xi => Sys2Proof.Machine.execB g xi s
  | .jal g xi => Sys2Proof.Machine.execJal g xi s
  | .jr g d a => Sys2Proof.Machine.execJr g d a s
  | .spawn g d a b => Sys2Proof.Machine.execSpawn g d a b s
  | .await g k a b => Sys2Proof.Machine.execAwait g k a b s
  | .yield g k b => Sys2Proof.Machine.execYield g k b s
  | .fin g => Sys2Proof.Machine.execFin g s
  | .sys g h l => Sys2Proof.Machine.execSys g h l s
  | .vadd g c d a b => Sys2Proof.Machine.execVadd g c d a b s
  | .vsub g c d a b => Sys2Proof.Machine.execVsub g c d a b s
  | .vand g c d a b => Sys2Proof.Machine.execVand g c d a b s
  | .vor g c d a b => Sys2Proof.Machine.execVor g c d a b s
  | .vxor g c d a b => Sys2Proof.Machine.execVxor g c d a b s
  | .vsll g c d a b => Sys2Proof.Machine.execVsll g c d a b s
  | .vsrl g c d a b => Sys2Proof.Machine.execVsrl g c d a b s
  | .vsra g c d a b => Sys2Proof.Machine.execVsra g c d a b s
  | .vmul g c d a b => Sys2Proof.Machine.execVmul g c d a b s
  | .vmulh g c d a b => Sys2Proof.Machine.execVmulh g c d a b s
  | .vmin g c d a b => Sys2Proof.Machine.execVmin g c d a b s
  | .vmax g c d a b => Sys2Proof.Machine.execVmax g c d a b s
  | .vminu g c d a b => Sys2Proof.Machine.execVminu g c d a b s
  | .vmaxu g c d a b => Sys2Proof.Machine.execVmaxu g c d a b s
  | .vadds g c d a b => Sys2Proof.Machine.execVadds g c d a b s
  | .vsubs g c d a b => Sys2Proof.Machine.execVsubs g c d a b s
  | .vaddScalar g c d a b => Sys2Proof.Machine.execVaddScalar g c d a b s
  | .vsubScalar g c d a b => Sys2Proof.Machine.execVsubScalar g c d a b s
  | .vandScalar g c d a b => Sys2Proof.Machine.execVandScalar g c d a b s
  | .vorScalar g c d a b => Sys2Proof.Machine.execVorScalar g c d a b s
  | .vxorScalar g c d a b => Sys2Proof.Machine.execVxorScalar g c d a b s
  | .vsllScalar g c d a b => Sys2Proof.Machine.execVsllScalar g c d a b s
  | .vsrlScalar g c d a b => Sys2Proof.Machine.execVsrlScalar g c d a b s
  | .vsraScalar g c d a b => Sys2Proof.Machine.execVsraScalar g c d a b s
  | .vmulScalar g c d a b => Sys2Proof.Machine.execVmulScalar g c d a b s
  | .vmulhScalar g c d a b => Sys2Proof.Machine.execVmulhScalar g c d a b s
  | .vminScalar g c d a b => Sys2Proof.Machine.execVminScalar g c d a b s
  | .vmaxScalar g c d a b => Sys2Proof.Machine.execVmaxScalar g c d a b s
  | .vminuScalar g c d a b => Sys2Proof.Machine.execVminuScalar g c d a b s
  | .vmaxuScalar g c d a b => Sys2Proof.Machine.execVmaxuScalar g c d a b s
  | .vaddsScalar g c d a b => Sys2Proof.Machine.execVaddsScalar g c d a b s
  | .vsubsScalar g c d a b => Sys2Proof.Machine.execVsubsScalar g c d a b s
  | .vcmpEq g c d a b => Sys2Proof.Machine.execVcmpEq g c d a b s
  | .vcmpNe g c d a b => Sys2Proof.Machine.execVcmpNe g c d a b s
  | .vcmpLt g c d a b => Sys2Proof.Machine.execVcmpLt g c d a b s
  | .vcmpLtu g c d a b => Sys2Proof.Machine.execVcmpLtu g c d a b s
  | .vcmpLe g c d a b => Sys2Proof.Machine.execVcmpLe g c d a b s
  | .vcmpLeu g c d a b => Sys2Proof.Machine.execVcmpLeu g c d a b s
  | .vmerge g c d a b => Sys2Proof.Machine.execVmerge g c d a b s
  | .vslideup g c d a b => Sys2Proof.Machine.execVslideup g c d a b s
  | .vslidedn g c d a b => Sys2Proof.Machine.execVslidedn g c d a b s
  | .vcompress g c d a => Sys2Proof.Machine.execVcompress g c d a s
  | .viota g c d => Sys2Proof.Machine.execViota g c d s
  | .vperm g c d a b => Sys2Proof.Machine.execVperm g c d a b s
  | .vbcast g c d a => Sys2Proof.Machine.execVbcast g c d a s
  | .vext c d a b => Sys2Proof.Machine.execVext c d a b s
  | .vmv g c d a => Sys2Proof.Machine.execVmv g c d a s
  | .mand g c d a b => Sys2Proof.Machine.execMand g c d a b s
  | .mor g c d a b => Sys2Proof.Machine.execMor g c d a b s
  | .mxor g c d a b => Sys2Proof.Machine.execMxor g c d a b s
  | .mandn g c d a b => Sys2Proof.Machine.execMandn g c d a b s
  | .mpop g c d a => Sys2Proof.Machine.execMpop g c d a s
  | .mfirst g c d a => Sys2Proof.Machine.execMfirst g c d a s
  | .vtom g c d a => Sys2Proof.Machine.execVtom g c d a s
  | .mtov g c d a => Sys2Proof.Machine.execMtov g c d a s
  | .vfadd g c d a b => Sys2Proof.Machine.execVfadd g c d a b s
  | .vfsub g c d a b => Sys2Proof.Machine.execVfsub g c d a b s
  | .vfmul g c d a b => Sys2Proof.Machine.execVfmul g c d a b s
  | .vfdiv g c d a b => Sys2Proof.Machine.execVfdiv g c d a b s
  | .vfmin g c d a b => Sys2Proof.Machine.execVfmin g c d a b s
  | .vfmax g c d a b => Sys2Proof.Machine.execVfmax g c d a b s
  | .vfma g c d a b => Sys2Proof.Machine.execVfma g c d a b s
  | .vfsqrt g c d a => Sys2Proof.Machine.execVfsqrt g c d a s
  | .vfaddScalar g c d a b => Sys2Proof.Machine.execVfaddScalar g c d a b s
  | .vfsubScalar g c d a b => Sys2Proof.Machine.execVfsubScalar g c d a b s
  | .vfmulScalar g c d a b => Sys2Proof.Machine.execVfmulScalar g c d a b s
  | .vfdivScalar g c d a b => Sys2Proof.Machine.execVfdivScalar g c d a b s
  | .vfminScalar g c d a b => Sys2Proof.Machine.execVfminScalar g c d a b s
  | .vfmaxScalar g c d a b => Sys2Proof.Machine.execVfmaxScalar g c d a b s
  | .vfmaScalar g c d a b => Sys2Proof.Machine.execVfmaScalar g c d a b s
  | .vfcmpEq g c d a b => Sys2Proof.Machine.execVfcmpEq g c d a b s
  | .vfcmpLt g c d a b => Sys2Proof.Machine.execVfcmpLt g c d a b s
  | .vfcmpLe g c d a b => Sys2Proof.Machine.execVfcmpLe g c d a b s
  | .vfsgcopy g c d a b => Sys2Proof.Machine.execVfsgcopy g c d a b s
  | .vfsgflip g c d a b => Sys2Proof.Machine.execVfsgflip g c d a b s
  | .vfsgmix g c d a b => Sys2Proof.Machine.execVfsgmix g c d a b s
  | .vfkind g c d a => Sys2Proof.Machine.execVfkind g c d a s
  | .vexp2 g c d a => Sys2Proof.Machine.execVexp2 g c d a s
  | .vlog2 g c d a => Sys2Proof.Machine.execVlog2 g c d a s
  | .vrsqrt g c d a => Sys2Proof.Machine.execVrsqrt g c d a s
  | .vrcp g c d a => Sys2Proof.Machine.execVrcp g c d a s
  | .vcvt g c d a t => Sys2Proof.Machine.execVcvt g c d a t s
  | .vcvtW g c d a t => Sys2Proof.Machine.execVcvtW g c d a t s
  | .vcvtN g c d a t => Sys2Proof.Machine.execVcvtN g c d a t s
  | .vquant g c d a f b => Sys2Proof.Machine.execVquant g c d a f b s
  | .vquantS g c d a f b => Sys2Proof.Machine.execVquantS g c d a f b s
  | .vdequant g c d a f b => Sys2Proof.Machine.execVdequant g c d a f b s
  | .vquantPg g c d a f b => Sys2Proof.Machine.execVquantPg g c d a f b s
  | .vredsum g c d a => Sys2Proof.Machine.execVredsum g c d a s
  | .vredmin g c d a => Sys2Proof.Machine.execVredmin g c d a s
  | .vredmax g c d a => Sys2Proof.Machine.execVredmax g c d a s
  | .vredand g c d a => Sys2Proof.Machine.execVredand g c d a s
  | .vredor g c d a => Sys2Proof.Machine.execVredor g c d a s
  | .vredxor g c d a => Sys2Proof.Machine.execVredxor g c d a s
  | .vscan g c d a => Sys2Proof.Machine.execVscan g c d a s
  | .vscanmax g c d a => Sys2Proof.Machine.execVscanmax g c d a s
  | .vsredsum g c d a b => Sys2Proof.Machine.execVsredsum g c d a b s
  | .vsredmin g c d a b => Sys2Proof.Machine.execVsredmin g c d a b s
  | .vsredmax g c d a b => Sys2Proof.Machine.execVsredmax g c d a b s
  | .vsscan g c d a b => Sys2Proof.Machine.execVsscan g c d a b s
  | .ldB64 g d a xi => Sys2Proof.Machine.execLdB64 g d a xi s
  | .ldB32 g d a xi => Sys2Proof.Machine.execLdB32 g d a xi s
  | .stB64 g d a xi => Sys2Proof.Machine.execStB64 g d a xi s
  | .stB32 g d a xi => Sys2Proof.Machine.execStB32 g d a xi s
  | .ldB8 g d a xi => Sys2Proof.Machine.execLdB8 g d a xi s
  | .ldB16 g d a xi => Sys2Proof.Machine.execLdB16 g d a xi s
  | .ldI8 g d a xi => Sys2Proof.Machine.execLdI8 g d a xi s
  | .ldI16 g d a xi => Sys2Proof.Machine.execLdI16 g d a xi s
  | .ldI32 g d a xi => Sys2Proof.Machine.execLdI32 g d a xi s
  | .stB8 g d a xi => Sys2Proof.Machine.execStB8 g d a xi s
  | .stB16 g d a xi => Sys2Proof.Machine.execStB16 g d a xi s
  | .vld g c d a sc o => Sys2Proof.Machine.execVld g c d a sc o s
  | .vlds g c d a sc o => Sys2Proof.Machine.execVlds g c d a sc o s
  | .vldx g c d a b => Sys2Proof.Machine.execVldx g c d a b s
  | .vldt g c d a sc o => Sys2Proof.Machine.execVldt g c d a sc o s
  | .vldn g c d a => Sys2Proof.Machine.execVldn g c d a s
  | .vldWp g c d a h => Sys2Proof.Machine.execVldWp g c d a h s
  | .vst g c d a sc o => Sys2Proof.Machine.execVst g c d a sc o s
  | .vsts g c d a sc o => Sys2Proof.Machine.execVsts g c d a sc o s
  | .vstx g c d a b => Sys2Proof.Machine.execVstx g c d a b s
  | .vstt g c d a sc o => Sys2Proof.Machine.execVstt g c d a sc o s
  | .vstn g c d a => Sys2Proof.Machine.execVstn g c d a s
  | .ldWp g d a h w xi => Sys2Proof.Machine.execLdWp g d a h w xi s
  | .ldAcq g d a sc w xi => Sys2Proof.Machine.execLdAcq g d a sc w xi s
  | .stRel g d a sc w xi => Sys2Proof.Machine.execStRel g d a sc w xi s
  | .atomAdd g d a sc o w => Sys2Proof.Machine.execAtomAdd g d a sc o w s
  | .atomMin g d a sc o w => Sys2Proof.Machine.execAtomMin g d a sc o w s
  | .atomMax g d a sc o w => Sys2Proof.Machine.execAtomMax g d a sc o w s
  | .atomMinu g d a sc o w => Sys2Proof.Machine.execAtomMinu g d a sc o w s
  | .atomMaxu g d a sc o w => Sys2Proof.Machine.execAtomMaxu g d a sc o w s
  | .atomAnd g d a sc o w => Sys2Proof.Machine.execAtomAnd g d a sc o w s
  | .atomOr g d a sc o w => Sys2Proof.Machine.execAtomOr g d a sc o w s
  | .atomXor g d a sc o w => Sys2Proof.Machine.execAtomXor g d a sc o w s
  | .atomSwap g d a sc o w => Sys2Proof.Machine.execAtomSwap g d a sc o w s
  | .atomCas g d a sc o w => Sys2Proof.Machine.execAtomCas g d a sc o w s
  | .vatomAdd g d a sc o => Sys2Proof.Machine.execVatomAdd g d a sc o s
  | .vatomMin g d a sc o => Sys2Proof.Machine.execVatomMin g d a sc o s
  | .vatomMax g d a sc o => Sys2Proof.Machine.execVatomMax g d a sc o s
  | .vatomAnd g d a sc o => Sys2Proof.Machine.execVatomAnd g d a sc o s
  | .vatomOr g d a sc o => Sys2Proof.Machine.execVatomOr g d a sc o s
  | .vatomXor g d a sc o => Sys2Proof.Machine.execVatomXor g d a sc o s
  | .vatomSwap g d a sc o => Sys2Proof.Machine.execVatomSwap g d a sc o s
  | .vatomCas g d a sc o => Sys2Proof.Machine.execVatomCas g d a sc o s
  | .vwait g k a b => Sys2Proof.Machine.execVwait g k a b s
  | .barv g d a => Sys2Proof.Machine.execBarv g d a s
  | .bnew g d a => Sys2Proof.Machine.execBnew g d a s
  | .bfree g d a => Sys2Proof.Machine.execBfree g d a s
  | .bsig g a b => Sys2Proof.Machine.execBsig g a b s
  | .bsigOneOperand g a => Sys2Proof.Machine.execBsigOneOperand g a s
  | .bsigErr g a b => Sys2Proof.Machine.execBsigErr g a b s
  | .bqry g d a => Sys2Proof.Machine.execBqry g d a s
  | .barm g a b => Sys2Proof.Machine.execBarm g a b s
  | .barmRel g a b => Sys2Proof.Machine.execBarmRel g a b s
  | .rcopy g h a b => Sys2Proof.Machine.execRcopy g h a b s
  | .rcopyShape g h a b => Sys2Proof.Machine.execRcopyShape g h a b s
  | .rwp g d h => Sys2Proof.Machine.execRwp g d h s
  | .rcancel g h => Sys2Proof.Machine.execRcancel g h s
  | .rqry g d h => Sys2Proof.Machine.execRqry g d h s
  | .amsend g a => Sys2Proof.Machine.execAmsend g a s
  | .amreply g a => Sys2Proof.Machine.execAmreply g a s
  | .amreg g a b => Sys2Proof.Machine.execAmreg g a b s
  | .swalloc g d a b => Sys2Proof.Machine.execSwalloc g d a b s
  | .swfree g d a => Sys2Proof.Machine.execSwfree g d a s
  | .swquota g d a => Sys2Proof.Machine.execSwquota g d a s
  | .mmk g c e a b t => Sys2Proof.Machine.execMmk g c e a b t s
  | .mmkScratchpad g c e a b t => Sys2Proof.Machine.execMmkScratchpad g c e a b t s
  | .mmga g c e a b t => Sys2Proof.Machine.execMmga g c e a b t s
  | .mmgaScratchpad g c e a b t => Sys2Proof.Machine.execMmgaScratchpad g c e a b t s
  | .mshape d a => Sys2Proof.Machine.execMshape d a s
  | .mzero g e => Sys2Proof.Machine.execMzero g e s
  | .mld g e a => Sys2Proof.Machine.execMld g e a s
  | .mst g e a => Sys2Proof.Machine.execMst g e a s
  | .mcvt g d e t => Sys2Proof.Machine.execMcvt g d e t s
  | .mseg d a => Sys2Proof.Machine.execMseg d a s
  | .vtmask g c d a b => Sys2Proof.Machine.execVtmask g c d a b s
  | .vexpm g c d a b => Sys2Proof.Machine.execVexpm g c d a b s
  | .vscore g c d q e b => Sys2Proof.Machine.execVscore g c d q e b s
  | .vpacc g c d a b => Sys2Proof.Machine.execVpacc g c d a b s
  | .pxl g d a b => Sys2Proof.Machine.execPxl g d a b s
  | .pxw g a b => Sys2Proof.Machine.execPxw g a b s
  | .pxwSh g a k => Sys2Proof.Machine.execPxwSh g a k s
  | .pxinv g a b => Sys2Proof.Machine.execPxinv g a b s
  | .pxret g => Sys2Proof.Machine.execPxret g s
  | .dsadv g d a b => Sys2Proof.Machine.execDsadv g d a b s
  | .dstrunc g a b => Sys2Proof.Machine.execDstrunc g a b s
  | .dsframe g d a b => Sys2Proof.Machine.execDsframe g d a b s
  | .dsplay g a b => Sys2Proof.Machine.execDsplay g a b s
  | .launch g d a => Sys2Proof.Machine.execLaunch g d a s
  | .cancel g d a => Sys2Proof.Machine.execCancel g d a s
  | .cget g d r => Sys2Proof.Machine.execCget g d r s
  | .cset g r a => Sys2Proof.Machine.execCset g r a s
  | .vcfg g d r w => Sys2Proof.Machine.execVcfg g d r w s
  | .spsplit g d k => Sys2Proof.Machine.execSpsplit g d k s
  | .stripBegin g a => Sys2Proof.Machine.execStripBegin g a s
  | .stripCommit g => Sys2Proof.Machine.execStripCommit g s
  | .asidBind g d a => Sys2Proof.Machine.execAsidBind g d a s
  | .asidRetire g d a => Sys2Proof.Machine.execAsidRetire g d a s
  | .xlinvVa g d a b => Sys2Proof.Machine.execXlinvVa g d a b s
  | .xlinvAsid g d a => Sys2Proof.Machine.execXlinvAsid g d a s
  | .xlinvGlob g d => Sys2Proof.Machine.execXlinvGlob g d s
  | .fence g k sc => Sys2Proof.Machine.execFence g k sc s
  | .waitingRecordWrite die => Sys2Proof.Machine.execWaitingRecordWrite die s
  | .deferredStoreFailure core => Sys2Proof.Machine.execDeferredStoreFailure core s
  | .pendingDatumArrival core cnum idx value poisoned => Sys2Proof.Machine.execPendingDatumArrival core cnum idx value poisoned s
  | .preemption core why => Sys2Proof.Machine.execPreemption core why s
  | .pacerDecision core => Sys2Proof.Machine.execPacerDecision core s
  | .pacerPreemption core => Sys2Proof.Machine.execPacerPreemption core s
  | .contextSpill core cnum => Sys2Proof.Machine.execContextSpill core cnum s
  | .contextReturn core cnum => Sys2Proof.Machine.execContextReturn core cnum s
  | .clusterWindowRequest core => Sys2Proof.Machine.execClusterWindowRequest core s
  | .activeMessageHandler core => Sys2Proof.Machine.execActiveMessageHandler core s
  | .handlerLimit core => Sys2Proof.Machine.execHandlerLimit core s
  | .amReplyDelivery r => Sys2Proof.Machine.execAmReplyDelivery r s
  | .remoteSignalArrival sender handle kind => Sys2Proof.Machine.execRemoteSignalArrival sender handle kind s
  | .batonPoll core cnum => Sys2Proof.Machine.execBatonPoll core cnum s
  | .relayChunk core ch => Sys2Proof.Machine.execRelayChunk core ch s
  | .relayBeat core ch => Sys2Proof.Machine.execRelayBeat core ch s
  | .relayComplete core ch => Sys2Proof.Machine.execRelayComplete core ch s
  | .relayCancelComplete core ch => Sys2Proof.Machine.execRelayCancelComplete core ch s
  | .translationWalk core asid va => Sys2Proof.Machine.execTranslationWalk core asid va s
  | .runAheadTranslation core pc => Sys2Proof.Machine.execRunAheadTranslation core pc s
  | .maintenanceComplete die idx => Sys2Proof.Machine.execMaintenanceComplete die idx s
  | .asidRetirementComplete asid => Sys2Proof.Machine.execAsidRetirementComplete asid s
  | .homeSliceRequest r => Sys2Proof.Machine.execHomeSliceRequest r s
  | .bankConflict d => Sys2Proof.Machine.execBankConflict d s
  | .hdcfgWrite d value => Sys2Proof.Machine.execHdcfgWrite d value s
  | .granuleMove d => Sys2Proof.Machine.execGranuleMove d s
  | .migrationComplete d => Sys2Proof.Machine.execMigrationComplete d s
  | .mctlWrite value => Sys2Proof.Machine.execMctlWrite value s
  | .switchAccess r => Sys2Proof.Machine.execSwitchAccess r s
  | .mirrorImageInstall r => Sys2Proof.Machine.execMirrorImageInstall r s
  | .failoverAccess r => Sys2Proof.Machine.execFailoverAccess r s
  | .mergeLockLapse plane granule => Sys2Proof.Machine.execMergeLockLapse plane granule s
  | .planeDown p => Sys2Proof.Machine.execPlaneDown p s
  | .planeUp p gen => Sys2Proof.Machine.execPlaneUp p gen s
  | .collectiveAbortReceipt sender group cgen => Sys2Proof.Machine.execCollectiveAbortReceipt sender group cgen s
  | .starterDecision => Sys2Proof.Machine.execStarterDecision s
  | .starterTimedDecision => Sys2Proof.Machine.execStarterTimedDecision s
  | .launchBlocking seq => Sys2Proof.Machine.execLaunchBlocking seq s
  | .dependenceFailed seq => Sys2Proof.Machine.execDependenceFailed seq s
  | .launchCompletion seq => Sys2Proof.Machine.execLaunchCompletion seq s
  | .unloadComplete obj => Sys2Proof.Machine.execUnloadComplete obj s
  | .ccmdOpen die target inc => Sys2Proof.Machine.execCcmdOpen die target inc s
  | .ccmdResume die target inc => Sys2Proof.Machine.execCcmdResume die target inc s
  | .ccmdKill die target inc => Sys2Proof.Machine.execCcmdKill die target inc s
  | .ccmdClose die target inc => Sys2Proof.Machine.execCcmdClose die target inc s
  | .ccmdBadcmd die => Sys2Proof.Machine.execCcmdBadcmd die s
  | .machineCheck core => Sys2Proof.Machine.execMachineCheck core s
  | .truncationCleanup record => Sys2Proof.Machine.execTruncationCleanup record s
  | .cleanupComplete record => Sys2Proof.Machine.execCleanupComplete record s
  | .cleanupFailed record lost cause => Sys2Proof.Machine.execCleanupFailed record lost cause s
  | .hostAccess r => Sys2Proof.Machine.execHostAccess r s
  | .hostSignal master handle amount => Sys2Proof.Machine.execHostSignal master handle amount s
  | .hostsigWrite value => Sys2Proof.Machine.execHostsigWrite value s
  | .linkLoss => Sys2Proof.Machine.execLinkLoss s
  | .linkReturn => Sys2Proof.Machine.execLinkReturn s
  | .ownClaim x e n => Sys2Proof.Machine.execOwnClaim x e n s
  | .ownRelease x e n => Sys2Proof.Machine.execOwnRelease x e n s
  | .ownHandover x e n => Sys2Proof.Machine.execOwnHandover x e n s
  | .leaseLapse => Sys2Proof.Machine.execLeaseLapse s
  | .ownerScrubComplete => Sys2Proof.Machine.execOwnerScrubComplete s
  | .engagementScrub req => Sys2Proof.Machine.execEngagementScrub req s
  | .engagementScrubComplete => Sys2Proof.Machine.execEngagementScrubComplete s
  | .attestation req => Sys2Proof.Machine.execAttestation req s
  | .attestationComplete => Sys2Proof.Machine.execAttestationComplete s
  | .keyLoad slot record => Sys2Proof.Machine.execKeyLoad slot record s
  | .keyErase slot => Sys2Proof.Machine.execKeyErase slot s
  | .moduleReset => Sys2Proof.Machine.execModuleReset s
  | .memoryTrained => Sys2Proof.Machine.execMemoryTrained s
  | .fabricTrained planes => Sys2Proof.Machine.execFabricTrained planes s
  | .hbmRepair bank spare => Sys2Proof.Machine.execHbmRepair bank spare s
  | .clockThrottle => Sys2Proof.Machine.execClockThrottle s
  | .clockRestore => Sys2Proof.Machine.execClockRestore s
  | .thermalStop => Sys2Proof.Machine.execThermalStop s
  | .registerWrite pa value => Sys2Proof.Machine.execRegisterWrite pa value s
  | .vwaitRound core cnum => Sys2Proof.Machine.execVwaitRound core cnum s
  | .illegalInstruction w => Sys2Proof.Machine.execIllegalInstruction w s
  | .instructionFetchFault cause => Sys2Proof.Machine.execInstructionFetchFault cause s

end Sys2Proof.Machine
end

