-- ==== Sys2Proof/Machine/Fast.lean ====
section
/-! DEFINITION. The meaning of a word and of a step on the agenda, as exec of its instruction, with a second form of each
that Lean can compile: Lean compiles no construction of a constructor with fields beyond the 244th. -/

namespace Sys2Proof.Machine

/-- The meaning of a word that decodes. -/
noncomputable def execWord (w : Nat) (s : State) : Res :=
  match decode w with
  | .ok i => exec i s
  | .error _ => execIllegalInstruction (BitVec.ofNat 32 w) s

/-- The row of the opcode table of a step that waits on the agenda. -/
noncomputable def eventInstr : Event → Instr
  | .waitingRecordWrite die => .waitingRecordWrite die
  | .deferredStoreFailure core => .deferredStoreFailure core
  | .pendingDatumArrival core cnum idx value poisoned => .pendingDatumArrival core cnum idx value poisoned
  | .preemption core why => .preemption core why
  | .pacerDecision core => .pacerDecision core
  | .pacerPreemption core => .pacerPreemption core
  | .contextSpill core cnum => .contextSpill core cnum
  | .contextReturn core cnum => .contextReturn core cnum
  | .clusterWindowRequest core => .clusterWindowRequest core
  | .activeMessageHandler core => .activeMessageHandler core
  | .handlerLimit core => .handlerLimit core
  | .amReplyDelivery r => .amReplyDelivery r
  | .remoteSignalArrival sender handle kind => .remoteSignalArrival sender handle kind
  | .batonPoll core cnum => .batonPoll core cnum
  | .relayChunk core ch => .relayChunk core ch
  | .relayBeat core ch => .relayBeat core ch
  | .relayComplete core ch => .relayComplete core ch
  | .relayCancelComplete core ch => .relayCancelComplete core ch
  | .translationWalk core asid va => .translationWalk core asid va
  | .runAheadTranslation core pc => .runAheadTranslation core pc
  | .maintenanceComplete die idx => .maintenanceComplete die idx
  | .asidRetirementComplete asid => .asidRetirementComplete asid
  | .homeSliceRequest r => .homeSliceRequest r
  | .bankConflict d => .bankConflict d
  | .hdcfgWrite d value => .hdcfgWrite d value
  | .granuleMove d => .granuleMove d
  | .migrationComplete d => .migrationComplete d
  | .mctlWrite value => .mctlWrite value
  | .switchAccess r => .switchAccess r
  | .mirrorImageInstall r => .mirrorImageInstall r
  | .failoverAccess r => .failoverAccess r
  | .mergeLockLapse plane granule => .mergeLockLapse plane granule
  | .planeDown p => .planeDown p
  | .planeUp p gen => .planeUp p gen
  | .collectiveAbortReceipt sender group cgen => .collectiveAbortReceipt sender group cgen
  | .starterDecision => .starterDecision
  | .starterTimedDecision => .starterTimedDecision
  | .launchBlocking seq => .launchBlocking seq
  | .dependenceFailed seq => .dependenceFailed seq
  | .launchCompletion seq => .launchCompletion seq
  | .unloadComplete obj => .unloadComplete obj
  | .ccmdOpen die target inc => .ccmdOpen die target inc
  | .ccmdResume die target inc => .ccmdResume die target inc
  | .ccmdKill die target inc => .ccmdKill die target inc
  | .ccmdClose die target inc => .ccmdClose die target inc
  | .ccmdBadcmd die => .ccmdBadcmd die
  | .machineCheck core => .machineCheck core
  | .truncationCleanup r_ => .truncationCleanup r_
  | .cleanupComplete r_ => .cleanupComplete r_
  | .cleanupFailed r_ lost cause => .cleanupFailed r_ lost cause
  | .hostAccess r => .hostAccess r
  | .hostSignal master handle amount => .hostSignal master handle amount
  | .hostsigWrite value => .hostsigWrite value
  | .linkLoss => .linkLoss
  | .linkReturn => .linkReturn
  | .ownClaim x e n => .ownClaim x e n
  | .ownRelease x e n => .ownRelease x e n
  | .ownHandover x e n => .ownHandover x e n
  | .leaseLapse => .leaseLapse
  | .ownerScrubComplete => .ownerScrubComplete
  | .engagementScrub req => .engagementScrub req
  | .engagementScrubComplete => .engagementScrubComplete
  | .attestation req => .attestation req
  | .attestationComplete => .attestationComplete
  | .keyLoad slot r_ => .keyLoad slot r_
  | .keyErase slot => .keyErase slot
  | .moduleReset => .moduleReset
  | .memoryTrained => .memoryTrained
  | .fabricTrained planes => .fabricTrained planes
  | .hbmRepair bank spare => .hbmRepair bank spare
  | .clockThrottle => .clockThrottle
  | .clockRestore => .clockRestore
  | .thermalStop => .thermalStop
  | .registerWrite pa value => .registerWrite pa value
  | .vwaitRound core cnum => .vwaitRound core cnum

/-- The meaning of a step on the agenda. -/
noncomputable def execEvent (e : Event) (s : State) : Res := exec (eventInstr e) s

/-! ## Steps on the agenda -/

/-- The same, without the instruction between. -/
def runEvent (e : Event) (s : State) : Res :=
  match e with
  | .waitingRecordWrite die => execWaitingRecordWrite die s
  | .deferredStoreFailure core => execDeferredStoreFailure core s
  | .pendingDatumArrival core cnum idx value poisoned => execPendingDatumArrival core cnum idx value poisoned s
  | .preemption core why => execPreemption core why s
  | .pacerDecision core => execPacerDecision core s
  | .pacerPreemption core => execPacerPreemption core s
  | .contextSpill core cnum => execContextSpill core cnum s
  | .contextReturn core cnum => execContextReturn core cnum s
  | .clusterWindowRequest core => execClusterWindowRequest core s
  | .activeMessageHandler core => execActiveMessageHandler core s
  | .handlerLimit core => execHandlerLimit core s
  | .amReplyDelivery r => execAmReplyDelivery r s
  | .remoteSignalArrival sender handle kind => execRemoteSignalArrival sender handle kind s
  | .batonPoll core cnum => execBatonPoll core cnum s
  | .relayChunk core ch => execRelayChunk core ch s
  | .relayBeat core ch => execRelayBeat core ch s
  | .relayComplete core ch => execRelayComplete core ch s
  | .relayCancelComplete core ch => execRelayCancelComplete core ch s
  | .translationWalk core asid va => execTranslationWalk core asid va s
  | .runAheadTranslation core pc => execRunAheadTranslation core pc s
  | .maintenanceComplete die idx => execMaintenanceComplete die idx s
  | .asidRetirementComplete asid => execAsidRetirementComplete asid s
  | .homeSliceRequest r => execHomeSliceRequest r s
  | .bankConflict d => execBankConflict d s
  | .hdcfgWrite d value => execHdcfgWrite d value s
  | .granuleMove d => execGranuleMove d s
  | .migrationComplete d => execMigrationComplete d s
  | .mctlWrite value => execMctlWrite value s
  | .switchAccess r => execSwitchAccess r s
  | .mirrorImageInstall r => execMirrorImageInstall r s
  | .failoverAccess r => execFailoverAccess r s
  | .mergeLockLapse plane granule => execMergeLockLapse plane granule s
  | .planeDown p => execPlaneDown p s
  | .planeUp p gen => execPlaneUp p gen s
  | .collectiveAbortReceipt sender group cgen => execCollectiveAbortReceipt sender group cgen s
  | .starterDecision => execStarterDecision s
  | .starterTimedDecision => execStarterTimedDecision s
  | .launchBlocking seq => execLaunchBlocking seq s
  | .dependenceFailed seq => execDependenceFailed seq s
  | .launchCompletion seq => execLaunchCompletion seq s
  | .unloadComplete obj => execUnloadComplete obj s
  | .ccmdOpen die target inc => execCcmdOpen die target inc s
  | .ccmdResume die target inc => execCcmdResume die target inc s
  | .ccmdKill die target inc => execCcmdKill die target inc s
  | .ccmdClose die target inc => execCcmdClose die target inc s
  | .ccmdBadcmd die => execCcmdBadcmd die s
  | .machineCheck core => execMachineCheck core s
  | .truncationCleanup r_ => execTruncationCleanup r_ s
  | .cleanupComplete r_ => execCleanupComplete r_ s
  | .cleanupFailed r_ lost cause => execCleanupFailed r_ lost cause s
  | .hostAccess r => execHostAccess r s
  | .hostSignal master handle amount => execHostSignal master handle amount s
  | .hostsigWrite value => execHostsigWrite value s
  | .linkLoss => execLinkLoss s
  | .linkReturn => execLinkReturn s
  | .ownClaim x e n => execOwnClaim x e n s
  | .ownRelease x e n => execOwnRelease x e n s
  | .ownHandover x e n => execOwnHandover x e n s
  | .leaseLapse => execLeaseLapse s
  | .ownerScrubComplete => execOwnerScrubComplete s
  | .engagementScrub req => execEngagementScrub req s
  | .engagementScrubComplete => execEngagementScrubComplete s
  | .attestation req => execAttestation req s
  | .attestationComplete => execAttestationComplete s
  | .keyLoad slot r_ => execKeyLoad slot r_ s
  | .keyErase slot => execKeyErase slot s
  | .moduleReset => execModuleReset s
  | .memoryTrained => execMemoryTrained s
  | .fabricTrained planes => execFabricTrained planes s
  | .hbmRepair bank spare => execHbmRepair bank spare s
  | .clockThrottle => execClockThrottle s
  | .clockRestore => execClockRestore s
  | .thermalStop => execThermalStop s
  | .registerWrite pa value => execRegisterWrite pa value s
  | .vwaitRound core cnum => execVwaitRound core cnum s

@[csimp] theorem execEvent_eq : @execEvent = @runEvent := by
  funext e s
  cases e <;> rfl

/-! ## Words of majors 0x30 to 0x39 -/

/-- Their instructions, in a type that Lean compiles. -/
inductive High where
  | mmk (g : Guard) (c : Bool) (e : Fin 4) (a b : Fin 64) (t : Fin 16)
  | mmkScratchpad (g : Guard) (c : Bool) (e : Fin 4) (a : Fin 64) (b : Fin 32) (t : Fin 16)
  | mmga (g : Guard) (c : Bool) (e : Fin 4) (a b : Fin 64) (t : Fin 16)
  | mmgaScratchpad (g : Guard) (c : Bool) (e : Fin 4) (a : Fin 64) (b : Fin 32) (t : Fin 16)
  | mshape (d a : Fin 32)
  | mzero (g : Guard) (e : Fin 4)
  | mld (g : Guard) (e : Fin 4) (a : Fin 32)
  | mst (g : Guard) (e : Fin 4) (a : Fin 32)
  | mcvt (g : Guard) (d : Fin 64) (e : Fin 4) (t : Fin 16)
  | mseg (d a : Fin 32)
  | vtmask (g : Guard) (c : Bool) (d : Fin 8) (a : Fin 64) (b : Fin 32)
  | vexpm (g : Guard) (c : Bool) (d a b : Fin 64)
  | vscore (g : Guard) (c : Bool) (d : Fin 64) (q : Fin 16) (e : Fin 4) (b : Fin 32)
  | vpacc (g : Guard) (c : Bool) (d a b : Fin 64)
  | pxl (g : Guard) (d a : Fin 64) (b : Fin 32)
  | pxw (g : Guard) (a b : Fin 32)
  | pxwSh (g : Guard) (a : Fin 32) (k : Fin 8)
  | pxinv (g : Guard) (a b : Fin 32)
  | pxret (g : Guard)
  | dsadv (g : Guard) (d : Fin 64) (a b : Fin 32)
  | dstrunc (g : Guard) (a b : Fin 32)
  | dsframe (g : Guard) (d a b : Fin 32)
  | dsplay (g : Guard) (a b : Fin 32)
  | launch (g : Guard) (d a : Fin 32)
  | cancel (g : Guard) (d a : Fin 32)
  | cget (g : Guard) (d : Fin 32) (r : Fin 64)
  | cset (g : Guard) (r : Fin 64) (a : Fin 32)
  | vcfg (g : Guard) (d : Fin 32) (r w : Fin 4)
  | spsplit (g : Guard) (d : Fin 32) (k : Fin 16)
  | stripBegin (g : Guard) (a : Fin 32)
  | stripCommit (g : Guard)
  | asidBind (g : Guard) (d a : Fin 32)
  | asidRetire (g : Guard) (d a : Fin 32)
  | xlinvVa (g : Guard) (d a b : Fin 32)
  | xlinvAsid (g : Guard) (d a : Fin 32)
  | xlinvGlob (g : Guard) (d : Fin 32)
  | fence (g : Guard) (k : Fin 4) (sc : Fin 8)

/-- The instruction. -/
noncomputable def High.instr : High → Instr
  | .mmk g c e a b t => .mmk g c e a b t
  | .mmkScratchpad g c e a b t => .mmkScratchpad g c e a b t
  | .mmga g c e a b t => .mmga g c e a b t
  | .mmgaScratchpad g c e a b t => .mmgaScratchpad g c e a b t
  | .mshape d a => .mshape d a
  | .mzero g e => .mzero g e
  | .mld g e a => .mld g e a
  | .mst g e a => .mst g e a
  | .mcvt g d e t => .mcvt g d e t
  | .mseg d a => .mseg d a
  | .vtmask g c d a b => .vtmask g c d a b
  | .vexpm g c d a b => .vexpm g c d a b
  | .vscore g c d q e b => .vscore g c d q e b
  | .vpacc g c d a b => .vpacc g c d a b
  | .pxl g d a b => .pxl g d a b
  | .pxw g a b => .pxw g a b
  | .pxwSh g a k => .pxwSh g a k
  | .pxinv g a b => .pxinv g a b
  | .pxret g => .pxret g
  | .dsadv g d a b => .dsadv g d a b
  | .dstrunc g a b => .dstrunc g a b
  | .dsframe g d a b => .dsframe g d a b
  | .dsplay g a b => .dsplay g a b
  | .launch g d a => .launch g d a
  | .cancel g d a => .cancel g d a
  | .cget g d r => .cget g d r
  | .cset g r a => .cset g r a
  | .vcfg g d r w => .vcfg g d r w
  | .spsplit g d k => .spsplit g d k
  | .stripBegin g a => .stripBegin g a
  | .stripCommit g => .stripCommit g
  | .asidBind g d a => .asidBind g d a
  | .asidRetire g d a => .asidRetire g d a
  | .xlinvVa g d a b => .xlinvVa g d a b
  | .xlinvAsid g d a => .xlinvAsid g d a
  | .xlinvGlob g d => .xlinvGlob g d
  | .fence g k sc => .fence g k sc

def High.wellFormed : High → Bool
  | .mmk g _ _ _ _ t => g.ok && productType t
  | .mmkScratchpad g _ _ _ _ t => g.ok && productType t
  | .mmga g _ _ _ _ t => g.ok && productType t
  | .mmgaScratchpad g _ _ _ _ t => g.ok && productType t
  | .mshape _ _ => true
  | .mzero g _ => g.ok
  | .mld g _ _ => g.ok
  | .mst g _ _ => g.ok
  | .mcvt g _ _ _ => g.ok
  | .mseg _ _ => true
  | .vtmask g _ d _ _ => g.ok && maskOk d
  | .vexpm g _ d a y => g.ok && d.val != y.val && a.val != y.val
  | .vscore g _ _ _ _ _ => g.ok
  | .vpacc g _ d _ y => g.ok && d.val != y.val
  | .pxl g _ _ _ => g.ok
  | .pxw g _ _ => g.ok
  | .pxwSh g _ _ => g.ok
  | .pxinv g _ _ => g.ok
  | .pxret g => g.ok
  | .dsadv g d _ _ => g.ok && pairOk d
  | .dstrunc g _ _ => g.ok
  | .dsframe g _ _ _ => g.ok
  | .dsplay g _ _ => g.ok
  | .launch g _ _ => g.ok
  | .cancel g _ _ => g.ok
  | .cget g _ _ => g.ok
  | .cset g _ _ => g.ok
  | .vcfg g _ _ _ => g.ok
  | .spsplit g _ k => g.ok && k.val ≤ 8
  | .stripBegin g _ => g.ok
  | .stripCommit g => g.ok
  | .asidBind g _ _ => g.ok
  | .asidRetire g _ _ => g.ok
  | .xlinvVa g _ _ _ => g.ok
  | .xlinvAsid g _ _ => g.ok
  | .xlinvGlob g _ => g.ok
  | .fence g _ _ => g.ok

def High.encode : High → Nat
  | .mmk g c e a b t => wordX 0x30 g c e.val a.val b.val t.val 0
  | .mmkScratchpad g c e a b t => wordX 0x30 g c e.val a.val b.val t.val 1
  | .mmga g c e a b t => wordX 0x31 g c e.val a.val b.val t.val 0
  | .mmgaScratchpad g c e a b t => wordX 0x31 g c e.val a.val b.val t.val 1
  | .mshape d a => wordR 0x32 .always false d.val a.val 0 0
  | .mzero g e => wordR 0x32 g false e.val 0 0 1
  | .mld g e a => wordR 0x32 g false e.val a.val 0 2
  | .mst g e a => wordR 0x32 g false e.val a.val 0 3
  | .mcvt g d e t => wordR 0x32 g false d.val e.val t.val 4
  | .mseg d a => wordR 0x32 .always false d.val a.val 0 5
  | .vtmask g c d a b => wordR 0x33 g c d.val a.val b.val 0
  | .vexpm g c d a b => wordR 0x33 g c d.val a.val b.val 1
  | .vscore g c d q e b => wordR 0x33 g c d.val (q.val * 2 ^ 2 + e.val) b.val 2
  | .vpacc g c d a b => wordR 0x33 g c d.val a.val b.val 3
  | .pxl g d a b => wordR 0x34 g false d.val a.val b.val 0
  | .pxw g a b => wordR 0x34 g false 0 a.val b.val 1
  | .pxwSh g a k => wordR 0x34 g false 1 a.val k.val 1
  | .pxinv g a b => wordR 0x34 g false 0 a.val b.val 2
  | .pxret g => wordR 0x34 g false 0 0 0 3
  | .dsadv g d a b => wordR 0x35 g false d.val a.val b.val 0
  | .dstrunc g a b => wordR 0x35 g false 0 a.val b.val 1
  | .dsframe g d a b => wordR 0x35 g false d.val a.val b.val 2
  | .dsplay g a b => wordR 0x35 g false 0 a.val b.val 3
  | .launch g d a => wordR 0x36 g false d.val a.val 0 0
  | .cancel g d a => wordR 0x36 g false d.val a.val 0 1
  | .cget g d r => wordR 0x38 g false d.val r.val 0 0
  | .cset g r a => wordR 0x38 g false r.val a.val 0 1
  | .vcfg g d r w => wordR 0x38 g false d.val r.val w.val 2
  | .spsplit g d k => wordR 0x38 g false d.val k.val 0 3
  | .stripBegin g a => wordR 0x38 g false 0 a.val 0 4
  | .stripCommit g => wordR 0x38 g false 0 0 0 5
  | .asidBind g d a => wordR 0x38 g false d.val a.val 0 6
  | .asidRetire g d a => wordR 0x38 g false d.val a.val 0 7
  | .xlinvVa g d a b => wordR 0x39 g false d.val a.val b.val 0
  | .xlinvAsid g d a => wordR 0x39 g false d.val a.val 0 1
  | .xlinvGlob g d => wordR 0x39 g false d.val 0 0 2
  | .fence g k sc => wordR 0x39 g false 0 k.val sc.val 3

def High.traits : High → Traits
  | .mmk _ c _ a b _ => ⟨false, none, false, false, false, false, some (c, { unit := .a, rv := [a, b], matrix := true, mixed := true }), [], []⟩
  | .mmkScratchpad _ c _ a b _ => ⟨false, none, false, false, false, false, some (c, { unit := .a, rv := [a], matrix := true, mixed := true, sb := some b }), [], [b]⟩
  | .mmga _ c _ a b _ => ⟨false, none, false, false, false, false, some (c, { unit := .a, rv := [a, b], matrix := true, mixed := true }), [], []⟩
  | .mmgaScratchpad _ c _ a b _ => ⟨false, none, false, false, false, false, some (c, { unit := .a, rv := [a], matrix := true, mixed := true, sb := some b }), [], [b]⟩
  | .mshape _ a => ⟨false, none, false, false, false, false, none, [], [a]⟩
  | .mzero _ _ => ⟨false, none, false, false, false, false, none, [], []⟩
  | .mld _ _ a => ⟨false, none, false, true, false, false, none, [], [a]⟩
  | .mst _ _ a => ⟨false, none, false, true, false, false, none, [], [a]⟩
  | .mcvt _ _ _ _ => ⟨false, none, false, true, false, false, none, [], []⟩
  | .mseg _ a => ⟨false, none, false, false, false, false, none, [], [a]⟩
  | .vtmask _ c d a b => ⟨false, none, false, false, false, false, some (c, { unit := .a, wm := [d], rv := [a], mixed := true }), [], [b]⟩
  | .vexpm _ c d a b => ⟨false, none, false, false, false, false, some (c, { unit := .a, wv := [d, b], rv := [a, b], cross := true, mixed := true }), [], []⟩
  | .vscore _ c d _ _ b => ⟨false, none, false, false, false, false, some (c, { unit := .a, wv := [d], mixed := true }), [], [b]⟩
  | .vpacc _ c d a b => ⟨false, none, false, false, false, false, some (c, { unit := .a, wv := [d], rv := [d, a, b], mixed := true }), [], []⟩
  | .pxl _ _ _ b => ⟨false, none, false, false, false, false, none, [], [b]⟩
  | .pxw g a b => ⟨false, none, false, false, false, true, none, [g.idx], [a, b]⟩
  | .pxwSh g a _ => ⟨true, none, false, false, false, false, none, [g.idx], [a]⟩
  | .pxinv g a b => ⟨false, none, false, false, false, true, none, [g.idx], [a, b]⟩
  | .pxret g => ⟨false, none, false, false, false, true, none, [g.idx], []⟩
  | .dsadv g _ a b => ⟨false, none, false, false, false, false, none, [g.idx], [a, b]⟩
  | .dstrunc g a b => ⟨false, none, false, false, false, false, none, [g.idx], [a, b]⟩
  | .dsframe g _ a b => ⟨false, none, false, false, false, false, none, [g.idx], [a, b]⟩
  | .dsplay g a b => ⟨false, none, false, false, false, false, none, [g.idx], [a, b]⟩
  | .launch g _ a => ⟨true, none, false, false, false, false, none, [g.idx], [a]⟩
  | .cancel g _ a => ⟨true, none, false, false, false, false, none, [g.idx], [a]⟩
  | .cget g _ r => ⟨false, some (r, false), false, false, false, false, none, [g.idx], []⟩
  | .cset g r a => ⟨false, some (r, true), false, false, false, false, none, [g.idx], [a]⟩
  | .vcfg g _ _ _ => ⟨false, none, false, false, false, false, none, [g.idx], []⟩
  | .spsplit g _ _ => ⟨false, none, false, false, false, false, none, [g.idx], []⟩
  | .stripBegin g a => ⟨false, none, false, false, false, false, none, [g.idx], [a]⟩
  | .stripCommit g => ⟨false, none, false, false, false, false, none, [g.idx], []⟩
  | .asidBind g d a => ⟨true, none, false, false, false, false, none, [g.idx], [d, a]⟩
  | .asidRetire g d a => ⟨true, none, false, false, false, false, none, [g.idx], [d, a]⟩
  | .xlinvVa g d a b => ⟨true, none, false, false, false, false, none, [g.idx], [d, a, b]⟩
  | .xlinvAsid g d a => ⟨true, none, false, false, false, false, none, [g.idx], [d, a]⟩
  | .xlinvGlob g d => ⟨true, none, false, false, false, false, none, [g.idx], [d]⟩
  | .fence g _ _ => ⟨false, none, false, false, false, false, none, [g.idx], []⟩

/-- Its meaning. -/
def High.run (h : High) (s : State) : Res :=
  match h with
  | .mmk g c e a b t => execMmk g c e a b t s
  | .mmkScratchpad g c e a b t => execMmkScratchpad g c e a b t s
  | .mmga g c e a b t => execMmga g c e a b t s
  | .mmgaScratchpad g c e a b t => execMmgaScratchpad g c e a b t s
  | .mshape d a => execMshape d a s
  | .mzero g e => execMzero g e s
  | .mld g e a => execMld g e a s
  | .mst g e a => execMst g e a s
  | .mcvt g d e t => execMcvt g d e t s
  | .mseg d a => execMseg d a s
  | .vtmask g c d a b => execVtmask g c d a b s
  | .vexpm g c d a b => execVexpm g c d a b s
  | .vscore g c d q e b => execVscore g c d q e b s
  | .vpacc g c d a b => execVpacc g c d a b s
  | .pxl g d a b => execPxl g d a b s
  | .pxw g a b => execPxw g a b s
  | .pxwSh g a k => execPxwSh g a k s
  | .pxinv g a b => execPxinv g a b s
  | .pxret g => execPxret g s
  | .dsadv g d a b => execDsadv g d a b s
  | .dstrunc g a b => execDstrunc g a b s
  | .dsframe g d a b => execDsframe g d a b s
  | .dsplay g a b => execDsplay g a b s
  | .launch g d a => execLaunch g d a s
  | .cancel g d a => execCancel g d a s
  | .cget g d r => execCget g d r s
  | .cset g r a => execCset g r a s
  | .vcfg g d r w => execVcfg g d r w s
  | .spsplit g d k => execSpsplit g d k s
  | .stripBegin g a => execStripBegin g a s
  | .stripCommit g => execStripCommit g s
  | .asidBind g d a => execAsidBind g d a s
  | .asidRetire g d a => execAsidRetire g d a s
  | .xlinvVa g d a b => execXlinvVa g d a b s
  | .xlinvAsid g d a => execXlinvAsid g d a s
  | .xlinvGlob g d => execXlinvGlob g d s
  | .fence g k sc => execFence g k sc s

def dec30High (w : Nat) : Option High :=
  match w / 2 ^ 2 % 2 with
  | 0 => some (.mmk (guardOf w) (bitAt w 21) (fieldAt w 19 4) (fieldAt w 13 64) (fieldAt w 7 64) (fieldAt w 3 16))
  | _ => some (.mmkScratchpad (guardOf w) (bitAt w 21) (fieldAt w 19 4) (fieldAt w 13 64) (fieldAt w 7 32) (fieldAt w 3 16))

def dec31High (w : Nat) : Option High :=
  match w / 2 ^ 2 % 2 with
  | 0 => some (.mmga (guardOf w) (bitAt w 21) (fieldAt w 19 4) (fieldAt w 13 64) (fieldAt w 7 64) (fieldAt w 3 16))
  | _ => some (.mmgaScratchpad (guardOf w) (bitAt w 21) (fieldAt w 19 4) (fieldAt w 13 64) (fieldAt w 7 32) (fieldAt w 3 16))

def dec32High (w : Nat) : Option High :=
  match w % 8 with
  | 0 => some (.mshape (fieldAt w 15 32) (fieldAt w 9 32))
  | 1 => some (.mzero (guardOf w) (fieldAt w 15 4))
  | 2 => some (.mld (guardOf w) (fieldAt w 15 4) (fieldAt w 9 32))
  | 3 => some (.mst (guardOf w) (fieldAt w 15 4) (fieldAt w 9 32))
  | 4 => some (.mcvt (guardOf w) (fieldAt w 15 64) (fieldAt w 9 4) (fieldAt w 3 16))
  | 5 => some (.mseg (fieldAt w 15 32) (fieldAt w 9 32))
  | _ => none

def dec33High (w : Nat) : Option High :=
  match w % 8 with
  | 0 => some (.vtmask (guardOf w) (bitAt w 21) (fieldAt w 15 8) (fieldAt w 9 64) (fieldAt w 3 32))
  | 1 => some (.vexpm (guardOf w) (bitAt w 21) (fieldAt w 15 64) (fieldAt w 9 64) (fieldAt w 3 64))
  | 2 => some (.vscore (guardOf w) (bitAt w 21) (fieldAt w 15 64) (fieldAt w 11 16) (fieldAt w 9 4) (fieldAt w 3 32))
  | 3 => some (.vpacc (guardOf w) (bitAt w 21) (fieldAt w 15 64) (fieldAt w 9 64) (fieldAt w 3 64))
  | _ => none

def dec34High (w : Nat) : Option High :=
  match w % 8 with
  | 0 => some (.pxl (guardOf w) (fieldAt w 15 64) (fieldAt w 9 64) (fieldAt w 3 32))
  | 1 => if w / 2 ^ 15 % 64 = 1 then some (.pxwSh (guardOf w) (fieldAt w 9 32) (fieldAt w 3 8)) else some (.pxw (guardOf w) (fieldAt w 9 32) (fieldAt w 3 32))
  | 2 => some (.pxinv (guardOf w) (fieldAt w 9 32) (fieldAt w 3 32))
  | 3 => some (.pxret (guardOf w))
  | _ => none

def dec35High (w : Nat) : Option High :=
  match w % 8 with
  | 0 => some (.dsadv (guardOf w) (fieldAt w 15 64) (fieldAt w 9 32) (fieldAt w 3 32))
  | 1 => some (.dstrunc (guardOf w) (fieldAt w 9 32) (fieldAt w 3 32))
  | 2 => some (.dsframe (guardOf w) (fieldAt w 15 32) (fieldAt w 9 32) (fieldAt w 3 32))
  | 3 => some (.dsplay (guardOf w) (fieldAt w 9 32) (fieldAt w 3 32))
  | _ => none

def dec36High (w : Nat) : Option High :=
  match w % 8 with
  | 0 => some (.launch (guardOf w) (fieldAt w 15 32) (fieldAt w 9 32))
  | 1 => some (.cancel (guardOf w) (fieldAt w 15 32) (fieldAt w 9 32))
  | _ => none

def dec38High (w : Nat) : Option High :=
  match w % 8 with
  | 0 => some (.cget (guardOf w) (fieldAt w 15 32) (fieldAt w 9 64))
  | 1 => some (.cset (guardOf w) (fieldAt w 15 64) (fieldAt w 9 32))
  | 2 => some (.vcfg (guardOf w) (fieldAt w 15 32) (fieldAt w 9 4) (fieldAt w 3 4))
  | 3 => some (.spsplit (guardOf w) (fieldAt w 15 32) (fieldAt w 9 16))
  | 4 => some (.stripBegin (guardOf w) (fieldAt w 9 32))
  | 5 => some (.stripCommit (guardOf w))
  | 6 => some (.asidBind (guardOf w) (fieldAt w 15 32) (fieldAt w 9 32))
  | _ => some (.asidRetire (guardOf w) (fieldAt w 15 32) (fieldAt w 9 32))

def dec39High (w : Nat) : Option High :=
  match w % 8 with
  | 0 => some (.xlinvVa (guardOf w) (fieldAt w 15 32) (fieldAt w 9 32) (fieldAt w 3 32))
  | 1 => some (.xlinvAsid (guardOf w) (fieldAt w 15 32) (fieldAt w 9 32))
  | 2 => some (.xlinvGlob (guardOf w) (fieldAt w 15 32))
  | 3 => some (.fence (guardOf w) (fieldAt w 9 4) (fieldAt w 3 8))
  | _ => none

/-- The instruction that a word of such a major names. -/
def High.ofWord (w : Nat) : Option High :=
  match w / 2 ^ 26 % 64 with
  | 0x30 => dec30High w
  | 0x31 => dec31High w
  | 0x32 => dec32High w
  | 0x33 => dec33High w
  | 0x34 => dec34High w
  | 0x35 => dec35High w
  | 0x36 => dec36High w
  | 0x38 => dec38High w
  | 0x39 => dec39High w
  | _ => none

/-- Whether a word is one that its instruction is encoded as. -/
def High.fits (h : High) (w : Nat) : Bool := (guardOf w).ok && h.wellFormed && h.encode == w
def lowFits (i : Instr) (w : Nat) : Bool := (guardOf w).ok && i.wellFormed && encode i == some w

/-- The traits of a word, and its meaning, without `decode`. -/
def quickTraits (w : Nat) : Option Traits :=
  if w = 0x03C00000 then some (traitsOfInstr .nop)
  else if w / 2 ^ 26 % 64 < 0x30 then
    match decodeLow w with
    | none => none
    | some i => if lowFits i w then some (traitsOfInstr i) else none
  else match High.ofWord w with
    | none => none
    | some h => if h.fits w then some h.traits else none

def quickWord (w : Nat) (s : State) : Res :=
  let bad : Res := execIllegalInstruction (BitVec.ofNat 32 w) s
  if w = 0x03C00000 then execNop s
  else if w / 2 ^ 26 % 64 < 0x30 then
    match decodeLow w with
    | none => bad
    | some i => if lowFits i w then exec i s else bad
  else match High.ofWord w with
    | none => bad
    | some h => if h.fits w then h.run s else bad

theorem High.instr_wellFormed (h : High) : h.instr.wellFormed = h.wellFormed := by cases h <;> rfl
theorem High.instr_encode (h : High) : Sys2Proof.encode h.instr = some h.encode := by cases h <;> rfl
theorem High.instr_traits (h : High) : traitsOfInstr h.instr = h.traits := by cases h <;> rfl
theorem High.instr_run (h : High) (s : State) : exec h.instr s = h.run s := by cases h <;> rfl

theorem dec30_instr (w : Nat) : dec30 w = (dec30High w).map High.instr := by
  unfold dec30 dec30High
  (repeat' split) <;> first | rfl | contradiction
theorem dec31_instr (w : Nat) : dec31 w = (dec31High w).map High.instr := by
  unfold dec31 dec31High
  (repeat' split) <;> first | rfl | contradiction
theorem dec32_instr (w : Nat) : dec32 w = (dec32High w).map High.instr := by
  unfold dec32 dec32High
  (repeat' split) <;> first | rfl | contradiction | simp_all
theorem dec33_instr (w : Nat) : dec33 w = (dec33High w).map High.instr := by
  unfold dec33 dec33High
  (repeat' split) <;> first | rfl | contradiction | simp_all
theorem dec34_instr (w : Nat) : dec34 w = (dec34High w).map High.instr := by
  unfold dec34 dec34High
  (repeat' split) <;> first | rfl | contradiction | simp_all
theorem dec35_instr (w : Nat) : dec35 w = (dec35High w).map High.instr := by
  unfold dec35 dec35High
  (repeat' split) <;> first | rfl | contradiction | simp_all
theorem dec36_instr (w : Nat) : dec36 w = (dec36High w).map High.instr := by
  unfold dec36 dec36High
  (repeat' split) <;> first | rfl | contradiction | simp_all
theorem dec38_instr (w : Nat) : dec38 w = (dec38High w).map High.instr := by
  unfold dec38 dec38High
  (repeat' split) <;> first | rfl | contradiction | simp_all
theorem dec39_instr (w : Nat) : dec39 w = (dec39High w).map High.instr := by
  unfold dec39 dec39High
  (repeat' split) <;> first | rfl | contradiction | simp_all

theorem High.ofWord_instr (w : Nat) : decodeHigh w = (High.ofWord w).map High.instr := by
  unfold decodeHigh High.ofWord
  simp only [dec30_instr, dec31_instr, dec32_instr, dec33_instr, dec34_instr, dec35_instr, dec36_instr,
    dec38_instr, dec39_instr]
  generalize w / 2 ^ 26 % 64 = m
  split <;> first | rfl | (split <;> first | rfl | contradiction)

theorem High.fits_iff (h : High) (w : Nat) :
    ((guardOf w).ok && h.instr.wellFormed && Sys2Proof.encode h.instr == some w) = h.fits w := by
  rw [High.instr_wellFormed, High.instr_encode]; rfl

@[csimp] theorem traitsOf_eq : @traitsOf = @quickTraits := by
  funext w
  unfold traitsOf quickTraits decode decodeRaw
  split_ifs with h1 h2
  · rfl
  · cases decodeLow w with
    | none => rfl
    | some i =>
      cases h : lowFits i w <;> simp only [lowFits] at h <;> simp [lowFits, h]
  · rw [High.ofWord_instr]
    cases High.ofWord w with
    | none => rfl
    | some x =>
      simp only [Option.map_some, High.fits_iff]
      split_ifs
      · exact congrArg some x.instr_traits
      · rfl

@[csimp] theorem execWord_eq : @execWord = @quickWord := by
  funext w s
  unfold execWord quickWord decode decodeRaw
  split_ifs with h1 h2
  · rfl
  · cases decodeLow w with
    | none => rfl
    | some i =>
      cases h : lowFits i w <;> simp only [lowFits] at h <;> simp [lowFits, h]
  · rw [High.ofWord_instr]
    cases High.ofWord w with
    | none => rfl
    | some x =>
      simp only [Option.map_some, High.fits_iff]
      split_ifs
      · exact x.instr_run s
      · rfl

end Sys2Proof.Machine
end

