-- ==== Sys2Proof/Machine/Sched.lean ====
section
/-! DEFINITION. Which agent moves next (log 3): the schedule where it says, else the first step on the agenda that can go
on, else a step of the background and of each busy core in turn. -/

namespace Sys2Proof.Machine

/-- Whether a coroutine's `vwait` would go on in a round read now: its condition is met, or a cause, or it has yet to ask another
core's message slot for an element. -/
def State.roundMet (s : State) (core cnum : Nat) : Bool :=
  let t := s.focus core
  let go (c : Coro) (v : VWait) : Bool := match t.vwaitRoundOf c v with
    | .held _ => true
    | .cause _ _ _ => true
    | .wait _ => (c.flightOr []).asked == 0
    | .unmet _ => false
  match t.core.allCoros.find? (fun c => c.cnum.toNat == cnum) with
  | none => true
  | some c => match c.state with
    | .waitingVec v => go c v
    | .held (.vwait v) => go c v
    | _ => true

/-- Whether a polled baton has met its waiter's condition, or the waiter is gone. -/
def State.pollMet (s : State) (core cnum : Nat) : Bool :=
  match (s.coreAt core).allCoros.find? (fun c => c.cnum.toNat == cnum) with
  | none => true
  | some c => match c.armed with
    | none => true
    | some (h, _) => !c.waits || c.waitMet h (s.baton (handleKey h))

/-- Whether an operation at a position of a die's outstanding maintenance can complete. -/
def State.maintReady (s : State) (die idx : Nat) : Bool :=
  match (s.maintList die)[idx]? with
  | none => true
  | some m => s.drained m.2.kind

/-- Whether a channel's next chunk can begin, or its step would do nothing (R144). -/
def State.chunkReady (s : State) (core ch : Nat) : Bool :=
  let cluster := core / 96
  let k := core % 96 * 8 + ch % 8
  !s.chanWaits cluster k || ((s.idleEngine cluster).isSome && s.nextChan cluster == some k)

/-- Whether a core can take a request for pre-emption (R275, R371, R372). -/
def Core.stoppable (c : Core) : Bool := c.slot.isNone && !c.uncut && c.drain.isNone

/-- Whether a deferred failure can be taken, or its step would do nothing. -/
def Core.deferrable (c : Core) : Bool := c.slot.isNone && !(c.live == .running && c.run.inMidst)

/-- Whether a step has put itself back on the agenda as it was. -/
def State.putBack (s t : State) (e : Event) : Bool := decide (s.agenda.length < t.agenda.length) && t.agenda.getLast? == some e

/-- Whether a step on the agenda would go on, and not wait again. -/
def State.enabled (s : State) (e : Event) : Bool :=
  match e with
  | .waitingRecordWrite die => (s.fqAt die).writable || (s.fqAt die).waiting.isEmpty
  | .deferredStoreFailure core => (s.coreAt core).deferrable
  | .pendingDatumArrival core cnum idx value poisoned => !s.putBack (s.onCore core (fun t => t.datumArrives cnum idx value poisoned)) e
  | .preemption core _ => (s.coreAt core).stoppable
  | .pacerPreemption r => !(s.coreAt r.core).pacerWants || (s.coreAt r.core).stoppable
  | .clusterWindowRequest core => (s.coreAt core).slot.isNone && (match (s.coreAt core).queue with
    | .message _ :: _ => false
    | _ => true)
  | .activeMessageHandler core => (s.coreAt core).slot.isNone && (match (s.coreAt core).queue with
    | .store .. :: _ => false
    | .access .. :: _ => false
    | _ => true)
  | .relayChunk core ch => s.chunkReady core ch
  | .batonPoll core cnum => s.pollMet core cnum
  | .vwaitRound core cnum => s.roundMet core cnum
  | .maintenanceComplete die idx => s.maintReady die idx
  | .asidRetirementComplete asid => s.drained (.retire asid)
  | .homeSliceRequest r => (s.homeArrive r).isSome
  | .hostAccess r => !s.sys.link || 4 ≤ r.master || !s.putBack (s.hostRequest r) e
  | _ => true

/-- Steps that take turns with the core: those of a long activity, and those that may have to wait. -/
def background : Event → Bool
  | .relayChunk _ _ => true
  | .relayBeat _ _ => true
  | .granuleMove _ => true
  | .starterTimedDecision => true
  | .dependenceFailed _ => true
  | .launchCompletion _ => true
  | .truncationCleanup _ => true
  | .switchAccess _ => true
  | .failoverAccess _ => true
  | .mergeLockLapse _ _ => true
  | .pendingDatumArrival .. => true
  | .hostAccess _ => true
  | .vwaitRound _ _ => true
  | _ => false

/-- Whether a core has an instruction to execute. -/
def Core.busy (c : Core) : Bool := c.live == .running

/-- What moves next. -/
inductive Move where
  | core
  | focus (core : Nat)
  | event (k : Nat)
  | input (e : Event)
  | idle

/-- The busy core that has been out of focus the longest. -/
def State.nextCore (s : State) : Option Nat := ((s.others.reverse).find? Core.busy).map (·.id)

/-- The core in focus moves, or else a busy core comes into focus; then the background has its turn. -/
def State.coreMove (s : State) : Move × State :=
  if s.core.busy then (.core, { s with phase := .background })
  else match s.nextCore with
    | some id => (.focus id, { s with phase := .core })
    | none => (.idle, s)

/-- Another busy core comes into focus, where there is one, and then moves. -/
def State.focusMove (s : State) : Move × State :=
  match s.nextCore with
  | some id => (.focus id, { s with phase := .core })
  | none => s.coreMove

/-- Position of the first element that `p` accepts, from position `k` on. -/
def firstAt {α : Type} (p : α → Bool) (k : Nat) : List α → Option Nat
  | [] => none
  | x :: xs => if p x then some k else firstAt p (k + 1) xs

/-- The move that no schedule fixes. -/
def State.ownMove (s : State) : Move × State :=
  match firstAt (fun e => !background e && s.enabled e) 0 s.agenda with
  | some k => (.event k, s)
  | none => match firstAt (fun e => background e && s.enabled e) 0 s.agenda with
    | none => match s.phase with
      | .core => s.coreMove
      | _ => s.focusMove
    | some k =>
      if s.core.busy || s.nextCore.isSome then match s.phase with
        | .background => (.event k, { s with phase := .focus })
        | .focus => s.focusMove
        | .core => s.coreMove
      else (.event k, s)

/-- The next move, and the state with the schedule advanced. -/
def State.nextMove (s : State) : Move × State :=
  match s.sched with
  | [] => s.ownMove
  | t :: ts =>
    let s1 := { s with sched := ts }
    match t with
    | .core => (if s1.core.busy then .core else .idle, s1)
    | .event k => (.event k, s1)
    | .focus core => (if core < 6144 then .focus core else .idle, s1)
    | .input e => (.input e, s1)

/-! ## A program's first instruction (log 2) -/

/-- The bytes that make address space 0 map its first 64 KiB, with R, W and X, on frame 9 of HBM: the ASID table's
entry 0, and a table of each level. -/
def fetchTables : List (Nat × Nat) :=
  [(0, 0x80001), (0x80000, 0x82001), (0x82000, 0x84001), (0x84000, 0x86001), (0x86000, 0x9001F)]

/-- A privileged coroutine runs at address 0 of that address space, in full service. -/
def State.startAtZero (s : State) : State :=
  let s1 := fetchTables.foldl (fun (t : State) (x : Nat × Nat) => t.storeHbm x.1 (leBytes 8 x.2)) s
  let c := Coro.fresh s.core.lanes
  { s1 with
    asidBase := 0
    asidEn := true
    sys := { s1.sys with svc := 2 }
    core := { s1.core with
      run := { c with priv := true, state := .running }
      live := .running
      slot := none
      px := none
      cut := none
      drain := none
      tlb := []
      fetchTlb := [] }
    caches := ⟨[], [], [], [], []⟩ }

/-- Where the core in focus fetches its next instruction, when it is a coroutine's in HBM. -/
def State.fetchPlace (s : State) : Option Nat :=
  if s.core.busy && s.core.slot.isNone && s.core.px.isNone && s.core.run.pc.toNat % 4 == 0 then
    match s.translate s.me .fetch false s.core.run.pc with
    | .ok x => match x.target with
      | .hbm pa => some (hbmStore pa)
      | _ => none
    | .error _ => none
  else none

/-- The core in focus executes next, and its instruction is the word `w`. -/
def State.placeWord (s : State) (w : Nat) : State :=
  let s1 := if s.fetchPlace.isSome then s else s.startAtZero
  let s2 : State := { s1 with stopped := false, sched := .core :: s1.sched }
  match s2.fetchPlace with
  | some pa => (s2.storeHbm pa (leBytes 4 w)).modRun (fun c => { c with deferred := none, convoy := none, flight := none, pending := [] })
      |>.modCore (fun c => { c with cut := none, drain := none })
  | none => s2

end Sys2Proof.Machine
end

