-- ==== Sys2Proof/Machine/Step.lean ====
section
/-! DEFINITION. One step of the module. -/

namespace Sys2Proof.Machine

/-- One instruction of the core in focus. What comes before it: a suspension that waits for posted stores goes on (R106), data
that the coroutine waits for arrive (R227, R373), and a deferred store failure is taken (R418). -/
def coreStep (s : State) : Res :=
  match (if s.core.slot.isSome then none else s.core.drain) with
  | some d => .next (s.drainStep d)
  | none =>
  if !s.core.run.pending.isEmpty && s.core.cut.isNone then .next s
  else if s.core.run.deferred.isSome && s.core.slot.isNone && !s.core.run.inMidst then execDeferredStoreFailure s.core.id s
  else match s.ready traitsOf with
    | .wait => .next s
    | .fetchFault c => execInstructionFetchFault c s
    | .undecoded w s1 => execIllegalInstruction (BitVec.ofNat 32 w) s1
    | .ended s1 => .next s1
    | .limit => execHandlerLimit s.core.id s
    | .run w s1 => execWord w s1

/-- One step: an instruction of the core in focus, a step of another unit or from outside, or a change of focus. -/
def step (s : State) : Host.Outcome State Fault Refusal :=
  if s.stopped then .fault .moduleStopped
  else match s.nextMove with
    | (.core, s1) => coreStep s1
    | (.focus id, s1) => .next (s1.focus id)
    | (.event k, s1) => match s1.agenda[k]? with
      | none => .next s1
      | some e => execEvent e { s1 with agenda := s1.agenda.eraseIdx k }
    | (.input e, s1) => execEvent e s1
    | (.idle, s1) => .next s1

/-- The state with an instruction word where the next step fetches (log 2). -/
def State.withFetchWord (s : State) (_nbits w : Nat) : State := s.placeWord w

end Sys2Proof.Machine
end

