-- ==== Sys2Proof/Safety.lean ====
section
/-! DEFINITION. What the statements mean: when a run is safe, the invariant, and the states that an instruction leaves,
each written out from the state before it as a record. -/

namespace Sys2Proof.Machine

/-! ## Safe runs -/

/-- The outcome of a step or a meaning is a next state that `P` accepts. -/
def Goes (r : Res) (P : State → Prop) : Prop := ∃ t, r = .next t ∧ P t

/-- `n` steps, none of which stops. -/
def runsFor : Nat → State → Prop
  | 0, _ => True
  | n + 1, s => Goes (step s) (runsFor n)

/-- What every step keeps: memory has its canonical form. -/
def State.Inv (s : State) : Prop := s.mem.wf = true

/-! ## States after an instruction -/

/-- A scalar register as an instruction reads it: s0 is zero (R156). -/
def State.reg (s : State) (r : Fin 32) : Word := if r = 0 then 0 else s.core.run.s[r]

/-- The low bits of a register that a format reads (R232). -/
def State.freg (s : State) (f : Fmt) (r : Fin 32) : Nat := (s.reg r).toNat % 2 ^ f.width

/-- `s` with another coroutine in the register files of the core in focus, and nothing else changed. -/
def State.withRun (s : State) (c : Coro) : State := { s with core := { s.core with run := c } }

/-- Nothing but the program counter changes: it moves to the next word. -/
def State.passed (s : State) : State := s.withRun { s.core.run with pc := s.core.run.pc + 4 }

/-- Nothing but the program counter changes: it becomes `pc`. -/
def State.jumped (s : State) (pc : Word) : State := s.withRun { s.core.run with pc := pc }

/-- The scalar registers with `v` in register `d`; a write to s0 is discarded (R156, R225). -/
def State.regsWith (s : State) (d : Fin 32) (v : Word) : Vector Word 32 :=
  if d = 0 then s.core.run.s else s.core.run.s.set d v

/-- Register `d` holds `v`, the program counter moves on, and nothing else changes. -/
def State.wrote (s : State) (d : Fin 32) (v : Word) : State :=
  s.withRun { s.core.run with s := s.regsWith d v, pc := s.core.run.pc + 4 }

/-- The same, with the flags `f` set as well; no flag is cleared (R190). -/
def State.wroteFlags (s : State) (d : Fin 32) (v : Word) (f : BitVec 6) : State :=
  s.withRun { s.core.run with s := s.regsWith d v, fflags := s.core.run.fflags ||| f, pc := s.core.run.pc + 4 }

/-- Guard `i` as an instruction reads it: g7 is true (R156). -/
def State.guard (s : State) (i : Fin 8) : Bool := i = 7 || s.core.run.g.getLsbD i

/-- Whether a class S guard enables its instruction (R203). -/
def State.enables (s : State) (g : Guard) : Prop := s.guard g.idx ≠ g.neg

/-- `t` is `s` with the guards of a compare written (R230): `d[2..0]` holds `c`, and `d[5..3]`, where it differs, its
complement; the flags `f` are set, the program counter moves on, and nothing else changes. -/
def State.Compared (s t : State) (d : Fin 64) (c : Bool) (f : BitVec 6) : Prop :=
  t = s.withRun { s.core.run with g := t.core.run.g, fflags := s.core.run.fflags ||| f, pc := s.core.run.pc + 4 } ∧
  ∀ i : Fin 8, t.guard i =
    if i.val = d.val % 8 then c else if i.val = d.val / 8 then !c else s.guard i

/-! ## Coroutines and traps -/

/-- The instruction at the program counter waits for no reply, and its convoy has not been asked to stop. -/
def State.unhindered (s : State) : Prop := s.core.run.flight = none ∧ s.core.cut = none

/-- The core in focus executes a coroutine's own instruction: no message handler, no position-miss handler, no open
strip, and no trap or pre-emption that waits for its stores. -/
def State.ordinary (s : State) : Prop :=
  s.core.live = .running ∧ s.core.slot = none ∧ s.core.px = none ∧ s.core.run.strip = none ∧ s.core.drain = none ∧ s.unhindered

/-- The program counter that a trap saves: that of the first member of the convoy (R361). -/
def Coro.trapPc (c : Coro) : Word :=
  match c.convoy with
  | none => c.pc
  | some v => v.start

/-- Memory keeps every byte but the `n` from `a` on. -/
def State.keepsOutside (s t : State) (a n : Nat) : Prop :=
  ∀ x, ¬ (a ≤ x ∧ x < a + n) → t.mem.get x = s.mem.get x

/-- Where the next record of the fault queue of the core's die goes (R364). -/
def State.recordPlace (s : State) : Nat :=
  let q := s.fqAt (dieOf s.core.id)
  q.base.toNat * 4096 + 64 * (q.head.toNat % 2 ^ q.log.toNat)

/-- The call room takes a full context of the coroutine, and the fault queue of its die takes a record at once and
signals no baton; its place is in no spill region. -/
def State.reportsTrap (s : State) : Prop :=
  let q := s.fqAt (dieOf s.core.id)
  s.mem.wf = true ∧ s.core.roomFits (s.core.run.fullContext s.core.lanes).blocks = true ∧
    q.writable = true ∧ q.waiting = [] ∧ q.baton = 0 ∧ s.inSpillRegion s.recordPlace = false ∧
    s.inSpillRegion (s.recordPlace + 63) = false

/-- In `t` the coroutine that ran in `s` is Parked for `cause` at `pc`, with every register as it was, the core decides
what runs next, and the record of the trap stands in the fault queue; no other byte of memory has changed. -/
def State.Parked (s t : State) (cause : Cause) (pc index addr : Word) : Prop :=
  (t.core.live = .idle ∧ Event.pacerDecision s.core.id ∈ t.agenda) ∧
  (∃ k ∈ t.core.coros, k.cnum = s.core.run.cnum ∧ k.inc = s.core.run.inc ∧ k.state = .parked cause ∧ k.pc = pc ∧
    k.priv = s.core.run.priv ∧ k.asid = s.core.run.asid ∧ k.s = s.core.run.s ∧ k.g = s.core.run.g ∧
    k.fflags = s.core.run.fflags ∧ k.v = s.core.run.v ∧ k.m = s.core.run.m ∧ k.acc = s.core.run.acc) ∧
  (t.hbmWord s.recordPlace % 2 ^ 24 = 1 + cause.code * 2 ^ 8 ∧
    t.hbmWord (s.recordPlace + 8) = (coroWord s.core.id s.core.run).toNat ∧
    t.hbmWord (s.recordPlace + 16) = pc.toNat ∧ t.hbmWord (s.recordPlace + 24) = index.toNat ∧
    t.hbmWord (s.recordPlace + 32) = addr.toNat ∧ t.hbmWord (s.recordPlace + 40) = s.core.insn.toNat ∧
    s.keepsOutside t s.recordPlace 64) ∧
  (t.fqAt (dieOf s.core.id)).head = (s.fqAt (dieOf s.core.id)).head + 1

/-! ## Scalar accesses -/

/-- A translated access of `n` bytes lies at storage address `p`, in the core's own scratchpad or in this module's HBM:
nothing there is poisoned, no access counter and no monitor takes note of it, HBM was last written under the page's key,
and no L1 holds anything of it. -/
def State.lies (s : State) (x : Xlat) (n p : Nat) : Prop :=
  (∃ off, x.target = .pad s.core.id off ∧ p = padStore s.core.id + off ∧ s.core.inService = true ∧
    off + n ≤ s.core.padBytes ∧ s.padPoisoned p n = false) ∨
  (∃ pa, x.target = .hbm pa ∧ p = hbmStore pa ∧ x.ace = false ∧ s.sys.monitors = [] ∧ s.poisoned p n = false ∧
    (∀ i, i < n → s.blockKey (p + i) = some (s.keyMat x.key)) ∧ ∀ l ∈ s.caches.l1, lineIn l.line p n = false)

/-- It lies in HBM, in a line of the core's L1 that was filled under its key, holds all of it and has no error there, none of
whose words are registered. -/
def State.hits (s : State) (x : Xlat) (n p : Nat) : Prop :=
  ∃ (pa : Nat) (l : L1Line), x.target = .hbm pa ∧ p = hbmStore pa ∧ s.sys.monitors = [] ∧ s.core.spways < 8 ∧
    s.caches.l1Line s.core.id (p / 64) = some l ∧ l.x.key = x.key ∧ l.holds (p % 64) n = true ∧
    l.spoiled (p % 64) n = false ∧ l.owned = 0

/-- A load or store finds its place without its L1 taking a new line: in the core's own scratchpad, in HBM where the core has
no ways for an L1, or in a line of its L1. -/
def State.found (s : State) (x : Xlat) (n p : Nat) : Prop :=
  (s.lies x n p ∧ (x.target = .hbm p → s.core.spways = 8)) ∨ s.hits x n p

/-- The access of `n` bytes at `a` is translated to one place at its home. -/
def State.reaches (s : State) (acc : Access) (scalar : Bool) (a : Word) (n p : Nat) : Prop :=
  ∃ x : Xlat, s.translateAccess s.me acc scalar a n = .ok [(x, n)] ∧ s.lies x n p

/-- That of a load or store is translated to one place. -/
def State.attains (s : State) (acc : Access) (scalar : Bool) (a : Word) (n p : Nat) : Prop :=
  ∃ x : Xlat, s.translateAccess s.me acc scalar a n = .ok [(x, n)] ∧ s.found x n p

/-- It lies in a line of HBM that no L1 holds, all of it good and under the page's key, and the L1 of the core in focus has a
free way for it. -/
def State.misses (s : State) (acc : Access) (a : Word) (n p : Nat) : Prop :=
  ∃ x : Xlat, s.translateAccess s.me acc true a n = .ok [(x, n)] ∧ x.target = .hbm p ∧ x.ace = false ∧
    s.sys.monitors = [] ∧ s.core.spways < 8 ∧ (∀ l ∈ s.caches.l1, l.line ≠ p / 64) ∧
    (s.caches.l1Way s.core.id s.core.spways (p / 64)).2 = none ∧ s.poisoned (p / 64 * 64) 64 = false ∧
    ∀ i, i < 64 → s.blockKey (p / 64 * 64 + i) = some (s.keyMat x.key)

/-- The byte at a storage address as the units of the core in focus read it: from the core's L1, where that holds it. -/
def State.seen (s : State) (a : Nat) : Byte :=
  match s.caches.l1Line s.core.id (a / 64) with
  | none => s.mem.get a
  | some l => if l.have_.getLsbD (a % 64) then l.byte (a % 64) else s.mem.get a

/-- `n` bytes so read, as a little-endian number (R5). -/
def State.seenNat (s : State) (a n : Nat) : Nat := leNat ((List.range n).map (fun i => s.seen (a + i)))

/-- `t` is `u` but for what the caches hold, and the core reads every byte as in `s`. -/
def State.readsAs (s t u : State) : Prop := t = { u with caches := t.caches } ∧ ∀ a, t.seen a = s.seen a

/-- Handler code reaches its core's own scratchpad alone (R181), no byte that an open strip holds is shown, and the
instruction waits for nothing. -/
def State.mayAccess (s : State) (a : Word) (n : Nat) : Prop :=
  (s.core.slot = none ∨ ownRange a n = true) ∧ s.core.run.shownBytes = [] ∧ s.core.run.flight = none

/-- The first byte of the part that fails to translate, of an access of at most 64 bytes that fails. -/
def State.firstFailing (s : State) (acc : Access) (a : Word) (n : Nat) : Word :=
  if a.toNat % 64 + n ≤ 64 then a
  else match s.translate s.me acc false a with
    | .error _ => a
    | .ok _ => a + BitVec.ofNat 64 (64 - a.toNat % 64)

/-- `i` loads `n` bytes at `a` into register `d`, extended by `ext`, and changes nothing else but the program counter. -/
def State.loads (s : State) (i : Instr) (d : Fin 32) (a : Word) (n : Nat) (ext : Nat → Word) : Prop :=
  ∀ p, s.mayAccess a n → s.attains .read true a n p ∨ s.misses .read a n p →
    Goes (exec i s) (fun t => s.readsAs t (s.wrote d (ext (s.seenNat p n))))

/-- In `t` the `n` bytes from `p` on read as those of `v`, every other byte as in `s`, and memory keeps every byte outside
them. -/
def State.storesAt (s t : State) (p n v : Nat) : Prop :=
  (∀ i, i < n → t.seen (p + i) = BitVec.ofNat 8 (v / 2 ^ (8 * i))) ∧
    (∀ x, ¬ (p ≤ x ∧ x < p + n) → t.seen x = s.seen x) ∧ s.keepsOutside t p n

/-- `i` stores the low `n` bytes of register `d` at `a`, and changes nothing else but the program counter. -/
def State.stores (s : State) (i : Instr) (d : Fin 32) (a : Word) (n : Nat) : Prop :=
  ∀ p, s.mem.wf = true → s.mayAccess a n → s.attains .write true a n p ∨ s.misses .write a n p →
    Goes (exec i s) (fun t => t = { s.passed with mem := t.mem, caches := t.caches } ∧
      s.storesAt t p n (s.reg d).toNat)

/-- A release has nothing else to do: no store of the coroutine waits at a message slot, and every dirty word of the core's L1
is registered. -/
def State.rests (s : State) : Prop :=
  s.posted = false ∧ ∀ l ∈ s.caches.l1, l.core = s.core.id → l.loose = 0

/-- No store of the coroutine waits at a message slot, and the core's L1 holds no dirty word. -/
def State.settled (s : State) : Prop :=
  s.posted = false ∧ ∀ l ∈ s.caches.l1, l.core = s.core.id → l.dirty = 0

/-- A store finds its place, whose bytes at their home are good and under the page's key. -/
def State.settles (s : State) (scalar : Bool) (a : Word) (n p : Nat) : Prop :=
  s.poisoned p n = false ∧
    ∃ x : Xlat, s.translateAccess s.me .write scalar a n = .ok [(x, n)] ∧ s.found x n p ∧
      (x.target = .hbm p → ∀ i, i < n → s.blockKey (p + i) = some (s.keyMat x.key))

/-- `t` is `u` but for what the caches hold: the core's L1 holds only what an acquire leaves there (R116), and the others
what they held in `s`. -/
def State.acquires (s t u : State) : Prop :=
  t = { u with caches := t.caches } ∧ (∀ l ∈ t.caches.l1, l.core = s.core.id → l.acquired = l) ∧
    ∀ l, l.core ≠ s.core.id → l.have_ ≠ 0 → (l ∈ t.caches.l1 ↔ l ∈ s.caches.l1)

/-- The release `i` stores the low `n` bytes of register `d` at `a`, performed at their home, and changes nothing else but
the program counter. -/
def State.publishes (s : State) (i : Instr) (d : Fin 32) (a : Word) (n : Nat) : Prop :=
  ∀ p, s.mem.wf = true → s.mayAccess a n → s.settled → s.settles true a n p →
    Goes (exec i s) (fun t => t = { s.passed with mem := s.mem.write p (leBytes n (s.reg d).toNat), caches := t.caches } ∧
      s.storesAt t p n (s.reg d).toNat)

/-- `i` replaces the `n` bytes at `a` by what `f` gives of them, where it gives any, the pair's odd member receives the
old value, and nothing else changes but the program counter and the caches. -/
def State.swaps (s : State) (i : Instr) (d : Fin 16) (a : Word) (n : Nat) (f : Nat → Option Nat) : Prop :=
  ∀ p, s.mayAccess a n → a.toNat % n = 0 → s.reaches .atomic false a n p →
    let old := s.mem.readNat p n
    Goes (exec i s) (fun t => t = { s.wrote (pairOdd d) (w64 old) with
      caches := t.caches
      mem := match f old with
        | some v => s.mem.write p (leBytes n v)
        | none => s.mem })

/-! ## Vector instructions -/

/-- A vector instruction that names `regs`, of elements of `w` bytes, passes the checks at issue (R160), and no operand
holds an uncorrectable bit; it is to run whole. -/
def State.issues (s : State) (regs : List (Fin 64)) (w : Nat) : Prop :=
  s.core.lanes ≠ 0 ∧ (∀ v ∈ regs, v.val < s.core.run.nregs) ∧ w ≤ s.core.run.wb ∧
    s.core.run.shapeFits s.core.lanes = true ∧ s.core.run.ecc = [] ∧ s.unhindered

/-- Element (r, e) lies in the tile. -/
def State.inTile (s : State) (r e : Nat) : Prop := r < s.core.run.rc.toNat ∧ e < s.core.run.vl.toNat

/-- Element (r, e) is active under the guard, and at or after the VSTART position (R203, R255). -/
def State.does (s : State) (g : Guard) (r e : Nat) : Prop :=
  s.core.run.active g r e = true ∧ s.core.run.notBefore (r, e) = true

/-- Element (r, e) of a register, in the running type. -/
def State.el (s : State) (v : Fin 64) (r e : Nat) : BitVec (8 * s.core.run.tyBytes) :=
  BitVec.ofNat _ (s.core.run.elem v s.core.run.tyBytes r e)

/-- `f'` is `f` with the flags of `fl` at every element of the tile that `p` accepts. -/
def State.flagged (s : State) (p : Nat → Nat → Prop) (fl : Nat → Nat → Flags) (f' : BitVec 6) : Prop :=
  ∀ k, f'.getLsbD k = true ↔
    s.core.run.fflags.getLsbD k = true ∨ ∃ r e, s.inTile r e ∧ p r e ∧ (fl r e).getLsbD k = true

/-- `i` ends with `f r e` in element (r, e), of `w` bytes, of register `d` wherever `p r e` holds in the tile, with the
flags of those elements, and the coroutine otherwise as `k`; every other element and byte of `d`, every other register, and
all else that `same` compares is unchanged. -/
def State.mapsTo (s : State) (same : State → State → Prop) (i : Instr) (k : Coro) (d : Fin 64) (w : Nat)
    (p : Nat → Nat → Prop) (f : Nat → Nat → Nat × Flags) : Prop :=
  Goes (exec i s) (fun t => ∃ (v : Vector VReg 64) (fl : BitVec 6),
    same t (s.withRun { k with v := v, fflags := fl }) ∧
    (∀ x : Fin 64, x ≠ d → v[x] = s.core.run.v[x]) ∧
    (∀ r e, s.inTile r e →
      (p r e → VReg.get v[d] (s.core.run.rowByte r + e * w) w = (f r e).1 % 2 ^ (8 * w)) ∧
      (¬ p r e → VReg.get v[d] (s.core.run.rowByte r + e * w) w = s.core.run.elem d w r e)) ∧
    (∀ o, (∀ r e, s.inTile r e → ¬ (s.core.run.rowByte r + e * w ≤ o ∧ o < s.core.run.rowByte r + e * w + w)) →
      VReg.get v[d] o 1 = VReg.get s.core.run.v[d] o 1) ∧
    s.flagged p (fun r e => (f r e).2) fl)

/-- The same with all else unchanged. -/
def State.mapsInto (s : State) (i : Instr) (k : Coro) (d : Fin 64) (w : Nat) (p : Nat → Nat → Prop)
    (f : Nat → Nat → Nat × Flags) : Prop := s.mapsTo (· = ·) i k d w p f

/-- The same with the VSTART register 0 and the program counter and the convoy moved on, and nothing else changed. -/
def State.mapsAt (s : State) (i : Instr) (d : Fin 64) (w : Nat) (p : Nat → Nat → Prop) (f : Nat → Nat → Nat × Flags) :
    Prop := s.mapsInto i s.core.run.finishV d w p f

/-- The same for the elements that an elementwise instruction processes, without flags. -/
def State.maps (s : State) (i : Instr) (g : Guard) (d : Fin 64)
    (f : Nat → Nat → BitVec (8 * s.core.run.tyBytes)) : Prop :=
  s.mapsAt i d s.core.run.tyBytes (s.does g) (fun r e => ((f r e).toNat, 0))

/-- `i` ends with the bit `b r e` in mask d[2..0], and its complement in d[5..3] where that differs, wherever it
processes (r, e), with the flags `fl`; m7 is never written, every other bit of a mask and all else but VSTART, the program
counter and the convoy is unchanged. -/
def State.mapsMasks (s : State) (i : Instr) (g : Guard) (d : Fin 64) (b : Nat → Nat → Bool) (fl : Nat → Nat → Flags) :
    Prop :=
  Goes (exec i s) (fun t => ∃ (m : Vector Mask 7) (f' : BitVec 6),
    t = s.withRun { s.core.run.finishV with m := m, fflags := f' } ∧
    (∀ (k : Fin 7) (r e : Nat), s.inTile r e → s.core.run.maskPos r e < s.core.run.vlmax s.core.lanes →
      (s.does g r e → m[k].getLsbD (s.core.run.maskPos r e) =
        if k.val = d.val % 8 then b r e else if k.val = d.val / 8 then !b r e
        else s.core.run.m[k].getLsbD (s.core.run.maskPos r e)) ∧
      (¬ s.does g r e → m[k].getLsbD (s.core.run.maskPos r e) = s.core.run.m[k].getLsbD (s.core.run.maskPos r e))) ∧
    (∀ (k : Fin 7) (j : Nat), (∀ r e, s.inTile r e → s.core.run.maskPos r e ≠ j) ∨ s.core.run.vlmax s.core.lanes ≤ j →
      m[k].getLsbD j = s.core.run.m[k].getLsbD j) ∧
    s.flagged (s.does g) fl f')

/-- `i` ends with `v` in scalar register `d` and changes nothing else but VSTART, the program counter and the convoy. -/
def State.yields (s : State) (i : Instr) (d : Fin 32) (v : Word) : Prop :=
  exec i s = .next (s.withRun { s.core.run.finishV with s := s.regsWith d v })

/-- The value of a finite code of a format. -/
def Fmt.rat (f : Fmt) (x : Nat) : Option ℚ :=
  match f.decode x with
  | .fin neg m e => some ((if neg then -1 else 1) * m * 2 ^ e)
  | _ => none

/-- The value of a finite operand. -/
def FVal.rat : FVal → Option ℚ
  | .fin neg m e => some ((if neg then -1 else 1) * m * 2 ^ e)
  | _ => none

/-! ## Rounding (R184, R186, R189, R190) -/

/-- The magnitude of a code without its sign, as though the exponents of a format had no end. -/
def Fmt.mag (f : Fmt) (c : Nat) : ℚ :=
  (if c / 2 ^ f.mbits = 0 then (c : ℚ) else ((c % 2 ^ f.mbits + 2 ^ f.mbits : Nat) : ℚ) * 2 ^ (c / 2 ^ f.mbits - 1)) *
    2 ^ (1 - (f.bias : Int) - (f.mbits : Int))

/-- Whether `q`, whose magnitude lies from `lo` to `hi`, is rounded away from zero; `odd` says that the code of `lo` is odd. -/
def Rm.away (rm : Rm) (q : ℝ) (lo hi : ℚ) (odd : Prop) : Prop :=
  |q| ≠ lo ∧ match rm with
    | .rne => ((lo + hi) / 2 : ℝ) < |q| ∨ ((lo + hi) / 2 : ℝ) = |q| ∧ odd
    | .rna => ((lo + hi) / 2 : ℝ) ≤ |q|
    | .rtz => False
    | .rup => 0 < q
    | .rdn => q < 0

/-- Flags are exactly these of the first five. -/
def flagsAre (r : Flags) (iv ov un zd ix : Prop) : Prop :=
  (r.getLsbD 0 = true ↔ iv) ∧ (r.getLsbD 1 = true ↔ ov) ∧ (r.getLsbD 2 = true ↔ un) ∧ (r.getLsbD 3 = true ↔ zd) ∧
    (r.getLsbD 4 = true ↔ ix) ∧ r.getLsbD 5 = false

/-- `r` is the nonzero `q` rounded once to `f`: the code `lo`, or the one after it where the mode rounds away from zero, which
past the largest finite code is the overflow result; with OV, with UN where it is inexact and tiny after rounding, and IX. -/
def Fmt.rounds (f : Fmt) (rm : Rm) (q : ℝ) (r : Nat × Flags) : Prop :=
  let top := f.maxFinite + 1
  let least := f.mag (2 ^ f.mbits)
  let under := least - least / 2 ^ (f.mbits + 1)
  ∃ lo, lo < top ∧ (f.mag lo : ℝ) ≤ |q| ∧ (|q| < f.mag (lo + 1) ∨ lo + 1 = top) ∧
    let up := rm.away q (f.mag lo) (f.mag (lo + 1)) (lo % 2 = 1)
    let sat := f.sat = true ∧ lo + 1 = top
    let normal := (least : ℝ) ≤ |q| ∨ (under : ℝ) ≤ |q| ∧ rm.away q under least True
    ∃ neg : Bool, (neg = true ↔ q < 0) ∧
      (up ∧ ¬ sat → r.1 = f.sign neg + (lo + 1)) ∧ (¬ up ∨ sat → r.1 = f.sign neg + lo) ∧
      flagsAre r.2 False (lo + 1 = top ∧ (up ∨ (f.mag top : ℝ) ≤ |q|)) (|q| ≠ f.mag lo ∧ ¬ normal) False (|q| ≠ f.mag lo)

/-- `r` is one of the two codes of FP32 about the nonzero `q`, the code of `q` itself where it has one, with IX where it has
none (R264). -/
def neighbours (q : ℝ) (r : Nat × Flags) : Prop :=
  ∃ (lo : Nat) (neg : Bool), lo < Fmt.f32.infinity ∧ (Fmt.f32.mag lo : ℝ) ≤ |q| ∧ |q| ≤ Fmt.f32.mag (lo + 1) ∧
    (neg = true ↔ q < 0) ∧ (r.1 = Fmt.f32.sign neg + lo ∨ r.1 = Fmt.f32.sign neg + (lo + 1)) ∧
    (|q| = Fmt.f32.mag lo → r = (Fmt.f32.sign neg + lo, 0)) ∧ (r.2.getLsbD 4 = true ↔ |q| ≠ Fmt.f32.mag lo)

/-- The tree of R200 over `n` groups of `per` elements: position `p` of group `g` at a level, where group 2g combines with
group 2g + 1 if there is one. -/
def redAt (f : Comb) (n per : Nat) (val : Nat → Nat) : Nat → Nat → Nat → Nat
  | 0, g, p => val (g * per + p)
  | l + 1, g, p =>
    if (2 * g + 1) * 2 ^ l < n then (f (redAt f n per val l (2 * g) p) (redAt f n per val l (2 * g + 1) p)).1
    else redAt f n per val l (2 * g) p

/-- `i` ends with the codes `code r e` of the block format (MXFP4 with `mx4`) in register `d` wherever it processes (r, e),
with their flags, `v` of the other registers, guard 6 as `g6` says, and VSTART, the program counter and the convoy as at
every completion; the other codes of the tile are unchanged, and so is all else. -/
def State.encodes (s : State) (i : Instr) (g : Guard) (mx4 : Bool) (d : Fin 64) (code : Nat → Nat → Nat × Flags)
    (g6 : Prop) (others : Vector VReg 64 → Prop) : Prop :=
  Goes (exec i s) (fun t => ∃ (v : Vector VReg 64) (fl : BitVec 6),
    t = s.withRun { s.core.run.finishV with v := v, fflags := fl, g := t.core.run.g } ∧
    (t.guard 6 = true ↔ g6) ∧ (∀ k : Fin 8, k ≠ 6 → t.guard k = s.guard k) ∧ others v ∧
    (∀ r e, s.inTile r e →
      (s.does g r e → t.core.run.code mx4 d r e = (code r e).1) ∧
      (¬ s.does g r e → t.core.run.code mx4 d r e = s.core.run.code mx4 d r e)) ∧
    (∀ o, (∀ r e, s.inTile r e → s.core.run.rowByte r + (if mx4 then e / 2 else e) ≠ o) →
      VReg.get v[d] o 1 = VReg.get s.core.run.v[d] o 1) ∧
    s.flagged (s.does g) (fun r e => (code r e).2) fl)

/-! ## Vector accesses -/

/-- Each element that the instruction enumerates, at the address that `addr` gives, has the place that `place` gives, as `f`
says of an access. -/
def State.vreaches (s : State) (f : Word → Nat → Nat → Prop) (g : Guard) (addr : Nat → Nat → Option Word)
    (place : Nat → Nat → Nat) : Prop :=
  ∀ r e A, s.inTile r e → s.does g r e → addr r e = some A → f A s.core.run.tyBytes (place r e)

/-- `i` loads each element of `d` that it enumerates from its place, and leaves every other element and all else that `same`
compares. -/
def State.gathers (s : State) (same : State → State → Prop) (i : Instr) (g : Guard) (d : Fin 64)
    (addr : Nat → Nat → Option Word) : Prop :=
  ∀ place, s.vreaches (s.attains .read false) g addr place →
    s.mapsTo same i s.core.run.finishV d s.core.run.tyBytes (fun r e => s.does g r e ∧ (addr r e).isSome = true)
      (fun r e => (s.seenNat (place r e) s.core.run.tyBytes, 0))

/-- The elements that an instruction enumerates, in sweep order. -/
def State.enumerated (s : State) (g : Guard) (addr : Nat → Nat → Option Word) : List (Nat × Nat) :=
  s.core.run.tile.filter (fun p => s.core.run.active g p.1 p.2 && s.core.run.notBefore p && (addr p.1 p.2).isSome)

/-- The byte at `x` after the enumerated elements of `d` have been stored at their places, in sweep order. -/
def State.scattered (s : State) (g : Guard) (d : Fin 64) (addr : Nat → Nat → Option Word) (place : Nat → Nat → Nat)
    (x : Nat) (old : Byte) : Byte :=
  let w := s.core.run.tyBytes
  (s.enumerated g addr).foldl (fun b p =>
    if place p.1 p.2 ≤ x ∧ x < place p.1 p.2 + w then
      BitVec.ofNat 8 (s.core.run.elem d w p.1 p.2 / 2 ^ (8 * (x - place p.1 p.2)))
    else b) old

/-- `i` stores each element of `d` that it enumerates at its place, in sweep order, and changes no other byte of memory, no
register and no flag. -/
def State.scatters (s : State) (i : Instr) (g : Guard) (d : Fin 64) (addr : Nat → Nat → Option Word) : Prop :=
  let w := s.core.run.tyBytes
  ∀ place, s.mem.wf = true → s.vreaches (s.attains .write false) g addr place →
    Goes (exec i s) (fun t => t = { s.withRun s.core.run.finishV with mem := t.mem, caches := t.caches } ∧
      (∀ x, t.seen x = s.scattered g d addr place x (s.seen x)) ∧
      (∀ x, (∀ p ∈ s.enumerated g addr, ¬ (place p.1 p.2 ≤ x ∧ x < place p.1 p.2 + w)) → t.mem.get x = s.mem.get x))

/-- The release `i` does so and performs the stores at their homes. -/
def State.spreads (s : State) (i : Instr) (g : Guard) (d : Fin 64) (addr : Nat → Nat → Option Word) : Prop :=
  ∀ place, s.mem.wf = true → s.settled → s.vreaches (s.settles false) g addr place →
    Goes (exec i s) (fun t => t = { s.withRun s.core.run.finishV with mem := t.mem, caches := t.caches } ∧
      (∀ x, t.seen x = s.scattered g d addr place x (s.seen x)) ∧
      (∀ x, t.mem.get x = s.scattered g d addr place x (s.mem.get x)))

/-- `i` replaces what each place holds by what `f` gives of it, of the element of `x` and of that of `d`, in sweep order;
`d` receives the old values, and nothing else but the caches changes. -/
def State.vswaps (s : State) (i : Instr) (g : Guard) (d x a : Fin 64) (f : Nat → Nat → Nat → Option Nat) : Prop :=
  let c := s.core.run
  let w := c.tyBytes
  let addr (r e : Nat) : Option Word := some (BitVec.ofNat 64 (c.elem a 8 r e))
  let one (m : Memory × Vector VReg 64) (q : Nat × (Nat × Nat)) : Memory × Vector VReg 64 :=
    let old := m.1.readNat q.1 w
    (match f old (c.elem x w q.2.1 q.2.2) (c.elem d w q.2.1 q.2.2) with
      | some v => m.1.write q.1 (leBytes w v)
      | none => m.1,
     m.2.set d (VReg.put m.2[d] (c.rowByte q.2.1 + q.2.2 * w) w old))
  ∀ place, s.vreaches (s.reaches .atomic false) g addr place →
    (∀ p ∈ s.enumerated g addr, c.elem a 8 p.1 p.2 % w = 0) →
    let r := ((s.enumerated g addr).map (fun p => (place p.1 p.2, p))).foldl one (s.mem, c.v)
    Goes (exec i s) (fun t => t = { s.withRun { c.finishV with v := r.2 } with mem := r.1, caches := t.caches })

/-! ## Batons -/

/-- `h` names a live baton of this module to whose owner's rights the running coroutine is entitled (R130, R132). -/
def State.owns (s : State) (h : Word) : Prop :=
  handleModule h = Config.moduleNumber ∧ s.liveHere h = true ∧
    (s.core.run.asid = (s.baton (handleKey h)).owner ∨ s.core.run.priv = true)

/-- It names one that the coroutine may signal. -/
def State.maySignal (s : State) (h : Word) : Prop :=
  handleModule h = Config.moduleNumber ∧ s.liveHere h = true ∧
    (s.core.run.asid = (s.baton (handleKey h)).owner ∨ s.core.run.priv = true ∨ (s.baton (handleKey h)).opn = true)

/-- In `t` the record that `h` names is `b`, and every other record is as in `s`. -/
def State.batonIs (s t : State) (h : Word) (b : Baton) : Prop :=
  t.baton (handleKey h) = b ∧ ∀ k, k ≠ handleKey h → t.baton k = s.baton k

/-- The registered coroutines of the core in focus whose wait on `h` the record `b` meets are Ready in `t`; the other
waiters still wait, and no other coroutine has changed. -/
def State.wakes (s t : State) (h : Word) (b : Baton) : Prop :=
  (∀ k ∈ s.core.coros, k.state = .waiting → ∃ k' ∈ t.core.coros, k'.cnum = k.cnum ∧ k'.pc = k.pc ∧ k'.s = k.s ∧
    k'.state = if s.core.regs.contains h && k.waitMet h b then .ready else .waiting) ∧
  (∀ k ∈ s.core.coros, k.state ≠ .waiting → k ∈ t.core.coros)

/-- The producer of an activity that names `h` as its completion baton has a reference to it in `t` (R133). -/
def State.heldIn (s t : State) (h : Word) : Prop :=
  (h = 0 → t.batons = s.batons) ∧
  (h ≠ 0 → s.batonIs t h { s.baton (handleKey h) with holds := (s.baton (handleKey h)).holds + 1 })

/-! ## Accumulators -/

/-- `i` ends with `f i j` in element (i, j) of accumulator `e` wherever `p i j` holds, with the flags of those elements and
the coroutine otherwise as `k`; every other element, every other accumulator, and all else that `same` compares is
unchanged. -/
def State.fillsAs (s : State) (same : State → State → Prop) (i : Instr) (k : Coro) (e : Fin 4) (p : Nat → Nat → Prop)
    (f : Nat → Nat → Nat × Flags) : Prop :=
  Goes (exec i s) (fun t => ∃ (acc : Vector Acc 4) (fl : BitVec 6),
    same t (s.withRun { k with acc := acc, fflags := fl }) ∧ (∀ x : Fin 4, x ≠ e → acc[x] = s.core.run.acc[x]) ∧
    (∀ r c, r < 32 → c < 32 →
      (p r c → t.core.run.accAt e r c = (f r c).1 % 2 ^ 32) ∧ (¬ p r c → t.core.run.accAt e r c = s.core.run.accAt e r c)) ∧
    (∀ b, fl.getLsbD b = true ↔ s.core.run.fflags.getLsbD b = true ∨
      ∃ r c, r < 32 ∧ c < 32 ∧ p r c ∧ (f r c).2.getLsbD b = true))

/-- The same with all else unchanged. -/
def State.fills (s : State) (i : Instr) (k : Coro) (e : Fin 4) (p : Nat → Nat → Prop) (f : Nat → Nat → Nat × Flags) : Prop :=
  s.fillsAs (· = ·) i k e p f

/-- Row `r` of the grant is one that an instruction of the matrix unit works on (R304, R305). -/
def State.rowLive (s : State) (g : Guard) (r : Nat) : Prop :=
  r < s.core.run.mM ∧ s.core.run.vs.row.toNat ≤ r ∧ s.core.run.rowOn g r = true

/-- The own scratchpad holds `n` bytes from offset `off` on, below S, none of them poisoned, and no strip holds a byte. -/
def State.padHolds (s : State) (off n : Nat) : Prop :=
  off + n ≤ s.core.padBytes ∧ s.core.inService = true ∧ s.padPoison = [] ∧ s.core.run.heldBytes = []

/-- Bytes of the own scratchpad as a number. -/
def State.padNat (s : State) (off n : Nat) : Nat := s.mem.readNat (padStore s.core.id + off) n

/-! ## Stream records -/

/-- Bytes `o` to `o + n - 1` of a little-endian record, and the record with those bytes replaced. -/
def fieldOf (r o n : Nat) : Nat := r / 2 ^ (8 * o) % 2 ^ (8 * n)
def withField (r o n v : Nat) : Nat := r - fieldOf r o n * 2 ^ (8 * o) + v % 2 ^ (8 * n) * 2 ^ (8 * o)

/-- The stream record at `a` lies at `pa` of this module's HBM, where an atomic reaches it, no strip is open, and
the instruction waits for nothing. -/
def State.holdsRecord (s : State) (a : Word) (pa : Nat) : Prop :=
  a.toNat % 128 = 0 ∧ s.core.run.strip = none ∧ s.core.run.flight = none ∧
    ∃ x : Xlat, s.translate s.me .atomic false a = .ok x ∧ x.target = .hbm pa ∧ s.lies x 128 (hbmStore pa)

/-- Memory after the record at `pa`, which was `r`, has become `r'`. -/
def State.putRecord (s : State) (pa r r' : Nat) : Memory :=
  if r' = r then s.mem else s.mem.write pa (leBytes 128 r')

/-- An access of `n` bytes, 64 at most, that `who` makes at `a` reaches the place `p`; and one of 128 bytes. -/
def State.finds (s : State) (who : Who) (acc : Access) (a : Word) (n p : Nat) : Prop :=
  ∃ x : Xlat, s.translateAccess who acc true a n = .ok [(x, n)] ∧ s.lies x n p
def State.findsBeat (s : State) (who : Who) (acc : Access) (a : Word) (p : Nat) : Prop :=
  ∃ x y : Xlat, s.translateAccess who acc true a 128 = .ok [(x, 64), (y, 64)] ∧ s.lies x 64 p ∧ s.lies y 64 (p + 64)

/-- The home slice of a clean-up reads its record, `r`, without an error and under its key. -/
def State.recordReads (s : State) (u : Cleanup) (r : Nat) : Prop :=
  s.poisoned (hbmStore u.record) 128 = false ∧ r = s.mem.readNat (hbmStore u.record) 128 ∧
    ∀ i, i < 128 → s.blockKey (hbmStore u.record + i) = some (s.keyMat u.key)

/-- A completion baton of a finished activity in `t`, where it is a live one of this module: it is signalled by one and has its
reference back. -/
def State.completes (s t : State) (h : Word) : Prop :=
  (s.liveHere h = false → t.batons = s.batons) ∧
  (s.liveHere h = true → s.batonIs t h { s.baton (handleKey h) with
    holds := (s.baton (handleKey h)).holds - 1, count := (s.baton (handleKey h)).count + 1 })

/-- The same where it takes an error code, which the first one keeps. -/
def State.completesErr (s t : State) (h : Word) (code : BitVec 8) : Prop :=
  (s.liveHere h = false → t.batons = s.batons) ∧
  (s.liveHere h = true → s.batonIs t h { s.baton (handleKey h) with
    holds := (s.baton (handleKey h)).holds - 1
    err := if (s.baton (handleKey h)).err = 0 then code else (s.baton (handleKey h)).err })

end Sys2Proof.Machine
end

