-- ==== Sys2Proof/Certificates/Slice0/Obligations.lean ====
section
/-! DEFINITION. Statements about the model, each formalising what its docstring cites of spec/. -/

open Sys2Proof Sys2Proof.Machine

/-! ## Scalar integer instructions -/

/-- spec/09 R228: `add`, `sub`, the bitwise operations and the shifts, wherever the guard enables them; a write to s0
is discarded, and nothing but sd and the program counter changes (R225). spec/09 R228 and spec/07 R183 with Table 1:
products, quotients and remainders, the three cases without an ordinary quotient among them, and the smaller and
larger operand. spec/09 R228: the counts of leading, trailing and set bits, and the reversed bytes, each said by what
it counts. spec/09 R229: P is the field's lowest bit and N its length, both from the control word; `sel` takes its
operand by the guard and is always executed. spec/09 R231: the immediate forms; nine-bit and fifteen-bit immediates
are signed, six-bit ones are not. -/
def Obligations.ScalarIntegerResults : Prop :=
  (∀ (s : State) (g : Guard) (d a b : Fin 32), s.enables g →
    exec (.add g d a b) s = .next (s.wrote d (s.reg a + s.reg b)) ∧
    exec (.sub g d a b) s = .next (s.wrote d (s.reg a - s.reg b)) ∧
    exec (.and g d a b) s = .next (s.wrote d (s.reg a &&& s.reg b)) ∧
    exec (.or g d a b) s = .next (s.wrote d (s.reg a ||| s.reg b)) ∧
    exec (.xor g d a b) s = .next (s.wrote d (s.reg a ^^^ s.reg b)) ∧
    exec (.sll g d a b) s = .next (s.wrote d (s.reg a <<< ((s.reg b).toNat % 64))) ∧
    exec (.srl g d a b) s = .next (s.wrote d (s.reg a >>> ((s.reg b).toNat % 64))) ∧
    exec (.sra g d a b) s = .next (s.wrote d ((s.reg a).sshiftRight ((s.reg b).toNat % 64)))) ∧
  (∀ (s : State) (g : Guard) (d a b : Fin 32), s.enables g →
    let x := s.reg a
    let y := s.reg b
    exec (.mul g d a b) s = .next (s.wrote d (x * y)) ∧
    exec (.mulh g d a b) s = .next (s.wrote d (BitVec.ofInt 64 (x.toInt * y.toInt / 2 ^ 64))) ∧
    exec (.mulhu g d a b) s =
      .next (s.wrote d (BitVec.ofNat 64 (x.toNat * y.toNat / 2 ^ 64))) ∧
    exec (.div g d a b) s = .next (s.wrote d (if y = 0 then -1 else BitVec.ofInt 64 (x.toInt.tdiv y.toInt))) ∧
    exec (.divu g d a b) s =
      .next (s.wrote d (if y = 0 then BitVec.allOnes 64 else BitVec.ofNat 64 (x.toNat / y.toNat))) ∧
    exec (.rem g d a b) s = .next (s.wrote d (if y = 0 then x else BitVec.ofInt 64 (x.toInt.tmod y.toInt))) ∧
    exec (.remu g d a b) s = .next (s.wrote d (if y = 0 then x else BitVec.ofNat 64 (x.toNat % y.toNat))) ∧
    exec (.min g d a b) s = .next (s.wrote d (if x.toInt < y.toInt then x else y)) ∧
    exec (.max g d a b) s = .next (s.wrote d (if x.toInt < y.toInt then y else x)) ∧
    exec (.minu g d a b) s = .next (s.wrote d (if x.toNat < y.toNat then x else y)) ∧
    exec (.maxu g d a b) s = .next (s.wrote d (if x.toNat < y.toNat then y else x))) ∧
  (∀ (s : State) (g : Guard) (d a : Fin 32), s.enables g →
    (∃ n : Nat, n ≤ 64 ∧ exec (.clz g d a) s = .next (s.wrote d (BitVec.ofNat 64 n)) ∧
      (∀ i, i < n → (s.reg a).getLsbD (63 - i) = false) ∧ (n < 64 → (s.reg a).getLsbD (63 - n) = true)) ∧
    (∃ n : Nat, n ≤ 64 ∧ exec (.ctz g d a) s = .next (s.wrote d (BitVec.ofNat 64 n)) ∧
      (∀ i, i < n → (s.reg a).getLsbD i = false) ∧ (n < 64 → (s.reg a).getLsbD n = true)) ∧
    exec (.popc g d a) s =
      .next (s.wrote d (BitVec.ofNat 64 ((List.range 64).countP (fun i => (s.reg a).getLsbD i)))) ∧
    (∃ v : Word, exec (.rev g d a) s = .next (s.wrote d v) ∧
      ∀ i, i < 8 → v.extractLsb' (8 * i) 8 = (s.reg a).extractLsb' (8 * (7 - i)) 8)) ∧
  (∀ (s : State) (g : Guard) (d a b : Fin 32),
    let P := (s.reg b).toNat % 64
    let N := min (min ((s.reg b).toNat / 2 ^ 8 % 128) 64) (64 - P)
    (s.enables g → exec (.sel g d a b) s = .next (s.wrote d (s.reg a))) ∧
    (¬ s.enables g → exec (.sel g d a b) s = .next (s.wrote d (s.reg b))) ∧
    (s.enables g →
      (∃ v : Word, exec (.bfx g d a b) s = .next (s.wrote d v) ∧
        ∀ i, v.getLsbD i = (decide (i < N) && (s.reg a).getLsbD (P + i))) ∧
      (∃ v : Word, exec (.bfxs g d a b) s = .next (s.wrote d v) ∧
        ∀ i, i < 64 → v.getLsbD i = (decide (0 < N) && (s.reg a).getLsbD (P + min i (N - 1)))) ∧
      (∃ v : Word, exec (.bfi g d a b) s = .next (s.wrote d v) ∧
        ∀ i, i < 64 → v.getLsbD i =
          if P ≤ i ∧ i < P + N then (s.reg a).getLsbD (i - P) else (s.reg d).getLsbD i))) ∧
  (∀ (s : State) (g : Guard) (d a : Fin 32), s.enables g →
    (∀ i : BitVec 9, exec (.addi g d a i) s = .next (s.wrote d (s.reg a + BitVec.ofInt 64 i.toInt))) ∧
    (∀ u : BitVec 6,
      exec (.andi g d a u) s = .next (s.wrote d (s.reg a &&& BitVec.ofNat 64 u.toNat)) ∧
      exec (.ori g d a u) s = .next (s.wrote d (s.reg a ||| BitVec.ofNat 64 u.toNat)) ∧
      exec (.xori g d a u) s = .next (s.wrote d (s.reg a ^^^ BitVec.ofNat 64 u.toNat)) ∧
      exec (.slli g d a u) s = .next (s.wrote d (s.reg a <<< u.toNat)) ∧
      exec (.srli g d a u) s = .next (s.wrote d (s.reg a >>> u.toNat)) ∧
      exec (.srai g d a u) s = .next (s.wrote d ((s.reg a).sshiftRight u.toNat))) ∧
    (∀ i : BitVec 15,
      exec (.li g d i) s = .next (s.wrote d (BitVec.ofInt 64 i.toInt)) ∧
      exec (.lis g d i) s = .next (s.wrote d ((s.reg d <<< 15) ||| BitVec.ofNat 64 i.toNat))))

/-- spec/09 R230: the compares and the combinations of guards write d[2..0] with the result c and, where d[5..3]
differs, that guard with NOT c; no other guard and no flag changes. A destination field that names g7 does not decode.
-/
def Obligations.CompareAndGuardLogicResults : Prop :=
  ∀ (s : State) (g : Guard) (d : Fin 64), s.enables g → pairOk d = true →
    (∀ a b : Fin 32,
      Goes (exec (.cmpEq g d a b) s) (s.Compared · d (s.reg a == s.reg b) 0) ∧
      Goes (exec (.cmpNe g d a b) s) (s.Compared · d (s.reg a != s.reg b) 0) ∧
      Goes (exec (.cmpLt g d a b) s) (s.Compared · d (decide ((s.reg a).toInt < (s.reg b).toInt)) 0) ∧
      Goes (exec (.cmpLtu g d a b) s) (s.Compared · d (decide ((s.reg a).toNat < (s.reg b).toNat)) 0) ∧
      Goes (exec (.cmpLe g d a b) s) (s.Compared · d (decide ((s.reg a).toInt ≤ (s.reg b).toInt)) 0) ∧
      Goes (exec (.cmpLeu g d a b) s) (s.Compared · d (decide ((s.reg a).toNat ≤ (s.reg b).toNat)) 0)) ∧
    (∀ a b : Fin 8,
      Goes (exec (.gand g d a b) s) (s.Compared · d (s.guard a && s.guard b) 0) ∧
      Goes (exec (.gor g d a b) s) (s.Compared · d (s.guard a || s.guard b) 0))

/-! ## Scalar floating point -/

/-- spec/09 R232: in FP64 and FP32, each operation writes its result, zero-extended, and adds its flags to FFLAGS; FRM
selects the rounding mode, and mode 4 rounds to nearest even (spec/07 R189). spec/09 R233 and R234: the comparisons
write guards as `cmp` does, with c false when an operand is a NaN, and the conversions write what their kinds say;
both add their flags to FFLAGS. A conversion rounds with FRM, mode 4 included. -/
def Obligations.ScalarFloatingPointResults : Prop :=
  (∀ (s : State) (g : Guard) (d a b : Fin 32), s.enables g →
    let rm := (Rm.ofFrm s.core.run.frm.toNat).arith
    let ans (r : Nat × Flags) : Res := .next (s.wroteFlags d (BitVec.ofNat 64 r.1) r.2)
    exec (.faddF64 g d a b) s = ans (Fmt.f64.add rm (s.freg .f64 a) (s.freg .f64 b)) ∧
    exec (.fsubF64 g d a b) s = ans (Fmt.f64.sub rm (s.freg .f64 a) (s.freg .f64 b)) ∧
    exec (.fmulF64 g d a b) s = ans (Fmt.f64.mul rm (s.freg .f64 a) (s.freg .f64 b)) ∧
    exec (.fdivF64 g d a b) s = ans (Fmt.f64.div rm (s.freg .f64 a) (s.freg .f64 b)) ∧
    exec (.fminF64 g d a b) s = ans (Fmt.f64.minmax false (s.freg .f64 a) (s.freg .f64 b)) ∧
    exec (.fmaxF64 g d a b) s = ans (Fmt.f64.minmax true (s.freg .f64 a) (s.freg .f64 b)) ∧
    exec (.fmaF64 g d a b) s = ans (Fmt.f64.fma rm (s.freg .f64 a) (s.freg .f64 b) (s.freg .f64 d)) ∧
    exec (.fsqrtF64 g d a) s = ans (Fmt.f64.sqrt rm (s.freg .f64 a)) ∧
    exec (.faddF32 g d a b) s = ans (Fmt.f32.add rm (s.freg .f32 a) (s.freg .f32 b)) ∧
    exec (.fsubF32 g d a b) s = ans (Fmt.f32.sub rm (s.freg .f32 a) (s.freg .f32 b)) ∧
    exec (.fmulF32 g d a b) s = ans (Fmt.f32.mul rm (s.freg .f32 a) (s.freg .f32 b)) ∧
    exec (.fdivF32 g d a b) s = ans (Fmt.f32.div rm (s.freg .f32 a) (s.freg .f32 b)) ∧
    exec (.fminF32 g d a b) s = ans (Fmt.f32.minmax false (s.freg .f32 a) (s.freg .f32 b)) ∧
    exec (.fmaxF32 g d a b) s = ans (Fmt.f32.minmax true (s.freg .f32 a) (s.freg .f32 b)) ∧
    exec (.fmaF32 g d a b) s = ans (Fmt.f32.fma rm (s.freg .f32 a) (s.freg .f32 b) (s.freg .f32 d)) ∧
    exec (.fsqrtF32 g d a) s = ans (Fmt.f32.sqrt rm (s.freg .f32 a))) ∧
  (∀ (s : State) (g : Guard), s.enables g →
    (∀ (d : Fin 64) (a b : Fin 32), pairOk d = true →
      (∀ (f : Fmt) (i : Instr) (cc : Nat),
        (f, i, cc) ∈ [(Fmt.f64, Instr.fcmpEqF64 g d a b, 0), (Fmt.f64, Instr.fcmpLtF64 g d a b, 1),
          (Fmt.f64, Instr.fcmpLeF64 g d a b, 2), (Fmt.f32, Instr.fcmpEqF32 g d a b, 0),
          (Fmt.f32, Instr.fcmpLtF32 g d a b, 1), (Fmt.f32, Instr.fcmpLeF32 g d a b, 2)] →
        Goes (exec i s) (fun t =>
          let r := f.compare cc (s.freg f a) (s.freg f b)
          s.Compared t d r.1 r.2 ∧
            ((f.decode (s.freg f a)).isNan = true ∨ (f.decode (s.freg f b)).isNan = true → r.1 = false)))) ∧
    (∀ (d a : Fin 32) (t sc : Fin 8),
      let r := convert (Rm.ofFrm s.core.run.frm.toNat) t sc (s.reg a)
      exec (.fcvt g d a t sc) s = .next (s.wroteFlags d r.1 r.2)))

/-- spec/07 R185: whatever NaN an operand holds, the result of an operation is the canonical NaN of its format, quiet.
spec/07 R186 and R192: a value that the format holds exactly, subnormals included, is its own rounding in every mode,
and sets no flag. `p × 2 ^ k` is any writing of the value `m × 2 ^ e` of the code `x`. spec/07 R186, R189 and R190:
the sum, difference, product, quotient, fused multiply-add and square root of finite operands are the exact value
rounded once in the mode, with the flags of that rounding; an exact zero has the sign of IEEE 754-2019. spec/07 R186
and R187: a conversion between formats, or from an integer, rounds the exact value once, saturating to E4M3 and E5M2;
one to an integer rounds to an integer, and saturates with IV outside the range. spec/10 R264 with Table 5: `vrcp` and
`vrsqrt` give one of the two codes about the exact value, and that value where it has a code; `vexp2` of an integer
and `vlog2` of a power of two are exact; and the special operands give what Table 5 says. spec/07 R199: a chunk of 32
products of finite elements is summed exactly and rounded once to FP32, and that is added to the accumulator element
with a second rounding; the chunks follow one another, and INT8 sums wrap. spec/07 R200: a reduction combines the
row's element groups position by position in the pairwise tree, the identity in place of an inactive element, and
folds the positions of the last group in order; its flags are those of the combinations. -/
def Obligations.FloatingPointRounding : Prop :=
  (∀ (f : Fmt) (canonical : Nat) (rm : Rm) (x y z : Nat),
    (f, canonical) ∈ [(Fmt.f64, 0x7FF8000000000000), (Fmt.f32, 0x7FC00000), (Fmt.f16, 0x7E00), (Fmt.bf16, 0x7FC0)] →
    x < 2 ^ f.width → y < 2 ^ f.width → z < 2 ^ f.width →
    ((f.decode x).isNan = true ∨ (f.decode y).isNan = true →
      (f.add rm x y).1 = canonical ∧ (f.sub rm x y).1 = canonical ∧ (f.mul rm x y).1 = canonical ∧
      (f.div rm x y).1 = canonical ∧ (f.minmax false x y).1 = canonical ∧ (f.minmax true x y).1 = canonical) ∧
    ((f.decode x).isNan = true → (f.sqrt rm x).1 = canonical) ∧
    ((f.decode x).isNan = true ∨ (f.decode y).isNan = true ∨ (f.decode z).isNan = true →
      (f.fma rm x y z).1 = canonical)) ∧
  (∀ (f : Fmt) (rm : Rm) (x : Nat) (neg : Bool) (m : Nat) (e : Int) (p : Nat) (k : Int),
    f ∈ [Fmt.f64, Fmt.f32, Fmt.f16, Fmt.bf16] → x < 2 ^ f.width → f.decode x = .fin neg m e → m ≠ 0 →
    (p : ℚ) * 2 ^ k = (m : ℚ) * 2 ^ e →
    f.round rm neg p k false = (x, 0)) ∧
  (∀ (f : Fmt) (rm : Rm) (x y z : Nat) (p q w : ℚ), f ∈ [Fmt.f64, Fmt.f32, Fmt.f16, Fmt.bf16] →
    x < 2 ^ f.width → y < 2 ^ f.width → z < 2 ^ f.width → f.rat x = some p → f.rat y = some q → f.rat z = some w →
    let neg (c : Nat) : Bool := bitAt c (f.width - 1)
    let sum (a b : Bool) : Nat × Flags := (f.sign (if a = b then a else rm == .rdn), 0)
    let crossed := neg x != neg y
    (p + q ≠ 0 → f.rounds rm (p + q : ℚ) (f.add rm x y)) ∧ (p + q = 0 → f.add rm x y = sum (neg x) (neg y)) ∧
    (p - q ≠ 0 → f.rounds rm (p - q : ℚ) (f.sub rm x y)) ∧ (p - q = 0 → f.sub rm x y = sum (neg x) (!neg y)) ∧
    (p * q ≠ 0 → f.rounds rm (p * q : ℚ) (f.mul rm x y)) ∧ (p * q = 0 → f.mul rm x y = (f.sign crossed, 0)) ∧
    (q ≠ 0 → (p ≠ 0 → f.rounds rm (p / q : ℚ) (f.div rm x y)) ∧ (p = 0 → f.div rm x y = (f.sign crossed, 0))) ∧
    (q = 0 → f.div rm x y = if p = 0 then (f.nan, Flags.iv) else (f.sign crossed + f.infinity, Flags.zd)) ∧
    (p * q + w ≠ 0 → f.rounds rm (p * q + w : ℚ) (f.fma rm x y z)) ∧
    (p * q + w = 0 → f.fma rm x y z = sum crossed (neg z)) ∧
    (0 < p → f.rounds rm (Real.sqrt p) (f.sqrt rm x)) ∧
    (p ≤ 0 → f.sqrt rm x = if p = 0 then (x, 0) else (f.nan, Flags.iv))) ∧
  (∀ (f t : Fmt) (rm : Rm) (x : Nat) (p : ℚ),
    f ∈ [Fmt.f64, Fmt.f32, Fmt.f16, Fmt.bf16, Fmt.e4m3, Fmt.e5m2] →
    t ∈ [Fmt.f64, Fmt.f32, Fmt.f16, Fmt.bf16, Fmt.e4m3, Fmt.e5m2] → x < 2 ^ f.width → f.rat x = some p →
    (p ≠ 0 → t.rounds rm p (f.toFmt t rm x)) ∧
    (p = 0 → f.toFmt t rm x = (t.sign (bitAt x (f.width - 1)), 0)) ∧
    (∀ i : Int, i ≠ 0 → t.rounds rm i (t.ofInt rm i)) ∧ t.ofInt rm 0 = (0, 0) ∧
    ∀ (w : Nat) (signed : Bool), 0 < w →
      let least : Int := if signed then -2 ^ (w - 1) else 0
      let most : Int := if signed then 2 ^ (w - 1) - 1 else 2 ^ w - 1
      ∃ (lo n : Nat) (i : Int), (lo : ℚ) ≤ |p| ∧ |p| < lo + 1 ∧
        (rm.away p lo (lo + 1) (lo % 2 = 1) → n = lo + 1) ∧ (¬ rm.away p lo (lo + 1) (lo % 2 = 1) → n = lo) ∧
        i = (if p < 0 then -(n : Int) else n) ∧
        (i < least → f.toInt rm w signed x = ((BitVec.ofInt w least).toNat, Flags.iv)) ∧
        (most < i → f.toInt rm w signed x = ((BitVec.ofInt w most).toNat, Flags.iv)) ∧
        (least ≤ i → i ≤ most → f.toInt rm w signed x = ((BitVec.ofInt w i).toNat, if |p| = lo then 0 else Flags.ix))) ∧
  (∀ x : Nat, x < 2 ^ 32 →
    let f := Fmt.f32
    let lost := Flags.ix ||| Flags.ov
    (∀ p : ℚ, f.rat x = some p →
      (1 ≤ |p| * 2 ^ 128 → neighbours ((1 / p : ℚ) : ℝ) (sfRcp x)) ∧
      (p ≠ 0 → |p| * 2 ^ 128 < 1 → sfRcp x = (f.sign (decide (p < 0)) + f.infinity, lost)) ∧
      (0 < p → neighbours (1 / Real.sqrt p) (sfRsqrt x)) ∧
      (∀ n : Int, -149 ≤ n → n ≤ 127 → p = n → f.rat (sfExp2 x).1 = some (2 ^ n) ∧ (sfExp2 x).2 = 0) ∧
      (128 ≤ p → sfExp2 x = (f.infinity, lost)) ∧ (p < -150 → sfExp2 x = (0, Flags.un ||| Flags.ix)) ∧
      (∀ n : Int, p = 2 ^ n → f.rat (sfLog2 x).1 = some (n : ℚ) ∧ (sfLog2 x).2 = 0) ∧
      (p < 0 → sfLog2 x = (f.nan, Flags.iv) ∧ sfRsqrt x = (f.nan, Flags.iv)) ∧
      (p = 0 →
        let sign := f.sign (bitAt x 31)
        sfLog2 x = (f.sign true + f.infinity, Flags.zd) ∧ sfRsqrt x = (sign + f.infinity, Flags.zd) ∧
          sfRcp x = (sign + f.infinity, Flags.zd))) ∧
    (f.decode x = .inf true →
      sfExp2 x = (0, 0) ∧ sfLog2 x = (f.nan, Flags.iv) ∧ sfRsqrt x = (f.nan, Flags.iv) ∧ sfRcp x = (f.sign true, 0)) ∧
    (f.decode x = .inf false →
      sfExp2 x = (f.infinity, 0) ∧ sfLog2 x = (f.infinity, 0) ∧ sfRsqrt x = (0, 0) ∧ sfRcp x = (0, 0)) ∧
    (∀ sig, f.decode x = .nan sig → ∀ g ∈ [sfExp2, sfLog2, sfRsqrt, sfRcp], g x = (f.nan, if sig then Flags.iv else 0))) ∧
  (∀ (t ra rb x : Nat),
    (∀ (c : Nat) (a b : Nat → ℚ), t ∈ [8, 9, 12, 13, 14, 15] →
      (∀ i, i < 32 → (rowVal t ra (32 * c + i)).rat = some (a i) ∧ (rowVal t rb (32 * c + i)).rat = some (b i)) →
      let q : ℚ := ((List.range 32).map (fun i => a i * b i)).sum
      ∃ z : Nat × Flags, (q ≠ 0 → Fmt.f32.rounds .rne q z) ∧ (q = 0 → z = (0, 0) ∨ z = (2 ^ 31, 0)) ∧
        (chunkFp t ra rb c x).1 = (Fmt.f32.add .rne x z.1).1 ∧
        ((Fmt.f32.decode x).isNan = false →
          (chunkFp t ra rb c x).2 = z.2 ||| (Fmt.f32.add .rne x z.1).2)) ∧
    (t ≠ 4 →
      let first := chunkFp t ra rb 0 x
      let second := chunkFp t ra rb 1 first.1
      macElem t 32 ra rb x = first ∧ macElem t 64 ra rb x = (second.1, first.2 ||| second.2)) ∧
    (∀ k ∈ [32, 64], macElem 4 k ra rb x =
      ((BitVec.ofNat 32 x + BitVec.ofInt 32 (((List.range k).map (fun i =>
        (BitVec.ofNat 8 (ra / 2 ^ (8 * i))).toInt * (BitVec.ofNat 8 (rb / 2 ^ (8 * i))).toInt)).sum)).toNat, 0))) ∧
  (∀ (s : Coro) (o : RedOp) (g : Guard) (a : Fin 64) (r lo n l : Nat), typeBytes s.ty ∈ [1, 2, 4, 8] → 0 < n → 0 < s.wb →
    let per := 128 / s.tyBytes
    let groups := (n * s.wb + 127) / 128
    let f := o.comb s.ty s.arithRm
    let val (i : Nat) : Nat := if i < n ∧ s.active g r (lo + i) = true then s.elem a s.tyBytes r (lo + i) else o.identity s.ty
    let at_ := redAt f groups per val
    let fold (k : Nat) : Nat := (List.range k).foldl (fun x p => (f x (at_ l 0 (p + 1))).1) (at_ l 0 0)
    groups ≤ 2 ^ l →
    (s.reduceFrom o g a r lo n).1 = fold (per - 1) ∧
    ∀ k, (s.reduceFrom o g a r lo n).2.getLsbD k = true ↔
      (∃ j i p, j < l ∧ p < per ∧ (2 * i + 1) * 2 ^ j < groups ∧ (f (at_ j (2 * i) p) (at_ j (2 * i + 1) p)).2.getLsbD k = true) ∨
      ∃ p, p + 1 < per ∧ (f (fold p) (at_ l 0 (p + 1))).2.getLsbD k = true)

/-! ## Branches -/

/-- spec/09 R235 and R236: a taken branch goes to the address that its immediate counts in words from the branch,
`jal` and `jr` link the next word's address (`jr` reads its target first), and `loop` counts its counter down and goes
round again until it is zero. spec/08 R203: the canonical no-op changes nothing but the program counter. -/
def Obligations.BranchLoopAndNopResults : Prop :=
  (∀ (s : State) (g : Guard), s.enables g →
    (∀ i : BitVec 21,
      let dest := s.core.run.pc + BitVec.ofInt 64 (i.toInt * 4)
      exec (.b g i) s = .next (s.jumped dest) ∧
      exec (.jal g i) s = .next ((s.wrote 30 (s.core.run.pc + 4)).jumped dest)) ∧
    (∀ d a : Fin 32, exec (.jr g d a) s = .next ((s.wrote d (s.core.run.pc + 4)).jumped (s.reg a))) ∧
    (∀ (k : Fin 4) (i : BitVec 15),
      let n := s.core.run.lc[k]
      let dec := s.withRun { s.core.run with lc := s.core.run.lc.set k (n - 1) }
      (n = 0 → exec (.loop g k i) s = .next s.passed) ∧
      (n = 1 → exec (.loop g k i) s = .next dec.passed) ∧
      (1 < n.toNat → exec (.loop g k i) s = .next (dec.jumped (s.core.run.pc + BitVec.ofInt 64 (i.toInt * 4)))))) ∧
  (∀ s : State, exec .nop s = .next s.passed)

/-! ## Coroutines and traps -/

/-- spec/06 R164 and R157: `spawn` makes a Ready coroutine under the lowest free number, with s1 from sb, s2 the
parent's number, its first instruction at sa and the parent's privilege, ASID, launch, register configuration and
priority range; sd receives the number shifted left by 8. A core with 1024 coroutines answers 0x01, one that no
context of 512 bytes fits answers 0x02, and neither creates any. Memory keeps every byte. The stores that the
coroutine has sent to other cores' scratchpads have been applied (spec/04 R106). -/
def Obligations.SpawnMakesAReadyCoroutine : Prop :=
  ∀ (s : State) (g : Guard) (d a b : Fin 32), s.enables g → s.ordinary → s.posted = false →
    (1024 ≤ s.core.coros.length + 1 → exec (.spawn g d a b) s = .next (s.wrote d 1)) ∧
    (s.core.coros.length + 1 < 1024 → (∀ k : Coro, k.bytes = 512 → s.core.placeContext k = none) →
      exec (.spawn g d a b) s = .next (s.wrote d 2)) ∧
    (s.core.coros.length + 1 < 1024 → s.core.roomFits 1 = true →
      Goes (exec (.spawn g d a b) s) (fun t => ∃ n : Nat, ∃ k ∈ t.core.coros,
        n < 1024 ∧ s.core.numberUsed n = false ∧ (∀ m, m < n → s.core.numberUsed m = true) ∧
        k.cnum = BitVec.ofNat 10 n ∧ k.state = .ready ∧ k.pc = s.reg a ∧ k.s[1] = s.reg b ∧
        k.s[2] = s.core.run.cnum.setWidth 64 ∧ (∀ r : Fin 32, r ≠ 1 → r ≠ 2 → k.s[r] = 0) ∧
        k.priv = s.core.run.priv ∧ k.asid = s.core.run.asid ∧ k.launch = s.core.run.launch ∧
        k.nreg = s.core.run.nreg ∧ k.wmax = s.core.run.wmax ∧ k.prio = s.core.run.prio ∧ k.ceil = s.core.run.ceil ∧
        t.core.run = (s.wrote d (BitVec.ofNat 64 (n * 256))).core.run ∧ t.core.live = s.core.live ∧
        (∀ c ∈ s.core.coros, c ∈ t.core.coros) ∧
        t.mem = s.mem ∧ t.others = s.others ∧ t.batons = s.batons ∧ t.fq = s.fq))

/-- spec/05 R134 to R136 and spec/06 R165 and R168: `await` goes on at once when its baton has failed or its count
satisfies the armed threshold, after an acquire at the baton's scope, its armed wait cleared as at a resumption, which
is the model's reading (log 49); otherwise the coroutine is Waiting from the next instruction on, with its scalar
registers, and with the vector registers, masks and tiles outside the live set zero. spec/05 R136: inside an open
strip `await` raises STRIP_SYNC, without an armed wait on its handle BATON_ARM, and for another module's baton
BATON_NOT_LOCAL. -/
def Obligations.AwaitResults : Prop :=
  (∀ (s : State) (g : Guard) (k : Fin 64) (a b : Fin 32) (T : BitVec 32), s.enables g → s.ordinary →
    s.core.run.armed = some (s.reg a, T) → handleModule (s.reg a) = Config.moduleNumber → s.posted = false →
    let bat := s.baton (handleKey (s.reg a))
    let met : Prop := bat.err ≠ 0 ∨ (bat.count - T).toNat < 2 ^ 31
    (met → exec (.await g k a b) s =
      .next ((s.passed.withRun { s.passed.core.run with armed := none }).acquire bat.scope.val)) ∧
    (¬ met → s.core.roomFits (s.core.run.trimLive s.core.lanes (s.reg b) k.val).blocks = true →
      Goes (exec (.await g k a b) s) (fun t =>
        t.core.live = .idle ∧ t.mem = s.mem ∧ t.batons = s.batons ∧ t.others = s.others ∧
        Event.pacerDecision s.core.id ∈ t.agenda ∧
        (s.reg a ∈ t.core.regs ∨ Event.batonPoll s.core.id s.core.run.cnum.toNat ∈ t.agenda) ∧
        ∃ c ∈ t.core.coros, c.cnum = s.core.run.cnum ∧ c.state = .waiting ∧ c.pc = s.core.run.pc + 4 ∧
          c.s = s.core.run.s ∧ c.g = s.core.run.g ∧ c.armed = some (s.reg a, T) ∧
          (∀ r : Fin 64, c.v[r] = if r.val < s.core.run.nregs ∧ (s.reg b).getLsbD r = true then s.core.run.v[r] else 0) ∧
          (∀ i : Fin 7, c.m[i] = if i.val < 4 ∧ k.val.testBit i then s.core.run.m[i] else 0) ∧
          (∀ i : Fin 4, c.acc[i] = if i.val < [0, 1, 2, 4].getD (k.val / 16) 0 then s.core.run.acc[i] else 0)))) ∧
  (∀ (s : State) (g : Guard) (k : Fin 64) (a b : Fin 32), s.enables g →
    (s.core.run.strip.isSome = true → exec (.await g k a b) s = .next (s.raise .stripSync)) ∧
    (s.core.run.strip = none → (∀ T, s.core.run.armed ≠ some (s.reg a, T)) →
      exec (.await g k a b) s = .next (s.raise .batonArm)) ∧
    (∀ T, s.core.run.strip = none → s.core.run.armed = some (s.reg a, T) →
      handleModule (s.reg a) ≠ Config.moduleNumber → exec (.await g k a b) s = .next (s.raise .batonNotLocal)))

/-- spec/06 R166 and R174: `yield` with no other Ready coroutine goes on with every register; with one of a higher
effective priority, the coroutine is Ready from the next instruction on, its scalar registers kept, and the pacer
decides. spec/06 R167: `fin` ends the coroutine: it is on the core no more, its number is free, and the pacer decides;
the last coroutine of a launch asks for the launch's completion (spec/14 R351), before which its stores are performed
at their homes (spec/04 R121): memory keeps every byte where none waits in its core's L1. -/
def Obligations.YieldAndFinResults : Prop :=
  (∀ (s : State) (g : Guard) (k : Fin 64) (b : Fin 32), s.enables g → s.ordinary → s.core.first = none →
    s.core.run.pending = [] → s.posted = false →
    ((∀ c ∈ s.core.coros, c.state ≠ .ready) →
      Goes (exec (.yield g k b) s) (fun t => t.core.live = .running ∧ t.core.run.pc = s.core.run.pc + 4 ∧
        t.core.run.s = s.core.run.s ∧ t.core.run.g = s.core.run.g ∧ t.core.run.v = s.core.run.v ∧
        t.core.run.m = s.core.run.m ∧ t.core.run.acc = s.core.run.acc ∧ t.mem = s.mem)) ∧
    ((∃ c ∈ s.core.coros, c.selectable = true ∧ s.core.run.effPrio < c.effPrio ∧ c.cnum ≠ s.core.run.cnum) →
      (∀ c ∈ s.core.coros, c.cnum ≠ s.core.run.cnum) →
      s.core.roomFits (s.core.run.trimLive s.core.lanes (s.reg b) k.val).blocks = true →
      Goes (exec (.yield g k b) s) (fun t => t.core.live = .idle ∧ t.mem = s.mem ∧
        Event.pacerDecision s.core.id ∈ t.agenda ∧
        ∃ c ∈ t.core.coros, c.cnum = s.core.run.cnum ∧ c.state = .ready ∧ c.pc = s.core.run.pc + 4 ∧
          c.s = s.core.run.s ∧ c.g = s.core.run.g))) ∧
  (∀ (s : State) (g : Guard), s.enables g → s.ordinary → s.posted = false →
    Goes (exec (.fin g) s) (fun t => t.core.live = .idle ∧ t.core.coros = s.core.coros ∧
      ((∀ l ∈ s.caches.l1, l.core = s.core.id → l.loose = 0) → t.mem = s.mem) ∧
      t.core.allCoros = s.core.coros ∧ Event.pacerDecision s.core.id ∈ t.agenda ∧
      (∀ r ∈ s.starter.recs, s.findRec s.core.run.launch = some r → r.alive = 1 →
        Event.launchCompletion r.seq ∈ t.agenda)))

/-- spec/15 R361, R364, R365 and spec/09 R238: `sys` parks its coroutine with SYS_CALL at the following instruction,
with every register, and its record is written at FQHEAD of its die's fault queue: kind 1, the cause's code, CORO, the
program counter, and the number in INDEX. spec/08 R208 and spec/15 R361: in an unprivileged coroutine a privileged
instruction parks with PRIV_INSTRUCTION at itself, whatever its guard, with none of its effect; a word that no
instruction has parks with its decode cause. The stores that the coroutine has sent to other cores' scratchpads are
applied first (spec/04 R106). -/
def Obligations.SystemCallsAndRefusedWords : Prop :=
  (∀ (s : State) (g : Guard) (h l : Fin 64), s.enables g → s.ordinary → s.core.run.convoy = none → s.posted = false →
    s.reportsTrap → Goes (exec (.sys g h l) s) (fun t =>
      s.Parked t .sysCall (s.core.run.pc + 4) (BitVec.ofNat 64 (h.val * 64 + l.val)) 0)) ∧
  (∀ (s : State), s.ordinary → s.reportsTrap →
    (s.posted = true → ∀ c : Cause,
      s.raise c = { s with core := { s.core with drain := some (.trap { cause := c }) } }) ∧
    (s.posted = false → s.core.run.priv = false → ∀ (g : Guard) (d a b : Fin 32) (k : Fin 8), ∀ i ∈ [Instr.asidBind g d a,
        .asidRetire g d a, .xlinvVa g d a b, .xlinvAsid g d a, .xlinvGlob g d, .swalloc g d a b, .swfree g d a,
        .launch g d a, .cancel g d a, .pxwSh g a k],
      Goes (exec i s) (fun t => s.Parked t .privInstruction s.core.run.trapPc 0 0)) ∧
    (s.posted = false → s.sys.reduced = false → ∀ (w : BitVec 32) (c : Cause), decode w.toNat = .error c →
      Goes (exec (.illegalInstruction w) s) (fun t => s.Parked t c s.core.run.trapPc 0 0)))

/-! ## Scalar loads, stores and atomics -/

/-- spec/11 R276 to R279: each load reads its bytes at the base register plus the offset that its form scales, zero-
or sign-extends them, and changes nothing but its register and the program counter. An acquire at `.clus` or wider
leaves only dirty and registered words in the core's L1 (spec/04 R116). spec/11 R276 to R278: each store writes the
low bytes of its register at the base register plus the offset that its form scales: no register, no flag and no other
byte changes. A release comes after every store of the coroutine, is performed at its home at `.clus` or wider, which
is the model's reading of spec/04 R104 and R114 (log 36), and traps with STRIP_SYNC at `.core` or wider inside an open
strip. -/
def Obligations.ScalarLoadAndStoreResults : Prop :=
  (∀ (s : State) (g : Guard) (d a : Fin 32), s.enables g →
    (∀ i : BitVec 9,
      s.loads (.ldB64 g d a i) d (s.reg a + BitVec.ofInt 64 (i.toInt * 8)) 8 (BitVec.ofNat 64) ∧
      s.loads (.ldB32 g d a i) d (s.reg a + BitVec.ofInt 64 (i.toInt * 4)) 4 (BitVec.ofNat 64)) ∧
    (∀ i : BitVec 6,
      s.loads (.ldB8 g d a i) d (s.reg a + BitVec.ofInt 64 i.toInt) 1 (BitVec.ofNat 64) ∧
      s.loads (.ldB16 g d a i) d (s.reg a + BitVec.ofInt 64 (i.toInt * 2)) 2 (BitVec.ofNat 64) ∧
      s.loads (.ldI8 g d a i) d (s.reg a + BitVec.ofInt 64 i.toInt) 1 (fun n => (BitVec.ofNat 8 n).signExtend 64) ∧
      s.loads (.ldI16 g d a i) d (s.reg a + BitVec.ofInt 64 (i.toInt * 2)) 2
        (fun n => (BitVec.ofNat 16 n).signExtend 64) ∧
      s.loads (.ldI32 g d a i) d (s.reg a + BitVec.ofInt 64 (i.toInt * 4)) 4
        (fun n => (BitVec.ofNat 32 n).signExtend 64)) ∧
    (∀ (sc : Fin 8) (w : Fin 4) (i : BitVec 2),
      let n := 2 ^ w.val
      let A := s.reg a + BitVec.ofNat 64 (i.toNat * 32)
      (sc.val < 2 → s.loads (.ldAcq g d a sc w i) d A n (BitVec.ofNat 64)) ∧
      (2 ≤ sc.val → ∀ p, s.mayAccess A n → s.attains .read true A n p →
        Goes (exec (.ldAcq g d a sc w i) s) (fun t => s.acquires t (s.wrote d (BitVec.ofNat 64 (s.seenNat p n))))))) ∧
  (∀ (s : State) (g : Guard) (d a : Fin 32), s.enables g →
    (∀ i : BitVec 9,
      s.stores (.stB64 g d a i) d (s.reg a + BitVec.ofInt 64 (i.toInt * 8)) 8 ∧
      s.stores (.stB32 g d a i) d (s.reg a + BitVec.ofInt 64 (i.toInt * 4)) 4) ∧
    (∀ i : BitVec 6,
      s.stores (.stB8 g d a i) d (s.reg a + BitVec.ofInt 64 i.toInt) 1 ∧
      s.stores (.stB16 g d a i) d (s.reg a + BitVec.ofInt 64 (i.toInt * 2)) 2) ∧
    (∀ (sc : Fin 8) (w : Fin 4) (i : BitVec 2),
      (sc = 0 ∨ s.core.run.strip = none → s.posted = false →
        (sc.val < 2 → s.stores (.stRel g d a sc w i) d (s.reg a + BitVec.ofNat 64 (i.toNat * 32)) (2 ^ w.val)) ∧
        (2 ≤ sc.val → s.publishes (.stRel g d a sc w i) d (s.reg a + BitVec.ofNat 64 (i.toNat * 32)) (2 ^ w.val))) ∧
      (sc = 0 ∨ s.core.run.strip = none → s.posted = true →
        ∀ p, s.mayAccess (s.reg a + BitVec.ofNat 64 (i.toNat * 32)) (2 ^ w.val) →
          s.attains .write true (s.reg a + BitVec.ofNat 64 (i.toNat * 32)) (2 ^ w.val) p →
          exec (.stRel g d a sc w i) s = .next s) ∧
      (sc ≠ 0 → s.core.run.strip.isSome = true → exec (.stRel g d a sc w i) s = .next (s.raise .stripSync))))

/-- spec/11 R288, R289 and Table 5: an atomic of 4 or 8 bytes combines what memory holds with the operand in the
pair's even member; `cas` writes the odd member where memory holds the even one. The odd member receives the old
value. Memory keeps every other byte where no earlier store of the coroutine waits for a release to perform it. -/
def Obligations.AtomicResults : Prop :=
  ∀ (s : State) (g : Guard) (d : Fin 16) (a : Fin 32) (sc : Fin 8) (o : Fin 4) (w : Bool), s.enables g →
    s.core.run.strip = none → s.rests →
    let n := if w then 8 else 4
    let x := (s.reg (pairEven d)).toNat % 2 ^ (8 * n)
    let y := (s.reg (pairOdd d)).toNat % 2 ^ (8 * n)
    let int (k : Nat) : Int := (BitVec.ofNat (8 * n) k).toInt
    let A := s.reg a
    s.swaps (.atomAdd g d a sc o w) d A n (fun old => some ((old + x) % 2 ^ (8 * n))) ∧
    s.swaps (.atomMin g d a sc o w) d A n (fun old => some (if int x < int old then x else old)) ∧
    s.swaps (.atomMax g d a sc o w) d A n (fun old => some (if int old < int x then x else old)) ∧
    s.swaps (.atomMinu g d a sc o w) d A n (fun old => some (min old x)) ∧
    s.swaps (.atomMaxu g d a sc o w) d A n (fun old => some (max old x)) ∧
    s.swaps (.atomAnd g d a sc o w) d A n (fun old => some (old &&& x)) ∧
    s.swaps (.atomOr g d a sc o w) d A n (fun old => some (old ||| x)) ∧
    s.swaps (.atomXor g d a sc o w) d A n (fun old => some (old ^^^ x)) ∧
    s.swaps (.atomSwap g d a sc o w) d A n (fun _ => some x) ∧
    s.swaps (.atomCas g d a sc o w) d A n (fun old => if old = x then some y else none)

/-- spec/11 R277, R288 and spec/01 R30, R31: where an access's translation fails, the instruction traps with that
cause, ADDR being the first byte of the part that fails (the model's reading, log 64), and changes no register and no
memory; a misaligned atomic traps with ATOMIC_MISALIGNED before that. Where the access takes several parts, or reaches
a target other than another core's scratchpad, the loaded value is that of its bytes in order. spec/04 R119 and
spec/11 R279: a `.wp` load below the channel's destination or below its watermark reads at once; of bytes that a
running command has not passed it waits, with nothing changed; past an idle channel's watermark it traps with
WP_OUT_OF_RANGE at its address. -/
def Obligations.AccessCausesAndWaits : Prop :=
  (∀ (s : State) (g : Guard) (d a : Fin 32) (i : BitVec 9), s.enables g →
    let A := s.reg a + BitVec.ofInt 64 (i.toInt * 8)
    s.mayAccess A 8 → s.mayAccess (s.reg a) 8 →
    (∀ c, isDataCause c = false → s.translateAccess s.me .read true A 8 = .error c →
      exec (.ldB64 g d a i) s = .next (s.raiseTrap { cause := c, addr := s.firstFailing .read A 8 })) ∧
    (∀ c, isDataCause c = false → s.translateAccess s.me .write true A 8 = .error c →
      exec (.stB64 g d a i) s = .next (s.raiseTrap { cause := c, addr := s.firstFailing .write A 8 })) ∧
    (∀ ps bs t, s.translateAccess s.me .read true A 8 = .ok ps → s.farReads none ps = [] → s.readParts s.issuer ps = .ok (bs, t) →
      exec (.ldB64 g d a i) s = .next (t.wrote d (BitVec.ofNat 64 (leNat bs)))) ∧
    (∀ (k : Fin 16) (sc : Fin 8), (s.reg a).toNat % 8 ≠ 0 →
      exec (.atomAdd g k a sc 0 true) s = .next (s.raiseTrap { cause := .atomicMisaligned, addr := s.reg a }))) ∧
  (∀ (s : State) (g : Guard) (d a : Fin 32) (h : Fin 8) (w : Fin 4) (i : BitVec 4), s.enables g →
    let n : Nat := 2 ^ w.val
    let A := s.reg a + BitVec.ofInt 64 (i.toInt * n)
    let ch := s.core.chans[h]
    (A.toNat + n ≤ ch.dst.toNat ∨ (A.toNat + n ≤ ch.wp.toNat ∧ (ch.state = .idle ∨ ch.contig = true)) →
      s.loads (.ldWp g d a h w i) d A n (BitVec.ofNat 64)) ∧
    (∀ ps, s.translateAccess s.me .read true A n = .ok ps → ch.dst.toNat < A.toNat + n →
      (ch.state ≠ .idle → ch.contig = false ∨ ch.wp.toNat < A.toNat + n → exec (.ldWp g d a h w i) s = .next s) ∧
      (ch.state = .idle → ch.wp.toNat < A.toNat + n →
        exec (.ldWp g d a h w i) s = .next (s.raiseTrap { cause := .wpOutOfRange, addr := A }))))

/-! ## Vector integer instructions -/

/-- spec/10 R257 and Table 3: each element that the guard makes active is combined with the element of vb at the same
place, modulo the element width; shift counts are taken modulo it; `vmulh`, `vadds` and `vsubs` follow the signedness
of the type. Inactive elements and all else keep their values (R252). spec/10 R257: the same with the low bits of a
scalar register in place of every element of vb. -/
def Obligations.VectorIntegerResults : Prop :=
  (∀ (s : State) (g : Guard) (c : Bool) (d a b : Fin 64),
    let t := s.core.run.ty
    let w := s.core.run.tyBytes
    let x := s.el a
    let y := s.el b
    let val (v : BitVec (8 * w)) : Int := if 4 ≤ t then v.toInt else v.toNat
    let low : Int := if 4 ≤ t then -2 ^ (8 * w - 1) else 0
    let high : Int := if 4 ≤ t then 2 ^ (8 * w - 1) - 1 else 2 ^ (8 * w) - 1
    s.issues [d, a, b] w →
    (t < 14 →
      s.maps (.vand g c d a b) g d (fun r e => x r e &&& y r e) ∧
      s.maps (.vor g c d a b) g d (fun r e => x r e ||| y r e) ∧
      s.maps (.vxor g c d a b) g d (fun r e => x r e ^^^ y r e)) ∧
    (t < 8 →
      s.maps (.vadd g c d a b) g d (fun r e => x r e + y r e) ∧
      s.maps (.vsub g c d a b) g d (fun r e => x r e - y r e) ∧
      s.maps (.vsll g c d a b) g d (fun r e => x r e <<< ((y r e).toNat % (8 * w))) ∧
      s.maps (.vsrl g c d a b) g d (fun r e => x r e >>> ((y r e).toNat % (8 * w))) ∧
      s.maps (.vsra g c d a b) g d (fun r e => (x r e).sshiftRight ((y r e).toNat % (8 * w))) ∧
      s.maps (.vmul g c d a b) g d (fun r e => x r e * y r e) ∧
      s.maps (.vmulh g c d a b) g d (fun r e => BitVec.ofInt _ (val (x r e) * val (y r e) / 2 ^ (8 * w))) ∧
      s.maps (.vmin g c d a b) g d (fun r e => if (x r e).toInt ≤ (y r e).toInt then x r e else y r e) ∧
      s.maps (.vmax g c d a b) g d (fun r e => if (y r e).toInt ≤ (x r e).toInt then x r e else y r e) ∧
      s.maps (.vminu g c d a b) g d (fun r e => if (x r e).toNat ≤ (y r e).toNat then x r e else y r e) ∧
      s.maps (.vmaxu g c d a b) g d (fun r e => if (y r e).toNat ≤ (x r e).toNat then x r e else y r e) ∧
      s.maps (.vadds g c d a b) g d (fun r e => BitVec.ofInt _ (min high (max low (val (x r e) + val (y r e))))) ∧
      s.maps (.vsubs g c d a b) g d (fun r e => BitVec.ofInt _ (min high (max low (val (x r e) - val (y r e))))))) ∧
  (∀ (s : State) (g : Guard) (c : Bool) (d a : Fin 64) (b : Fin 32),
    let t := s.core.run.ty
    let w := s.core.run.tyBytes
    let x := s.el a
    let y : BitVec (8 * w) := (s.reg b).setWidth (8 * w)
    let val (v : BitVec (8 * w)) : Int := if 4 ≤ t then v.toInt else v.toNat
    let low : Int := if 4 ≤ t then -2 ^ (8 * w - 1) else 0
    let high : Int := if 4 ≤ t then 2 ^ (8 * w - 1) - 1 else 2 ^ (8 * w) - 1
    s.issues [d, a] w →
    (t < 14 →
      s.maps (.vandScalar g c d a b) g d (fun r e => x r e &&& y) ∧
      s.maps (.vorScalar g c d a b) g d (fun r e => x r e ||| y) ∧
      s.maps (.vxorScalar g c d a b) g d (fun r e => x r e ^^^ y)) ∧
    (t < 8 →
      s.maps (.vaddScalar g c d a b) g d (fun r e => x r e + y) ∧
      s.maps (.vsubScalar g c d a b) g d (fun r e => x r e - y) ∧
      s.maps (.vsllScalar g c d a b) g d (fun r e => x r e <<< (y.toNat % (8 * w))) ∧
      s.maps (.vsrlScalar g c d a b) g d (fun r e => x r e >>> (y.toNat % (8 * w))) ∧
      s.maps (.vsraScalar g c d a b) g d (fun r e => (x r e).sshiftRight (y.toNat % (8 * w))) ∧
      s.maps (.vmulScalar g c d a b) g d (fun r e => x r e * y) ∧
      s.maps (.vmulhScalar g c d a b) g d (fun r e => BitVec.ofInt _ (val (x r e) * val y / 2 ^ (8 * w))) ∧
      s.maps (.vminScalar g c d a b) g d (fun r e => if (x r e).toInt ≤ y.toInt then x r e else y) ∧
      s.maps (.vmaxScalar g c d a b) g d (fun r e => if y.toInt ≤ (x r e).toInt then x r e else y) ∧
      s.maps (.vminuScalar g c d a b) g d (fun r e => if (x r e).toNat ≤ y.toNat then x r e else y) ∧
      s.maps (.vmaxuScalar g c d a b) g d (fun r e => if y.toNat ≤ (x r e).toNat then x r e else y) ∧
      s.maps (.vaddsScalar g c d a b) g d (fun r e => BitVec.ofInt _ (min high (max low (val (x r e) + val y)))) ∧
      s.maps (.vsubsScalar g c d a b) g d (fun r e => BitVec.ofInt _ (min high (max low (val (x r e) - val y))))))

/-- spec/10 R258 and R260: a compare writes a mask with its result at each element it processes, and a second mask
with the complement; the mask instructions combine two masks bit by bit, up to VLMAX bits (spec/06 R159), and `vtom`
marks the nonzero elements. -/
def Obligations.VectorCompareAndMaskResults : Prop :=
  ∀ (s : State) (g : Guard) (c : Bool),
    let w := s.core.run.tyBytes
    (∀ (d : Fin 64) (a b : Fin 64), s.issues [a, b] w → s.core.run.ty < 8 →
      let x := s.el a
      let y := s.el b
      s.mapsMasks (.vcmpEq g c d a b) g d (fun r e => decide (x r e = y r e)) (fun _ _ => 0) ∧
      s.mapsMasks (.vcmpNe g c d a b) g d (fun r e => decide (x r e ≠ y r e)) (fun _ _ => 0) ∧
      s.mapsMasks (.vcmpLt g c d a b) g d (fun r e => decide ((x r e).toInt < (y r e).toInt)) (fun _ _ => 0) ∧
      s.mapsMasks (.vcmpLtu g c d a b) g d (fun r e => decide ((x r e).toNat < (y r e).toNat)) (fun _ _ => 0) ∧
      s.mapsMasks (.vcmpLe g c d a b) g d (fun r e => decide ((x r e).toInt ≤ (y r e).toInt)) (fun _ _ => 0) ∧
      s.mapsMasks (.vcmpLeu g c d a b) g d (fun r e => decide ((x r e).toNat ≤ (y r e).toNat)) (fun _ _ => 0)) ∧
    (∀ d a b : Fin 8, s.core.run.ecc = [] → s.unhindered →
      let one (k : Fin 8) : Fin 64 := ⟨k.val * 9, by omega⟩
      let x := s.core.run.maskBit a
      let y := s.core.run.maskBit b
      s.mapsMasks (.mand g c d a b) g (one d) (fun r e => x r e && y r e) (fun _ _ => 0) ∧
      s.mapsMasks (.mor g c d a b) g (one d) (fun r e => x r e || y r e) (fun _ _ => 0) ∧
      s.mapsMasks (.mxor g c d a b) g (one d) (fun r e => x r e ^^ y r e) (fun _ _ => 0) ∧
      s.mapsMasks (.mandn g c d a b) g (one d) (fun r e => x r e && !y r e) (fun _ _ => 0)) ∧
    (∀ (d : Fin 8) (a : Fin 64), s.issues [a] w → s.core.run.ty < 14 →
      s.mapsMasks (.vtom g c d a) g ⟨d.val * 9, by omega⟩ (fun r e => decide (s.el a r e ≠ 0)) (fun _ _ => 0))

/-- spec/10 R259 to R261: moves, and the cross-element instructions, which move elements within a row and ignore
VSTART; `viota` numbers each element by the active elements before it in its row. spec/10 R260 and R261: `mpop` counts
the active elements of the tile whose mask bit is 1, `mfirst` gives the sweep index of the first of them, or all ones,
and `vext` gives one element, extended as its type says, or 0 beyond the tile. -/
def Obligations.VectorMoveAndPermuteResults : Prop :=
  (∀ (s : State) (g : Guard) (c : Bool) (d a b : Fin 64) (k : Fin 32),
    let w := s.core.run.tyBytes
    let act (r e : Nat) : Prop := s.core.run.active g r e = true
    let before (r e : Nat) : Nat := (List.range e).countP (s.core.run.active g r)
    let el (v : Fin 64) (r e : Nat) : Nat × Flags := if e < s.core.run.vl.toNat then ((s.el v r e).toNat, 0) else (0, 0)
    s.issues [d, a, b] w → s.core.run.ty < 14 →
    s.maps (.vbcast g c d k) g d (fun _ _ => (s.reg k).setWidth _) ∧
    s.maps (.vmv g c d a) g d (s.el a) ∧
    s.mapsAt (.vmerge g c d a b) d w (fun r e => s.core.run.notBefore (r, e) = true)
      (fun r e => if s.core.run.active g r e then el a r e else el b r e) ∧
    s.mapsAt (.vslideup g c d a k) d w (fun r e => act r e ∧ (s.reg k).toNat ≤ e)
      (fun r e => el a r (e - (s.reg k).toNat)) ∧
    s.mapsAt (.vslidedn g c d a k) d w act (fun r e => el a r (e + (s.reg k).toNat)) ∧
    s.mapsAt (.vperm g c d a b) d w act (fun r e => el a r (s.el b r e).toNat) ∧
    s.mapsAt (.vcompress g c d a) d w (fun r e => e < before r s.core.run.vl.toNat)
      (fun r e => el a r (((List.range s.core.run.vl.toNat).filter (s.core.run.active g r)).getD e 0)) ∧
    (s.core.run.ty < 8 → s.mapsAt (.viota g c d) d w (fun _ _ => True) (fun r e => (before r e, 0))) ∧
    (∀ m : Fin 8, s.maps (.mtov g c d m) g d (fun r e => if s.core.run.maskBit m r e then 1 else 0))) ∧
  (∀ (s : State) (g : Guard) (c : Bool) (d : Fin 32),
    (∀ m : Fin 8, s.core.run.ecc = [] → s.unhindered →
      let tile := (List.range s.core.run.rc.toNat).flatMap (fun r => (List.range s.core.run.vl.toNat).map (fun e => (r, e)))
      let hit (p : Nat × Nat) : Bool := decide (s.core.run.maskPos p.1 p.2 < s.core.run.vlmax s.core.lanes) &&
        s.core.run.active g p.1 p.2 && s.core.run.maskBit m p.1 p.2
      s.yields (.mpop g c d m) d (BitVec.ofNat 64 (tile.countP hit)) ∧
      ((∀ p ∈ tile, hit p = false) → s.yields (.mfirst g c d m) d (BitVec.allOnes 64)) ∧
      (∀ r e, s.inTile r e → hit (r, e) = true →
        (∀ r' e', s.inTile r' e' → hit (r', e') = true → r < r' ∨ (r = r' ∧ e ≤ e')) →
        s.yields (.mfirst g c d m) d (BitVec.ofNat 64 (r * s.core.run.vl.toNat + e)))) ∧
    (∀ (a : Fin 64) (k : Fin 32), s.issues [a] s.core.run.tyBytes → s.core.run.ty < 14 →
      let r := (s.reg k).toNat / 2 ^ 16 % 2 ^ 8
      let e := (s.reg k).toNat % 2 ^ 14
      s.yields (.vext c d a k) d
        (if r < s.core.run.rc.toNat ∧ e < s.core.run.vl.toNat then
          (if 4 ≤ s.core.run.ty ∧ s.core.run.ty < 8 then (s.el a r e).signExtend 64 else (s.el a r e).setWidth 64)
        else 0)))

/-- spec/06 R160, R161 and spec/10 R251: the checks at issue, in their order; the first that fails names the cause,
and the instruction changes no register. spec/12 R304: the matrix checks come after those at issue: a type or a size
that does not fit the grant traps with MATRIX_SHAPE, and a scratchpad operand outside the own window, or misaligned,
with MATRIX_OPERAND; a grant with a zero changes nothing but the program counter. -/
def Obligations.IssueAndMatrixChecks : Prop :=
  (∀ (s : State) (g : Guard) (c : Bool) (d a b : Fin 64),
    let k := s.core.run
    let cause : Option Cause :=
      if s.core.lanes = 0 then some .laneRetired
      else if k.nregs ≤ max d.val (max a.val b.val) then some .vregUnconfigured
      else if k.wb < k.tyBytes then some .vectorWidth
      else if k.vl.toNat ≠ 0 ∧ k.rc.toNat ≠ 0 ∧
          (k.vlmax s.core.lanes < k.vl.toNat ∨ k.rgroups s.core.lanes < k.rc.toNat * k.gpr) then some .vectorShape
      else if 8 ≤ k.ty then some .vectorType
      else none
    ∀ x, cause = some x → exec (.vadd g c d a b) s = .next (s.raise x)) ∧
  (∀ (s : State) (g : Guard) (c : Bool) (e : Fin 4) (a b : Fin 64) (k : Fin 32) (t : Fin 16),
    let x := s.core.run
    let w := if t = 8 ∨ t = 9 then 2 else 1
    let fits : Prop := t.val = x.mType ∧ x.mN ≤ 8 * s.core.lanes ∧ x.mM ≤ x.rgroups s.core.lanes
    (x.mM = 0 ∨ x.mN = 0 ∨ x.mK = 0 → s.issues [a, b] w →
      exec (.mmk g c e a b t) s = .next (s.withRun x.finishV) ∧ exec (.mmga g c e a b t) s = .next (s.withRun x.finishV)) ∧
    (0 < x.mM → 0 < x.mN → 0 < x.mK →
      (s.issues [a, b] w → ¬ (fits ∧ x.mN ≤ x.rgroups s.core.lanes) →
        exec (.mmk g c e a b t) s = .next (s.raise .matrixShape)) ∧
      (s.issues [a] w → fits → (s.reg k).toNat < 2 ^ 64 - 2 ^ 18 ∨ (s.reg k).toNat % 128 ≠ 0 →
        exec (.mmkScratchpad g c e a k t) s = .next (s.raiseTrap { cause := .matrixOperand, addr := s.reg k }))))

/-! ## Vector floating point, conversion and microscaling -/

/-- spec/10 R262 and spec/07 R189: in the type of VTYPE each active element is the operation's result, rounded once by
FRM (mode 4 as mode 0), and FFLAGS takes the flags of all of them; `vfma` adds the product to the element of vd.
spec/10 R263 to R265: the compares write masks; the sign operations take va with the sign of vb, its complement, or
both signs' difference, and set no flag; `vfkind` and the four special functions of FP32 write their results. -/
def Obligations.VectorFloatResults : Prop :=
  (∀ (s : State) (g : Guard) (c : Bool) (d a b : Fin 64) (k : Fin 32),
    let w := s.core.run.tyBytes
    let f := typeFmt s.core.run.ty
    let rm := (Rm.ofFrm s.core.run.frm.toNat).arith
    let x (r e : Nat) : Nat := s.core.run.elem a w r e
    let y (r e : Nat) : Nat := s.core.run.elem b w r e
    let z (r e : Nat) : Nat := s.core.run.elem d w r e
    let n : Nat := (s.reg k).toNat % 2 ^ (8 * w)
    s.issues [d, a, b] w → 8 ≤ s.core.run.ty → s.core.run.ty < 12 → (s.sys.reduced = true → s.core.run.ty = 10) →
    s.mapsAt (.vfadd g c d a b) d w (s.does g) (fun r e => f.add rm (x r e) (y r e)) ∧
    s.mapsAt (.vfsub g c d a b) d w (s.does g) (fun r e => f.sub rm (x r e) (y r e)) ∧
    s.mapsAt (.vfmul g c d a b) d w (s.does g) (fun r e => f.mul rm (x r e) (y r e)) ∧
    s.mapsAt (.vfdiv g c d a b) d w (s.does g) (fun r e => f.div rm (x r e) (y r e)) ∧
    s.mapsAt (.vfmin g c d a b) d w (s.does g) (fun r e => f.minmax false (x r e) (y r e)) ∧
    s.mapsAt (.vfmax g c d a b) d w (s.does g) (fun r e => f.minmax true (x r e) (y r e)) ∧
    s.mapsAt (.vfma g c d a b) d w (s.does g) (fun r e => f.fma rm (x r e) (y r e) (z r e)) ∧
    s.mapsAt (.vfsqrt g c d a) d w (s.does g) (fun r e => f.sqrt rm (x r e)) ∧
    s.mapsAt (.vfaddScalar g c d a k) d w (s.does g) (fun r e => f.add rm (x r e) n) ∧
    s.mapsAt (.vfsubScalar g c d a k) d w (s.does g) (fun r e => f.sub rm (x r e) n) ∧
    s.mapsAt (.vfmulScalar g c d a k) d w (s.does g) (fun r e => f.mul rm (x r e) n) ∧
    s.mapsAt (.vfdivScalar g c d a k) d w (s.does g) (fun r e => f.div rm (x r e) n) ∧
    s.mapsAt (.vfminScalar g c d a k) d w (s.does g) (fun r e => f.minmax false (x r e) n) ∧
    s.mapsAt (.vfmaxScalar g c d a k) d w (s.does g) (fun r e => f.minmax true (x r e) n) ∧
    s.mapsAt (.vfmaScalar g c d a k) d w (s.does g) (fun r e => f.fma rm (x r e) n (z r e))) ∧
  (∀ (s : State) (g : Guard) (c : Bool) (d a b : Fin 64),
    let w := s.core.run.tyBytes
    let f := typeFmt s.core.run.ty
    let x (r e : Nat) : Nat := s.core.run.elem a w r e
    let y (r e : Nat) : Nat := s.core.run.elem b w r e
    let top := 8 * w - 1
    let signed (v : Nat) (neg : Bool) : Nat × Flags := (v % 2 ^ top + (if neg then 2 ^ top else 0), 0)
    s.issues [d, a, b] w → 8 ≤ s.core.run.ty → s.core.run.ty < 12 → (s.sys.reduced = true → s.core.run.ty = 10) →
    (∀ m : Fin 64,
      s.mapsMasks (.vfcmpEq g c m a b) g m (fun r e => (f.compare 0 (x r e) (y r e)).1) (fun r e => (f.compare 0 (x r e) (y r e)).2) ∧
      s.mapsMasks (.vfcmpLt g c m a b) g m (fun r e => (f.compare 1 (x r e) (y r e)).1) (fun r e => (f.compare 1 (x r e) (y r e)).2) ∧
      s.mapsMasks (.vfcmpLe g c m a b) g m (fun r e => (f.compare 2 (x r e) (y r e)).1) (fun r e => (f.compare 2 (x r e) (y r e)).2)) ∧
    s.mapsAt (.vfsgcopy g c d a b) d w (s.does g) (fun r e => signed (x r e) ((y r e).testBit top)) ∧
    s.mapsAt (.vfsgflip g c d a b) d w (s.does g) (fun r e => signed (x r e) (!(y r e).testBit top)) ∧
    s.mapsAt (.vfsgmix g c d a b) d w (s.does g) (fun r e => signed (x r e) ((x r e).testBit top ^^ (y r e).testBit top)) ∧
    s.mapsAt (.vfkind g c d a) d w (s.does g) (fun r e => (f.kindWord (x r e), 0)) ∧
    (s.core.run.ty = 10 →
      s.mapsAt (.vexp2 g c d a) d w (s.does g) (fun r e => sfExp2 (x r e)) ∧
      s.mapsAt (.vlog2 g c d a) d w (s.does g) (fun r e => sfLog2 (x r e)) ∧
      s.mapsAt (.vrsqrt g c d a) d w (s.does g) (fun r e => sfRsqrt (x r e)) ∧
      s.mapsAt (.vrcp g c d a) d w (s.does g) (fun r e => sfRcp (x r e))))

/-- spec/10 R266: `vcvt` between types of one width, `vcvt.w` to a wider and `vcvt.n` to a narrower one; of two
integer types a value out of range becomes the nearest in range and sets SAT, and floating values are rounded by FRM.
spec/10 R269 and spec/07 R193, R194: `vdequant` writes each active element's value under its block's scale: a
canonical NaN where X is 0xFF, and else the value, rounded to FP16 by FRM with its flags, exact and without a flag in
FP32 and BF16. FRM = 4 and a value beyond the range of FP32 or BF16 follow the model's choice (log 89). -/
def Obligations.VectorConversionResults : Prop :=
  (∀ (s : State) (g : Guard) (c : Bool) (d a : Fin 64) (t : Fin 16),
    let k := s.core.run.ty
    let ws := s.core.run.tyBytes
    let wd := typeBytes t.val
    let rm := Rm.ofFrm s.core.run.frm.toNat
    let int (u w v : Nat) : Int := if 4 ≤ u ∧ u < 8 then (BitVec.ofNat (8 * w) v).toInt else v
    let low : Int := if 4 ≤ t.val then -2 ^ (8 * wd - 1) else 0
    let high : Int := if 4 ≤ t.val then 2 ^ (8 * wd - 1) - 1 else 2 ^ (8 * wd) - 1
    let conv (v : Nat) : Nat × Flags :=
      if k < 8 ∧ t.val < 8 then
        if ws < wd then ((BitVec.ofInt (8 * wd) (int k ws v)).toNat, 0)
        else
          ((BitVec.ofInt (8 * wd) (min high (max low (int k ws v)))).toNat,
            if low ≤ int k ws v ∧ int k ws v ≤ high then 0 else Flags.sat)
      else if k < 8 then (typeFmt t.val).ofInt rm (int k ws v)
      else if t.val < 8 then (typeFmt k).toInt rm (8 * wd) (decide (4 ≤ t.val)) v
      else (typeFmt k).toFmt (typeFmt t.val) rm v
    s.issues [d, a] (max ws wd) → k < 14 → t.val < 14 → t.val ≠ k →
    (s.sys.reduced = true → (k < 8 ∨ k = 10) ∧ (t.val < 8 ∨ t.val = 10)) →
    (wd = ws → s.mapsAt (.vcvt g c d a t) d wd (s.does g) (fun r e => conv (s.core.run.elem a ws r e))) ∧
    (ws < wd → d ≠ a → s.mapsAt (.vcvtW g c d a t) d wd (s.does g) (fun r e => conv (s.core.run.elem a ws r e))) ∧
    (wd < ws → d ≠ a → s.mapsAt (.vcvtN g c d a t) d wd (s.does g) (fun r e => conv (s.core.run.elem a ws r e)))) ∧
  (∀ (s : State) (g : Guard) (c mx4 : Bool) (d a : Fin 64) (b : Fin 32),
    let vb : Fin 64 := b.castLE (by decide)
    let w := s.core.run.tyBytes
    let f := typeFmt s.core.run.ty
    let rm := Rm.ofFrm s.core.run.frm.toNat
    s.issues [d, a, vb] w → d ≠ a → d ≠ vb → 8 ≤ s.core.run.ty → s.core.run.ty < 11 → s.sys.reduced = false →
    s.mapsAt (.vdequant g c d a mx4 b) d w (s.does g) (fun r e =>
      dequantElem mx4 s.core.run.ty rm (s.core.run.elem vb 1 r (e / 32)) (s.core.run.code mx4 a r e)) ∧
    (∀ X code : Nat, X < 256 → code < (if mx4 then 16 else 256) →
      let int : Int := if mx4 then 0 else (BitVec.ofNat 8 code).toInt
      let half : Nat := [0, 1, 2, 3, 4, 6, 8, 12].getD (code % 8) 0
      let r := if mx4 then f.round rm (code.testBit 3) half ((X : Int) - 128) false
        else f.round rm (decide (int < 0)) int.natAbs ((X : Int) - 133) false
      (X = 255 → dequantElem mx4 s.core.run.ty rm X code = (f.nan, 0)) ∧
      (X < 255 → dequantElem mx4 s.core.run.ty rm X code = (r.1, if s.core.run.ty = 8 then r.2 else 0))))

/-- spec/07 R196 and R195: a finite value v quantised under scale X takes the code nearest v × 2^(127 − X), ties to
even: for MXINT8 in units of 1/64, at most ±127; for MXFP4 the nearest E2M1 value, at most ±6. SAT is set where the
nearest lies beyond. A NaN takes 0 with IV, an infinity the largest code of its sign with SAT and IV, and X = 0xFF
gives 0 with IV. spec/10 R268 and R267: `vquant.s` takes the scale of block j of row r from byte j of row r of vb, and
`vquant.pg` from byte j of row 0; each active element's code goes to vd, and g6 says whether an element overflowed,
was a NaN or infinite. vb and every other register keep their values. spec/10 R267 and spec/07 R195: `vquant` computes
the scale of each block that has an active element: 0xFF where one is a NaN or infinite (codes 0, IV, g6), 0 where all
are zero, else floor(log2 amax) − emax + 127 within 0 to 254, under which the codes are the nearest, without SAT. The
scale of block j of row r goes to byte j of row r of vb. -/
def Obligations.QuantiseResults : Prop :=
  (∀ (f : Fmt) (X x : Nat), f ∈ [Fmt.f16, Fmt.bf16, Fmt.f32] → x < 2 ^ f.width → X ≤ 255 →
    (X = 255 → ∀ mx4, quantElem mx4 f X x = (0, Flags.iv)) ∧
    (X < 255 → ∀ neg m e, f.decode x = .fin neg m e →
      let q : ℚ := m * 2 ^ e * 2 ^ (127 - (X : ℤ))
      (∃ n : ℕ, |q * 64 - n| ≤ 1 / 2 ∧ (|q * 64 - n| = 1 / 2 → n % 2 = 0) ∧
        quantElem false f X x =
          ((BitVec.ofInt 8 (if neg then -(min n 127 : ℕ) else (min n 127 : ℕ))).toNat, if 127 < n then Flags.sat else 0)) ∧
      quantElem true f X x =
        ((if neg then 8 else 0) +
          (if q ≤ 1 / 4 then 0 else if q < 3 / 4 then 1 else if q ≤ 5 / 4 then 2 else if q < 7 / 4 then 3
            else if q ≤ 5 / 2 then 4 else if q < 7 / 2 then 5 else if q ≤ 5 then 6 else 7),
          if 7 ≤ q then Flags.sat else 0)) ∧
    (X < 255 → ∀ mx4, (f.decode x).isNan = true → quantElem mx4 f X x = (0, Flags.iv)) ∧
    (X < 255 → ∀ neg, f.decode x = .inf neg →
      quantElem false f X x = (if neg then 129 else 127, Flags.sat ||| Flags.iv) ∧
      quantElem true f X x = (if neg then 15 else 7, Flags.sat ||| Flags.iv))) ∧
  (∀ (s : State) (g : Guard) (c mx4 : Bool) (d a : Fin 64) (b : Fin 32),
    let vb : Fin 64 := b.castLE (by decide)
    let w := s.core.run.tyBytes
    let f := typeFmt s.core.run.ty
    let q (row : Nat → Nat) (r e : Nat) : Nat × Flags :=
      quantElem mx4 f (s.core.run.elem vb 1 (row r) (e / 32)) (s.core.run.elem a w r e)
    let overflow (row : Nat → Nat) : Prop :=
      (∃ r e, s.inTile r e ∧ s.does g r e ∧ (q row r e).2 ≠ 0) ∨
        (s.core.run.vs ≠ ⟨0, 0⟩ ∧ s.guard 6 = true)
    let rest (v : Vector VReg 64) : Prop := ∀ x : Fin 64, x ≠ d → v[x] = s.core.run.v[x]
    s.issues [d, a, vb] w → d ≠ a → d ≠ vb → 8 ≤ s.core.run.ty → s.core.run.ty < 11 → s.sys.reduced = false →
    s.encodes (.vquantS g c d a mx4 b) g mx4 d (q id) (overflow id) rest ∧
    s.encodes (.vquantPg g c d a mx4 b) g mx4 d (q (fun _ => 0)) (overflow (fun _ => 0)) rest) ∧
  (∀ (s : State) (g : Guard) (c mx4 : Bool) (d a : Fin 64) (b : Fin 32),
    let vb : Fin 64 := b.castLE (by decide)
    let w := s.core.run.tyBytes
    let f := typeFmt s.core.run.ty
    let x (r e : Nat) : Nat := s.core.run.elem a w r e
    let inBlock (r j e : Nat) : Prop := s.inTile r e ∧ s.core.run.active g r e = true ∧ e / 32 = j
    let bad (r j : Nat) : Prop := ∃ e, inBlock r j e ∧ f.rat (x r e) = none
    let emax : Int := if mx4 then 2 else 0
    s.issues [d, a, vb] w → d ≠ a → d ≠ vb → 8 ≤ s.core.run.ty → s.core.run.ty < 11 → s.sys.reduced = false →
    s.core.run.vs = ⟨0, 0⟩ →
    ∃ (X : Nat → Nat → Nat) (zero : Nat → Nat → Bool),
      (∀ r j, (zero r j = true ↔ ∀ e, inBlock r j e → f.rat (x r e) = some 0) ∧ (bad r j → X r j = 255) ∧
        (¬ bad r j → zero r j = true → X r j = 0) ∧
        (¬ bad r j → zero r j = false → ∀ (e : Nat) (q : ℚ) (l : ℤ), inBlock r j e → f.rat (x r e) = some q →
          (∀ e' q', inBlock r j e' → f.rat (x r e') = some q' → |q'| ≤ |q|) → 2 ^ l ≤ |q| → |q| < 2 ^ (l + 1) →
          X r j = (max 0 (min 254 (l - emax + 127))).toNat)) ∧
      s.encodes (.vquant g c d a mx4 b) g mx4 d
        (fun r e => if X r (e / 32) = 255 then (0, Flags.iv)
          else if zero r (e / 32) then (0, 0)
          else ((quantElem mx4 f (X r (e / 32)) (x r e)).1, 0))
        (∃ r j, bad r j)
        (fun v => (∀ y : Fin 64, y ≠ d → y ≠ vb → v[y] = s.core.run.v[y]) ∧
          (∀ r e, s.inTile r e →
            ((∃ e', inBlock r (e / 32) e') → VReg.get v[vb] (s.core.run.rowByte r + e / 32) 1 = X r (e / 32))) ∧
          ∀ o, (∀ r j e, inBlock r j e → s.core.run.rowByte r + j ≠ o) →
            VReg.get v[vb] o 1 = VReg.get s.core.run.v[vb] o 1))

/-! ## Reductions and scans -/

/-- spec/10 R270: element 0 of each row receives the combination of the row's active elements, the identity where none
is active, and no other element changes; reduced service leaves FP32 alone (spec/18 R413). Integer sums wrap, so the
order of the tree does not show; the floating-point ones follow the tree of spec/07 R200. spec/10 R272: a segment
begins at element 0 and at every element whose bit in mask mb is 1; the segmented reductions write the result of
segment k to element k, and leave the elements from the segment count on. spec/10 R271 and R272: the scans leave in
each active element the running sum or maximum up to it, which starts from the identity, or from VCARRY in the row at
which VSTART resumes; `vsscan` starts again at every segment. VCARRY becomes 0. -/
def Obligations.ReductionAndScanResults : Prop :=
  (∀ (s : State) (g : Guard) (c : Bool) (d a : Fin 64),
    let w := s.core.run.tyBytes
    let t := s.core.run.ty
    let n := s.core.run.vl.toNat
    let row (r : Nat) : List (BitVec (8 * w)) := ((List.range n).filter (s.core.run.active g r)).map (s.el a r)
    let first (_ e : Nat) : Prop := e = 0
    let fold (op : BitVec (8 * w) → BitVec (8 * w) → BitVec (8 * w)) (z : BitVec (8 * w)) (r _e : Nat) : Nat × Flags :=
      (((row r).foldr op z).toNat, 0)
    let tree (o : RedOp) (r _e : Nat) : Nat × Flags := s.core.run.reduceFrom o g a r 0 n
    s.issues [d, a] w →
    (s.sys.reduced = false → t < 8 →
      s.mapsAt (.vredsum g c d a) d w first (fold (· + ·) 0) ∧
      s.mapsAt (.vredand g c d a) d w first (fold (· &&& ·) (BitVec.allOnes _)) ∧
      s.mapsAt (.vredor g c d a) d w first (fold (· ||| ·) 0) ∧
      s.mapsAt (.vredxor g c d a) d w first (fold (· ^^^ ·) 0)) ∧
    (s.sys.reduced = false → t < 4 →
      s.mapsAt (.vredmin g c d a) d w first (fold (fun x y => if x.toNat ≤ y.toNat then x else y) (BitVec.allOnes _)) ∧
      s.mapsAt (.vredmax g c d a) d w first (fold (fun x y => if y.toNat ≤ x.toNat then x else y) 0)) ∧
    (s.sys.reduced = false → 4 ≤ t → t < 8 →
      s.mapsAt (.vredmin g c d a) d w first (fold (fun x y => if x.toInt ≤ y.toInt then x else y) (BitVec.intMax _)) ∧
      s.mapsAt (.vredmax g c d a) d w first (fold (fun x y => if y.toInt ≤ x.toInt then x else y) (BitVec.intMin _))) ∧
    (8 ≤ t → t < 12 → (s.sys.reduced = true → t = 10) →
      s.mapsAt (.vredsum g c d a) d w first (tree .sum) ∧
      s.mapsAt (.vredmin g c d a) d w first (tree .min) ∧
      s.mapsAt (.vredmax g c d a) d w first (tree .max))) ∧
  (∀ (s : State) (g : Guard) (c : Bool) (d a : Fin 64) (m : Fin 8),
    let w := s.core.run.tyBytes
    let t := s.core.run.ty
    let n := s.core.run.vl.toNat
    let start (r e : Nat) : Bool := e == 0 || s.core.run.maskBit m r e
    let segments (r : Nat) : Nat := (List.range n).countP (start r)
    let inSeg (r k e : Nat) : Bool := decide ((List.range (e + 1)).countP (start r) = k + 1)
    let row (r k : Nat) : List (BitVec (8 * w)) :=
      ((List.range n).filter (fun e => inSeg r k e && s.core.run.active g r e)).map (s.el a r)
    let fold (op : BitVec (8 * w) → BitVec (8 * w) → BitVec (8 * w)) (z : BitVec (8 * w)) (r k : Nat) : Nat × Flags :=
      (((row r k).foldr op z).toNat, 0)
    let tree (o : RedOp) (r k : Nat) : Nat × Flags :=
      let es := (List.range n).filter (inSeg r k)
      s.core.run.reduceFrom o g a r (es.headD 0) es.length
    let counted (r k : Nat) : Prop := k < segments r
    s.issues [d, a] w → d ≠ a →
    (s.sys.reduced = false → t < 8 → s.mapsAt (.vsredsum g c d a m) d w counted (fold (· + ·) 0)) ∧
    (s.sys.reduced = false → t < 4 →
      s.mapsAt (.vsredmin g c d a m) d w counted (fold (fun x y => if x.toNat ≤ y.toNat then x else y) (BitVec.allOnes _)) ∧
      s.mapsAt (.vsredmax g c d a m) d w counted (fold (fun x y => if y.toNat ≤ x.toNat then x else y) 0)) ∧
    (s.sys.reduced = false → 4 ≤ t → t < 8 →
      s.mapsAt (.vsredmin g c d a m) d w counted (fold (fun x y => if x.toInt ≤ y.toInt then x else y) (BitVec.intMax _)) ∧
      s.mapsAt (.vsredmax g c d a m) d w counted (fold (fun x y => if y.toInt ≤ x.toInt then x else y) (BitVec.intMin _))) ∧
    (8 ≤ t → t < 12 → (s.sys.reduced = true → t = 10) →
      s.mapsAt (.vsredsum g c d a m) d w counted (tree .sum) ∧
      s.mapsAt (.vsredmin g c d a m) d w counted (tree .min) ∧
      s.mapsAt (.vsredmax g c d a m) d w counted (tree .max))) ∧
  (∀ (s : State) (g : Guard) (c : Bool) (d a : Fin 64) (m : Fin 8),
    let w := s.core.run.tyBytes
    let t := s.core.run.ty
    let f := typeFmt t
    let rm := (Rm.ofFrm s.core.run.frm.toNat).arith
    let x (r e : Nat) : Nat := s.core.run.elem a w r e
    let add (p q : Nat) : Nat × Flags := if t < 8 then ((p + q) % 2 ^ (8 * w), 0) else f.add rm p q
    let int (p : Nat) : Int := if 4 ≤ t then (BitVec.ofNat (8 * w) p).toInt else p
    let larger (p q : Nat) : Nat × Flags := if t < 8 then (if int p < int q then q else p, 0) else f.minmax true p q
    let vs := s.core.run.vs
    let resumed (r : Nat) : Prop := vs ≠ ⟨0, 0⟩ ∧ r = vs.row.toNat
    let begins (z r : Nat) : Nat := if resumed r then s.core.run.vcarry.toNat % 2 ^ (8 * w) else z
    let before (r lo e : Nat) : List Nat := (List.range e).filter (fun k => decide (lo ≤ k) && s.core.run.active g r k && s.core.run.notBefore (r, k))
    let scan (op : Nat → Nat → Nat × Flags) (z r lo e : Nat) : Nat × Flags :=
      op ((before r lo e).foldl (fun p k => (op p (x r k)).1) z) (x r e)
    let none0 : Nat := if t < 8 then 0 else f.sign true
    let least : Nat := if t < 4 then 0 else if t < 8 then 2 ^ (8 * w - 1) else f.sign true + f.infinity
    let begun (r e : Nat) : Option Nat :=
      ((List.range (e + 1)).filter (fun k => (k == 0 || s.core.run.maskBit m r k) && s.core.run.notBefore (r, k))).getLast?
    let k := { s.core.run.finishV with vcarry := 0 }
    s.issues [d, a] w → t < 12 → (s.sys.reduced = true → t < 8 ∨ t = 10) →
    s.mapsInto (.vscan g c d a) k d w (s.does g) (fun r e => scan add (begins none0 r) r 0 e) ∧
    s.mapsInto (.vscanmax g c d a) k d w (s.does g) (fun r e => scan larger (begins least r) r 0 e) ∧
    s.mapsInto (.vsscan g c d a m) k d w (s.does g) (fun r e => match begun r e with
      | some lo => scan add none0 r lo e
      | none => scan add (begins none0 r) r 0 e))

/-! ## Vector loads, stores, atomics and waits -/

/-- spec/11 R281 to R283 and Table 3: each form's addresses, and what a load writes: the active elements from VSTART
on, from their places; no other element, no memory and no flag changes. An acquire at `.clus` or wider leaves only
dirty and registered words in the core's L1 (spec/04 R116). A `.wp` load reads at once what its channel has passed.
spec/11 R281, R282 and R284: outside a strip a store writes the active elements from VSTART on at the addresses of its
form, in sweep order, and no other byte of memory. A release comes after every store of the coroutine, and is
performed at the homes at `.clus` or wider, which is the model's reading of spec/04 R104 and R114 (log 36). -/
def Obligations.VectorLoadAndStoreResults : Prop :=
  (∀ (s : State) (g : Guard) (c : Bool) (d : Fin 64) (a : Fin 32) (sc : Fin 8) (o : Fin 4) (b : Fin 64),
    let k := s.core.run
    let w := k.tyBytes
    let base := s.reg a
    let packed (r e : Nat) : Option Word := some (base + BitVec.ofNat 64 ((r * k.vl.toNat + e) * w))
    let strided (r e : Nat) : Option Word := some (base + BitVec.ofNat 64 r * k.rstride + BitVec.ofNat 64 e * k.vstride)
    let tiled (r e : Nat) : Option Word := some (base + BitVec.ofNat 64 r * k.rstride + BitVec.ofNat 64 (e * w))
    let indexed (r e : Nat) : Option Word := some (base + BitVec.ofNat 64 r * k.rstride + BitVec.ofNat 64 (k.elem b 4 r e))
    let word (i : Nat) : Nat := VReg.get k.v[b] (8 * i) 8
    let shape (r e : Nat) : Option Word :=
      if e < word 1 ∧ r < word 2 * word 3 then
        some (BitVec.ofNat 64 (word 0 + e * word 4 + r % word 2 * word 5 + r / word 2 * word 6))
      else none
    let same := if o.val % 2 = 1 ∧ 2 ≤ sc.val then s.acquires else s.readsAs
    k.ty < 15 → k.heldBytes = [] →
    (s.issues [d] w →
      (s.gathers same (.vld g c d a sc o) g d packed ∧
        s.gathers same (.vlds g c d a sc o) g d strided ∧
        s.gathers same (.vldt g c d a sc o) g d tiled) ∧
      (∀ h : Fin 8, (∀ p ∈ s.enumerated g packed, ∀ A, packed p.1 p.2 = some A →
          A.toNat + w ≤ s.core.chans[h].dst.toNat ∨ (A.toNat + w ≤ s.core.chans[h].wp.toNat ∧
            (s.core.chans[h].state = .idle ∨ s.core.chans[h].contig = true))) →
        s.gathers s.readsAs (.vldWp g c d a h) g d packed)) ∧
    (s.issues [d, b] (max w 4) → s.gathers s.readsAs (.vldx g c d a b) g d indexed) ∧
    (s.issues [d, b] w → word 7 = 0 → word 1 ≤ 2 ^ 32 → word 2 ≤ 2 ^ 32 → word 3 ≤ 2 ^ 32 →
      s.gathers s.readsAs (.vldn g c d b) g d shape)) ∧
  (∀ (s : State) (g : Guard) (c : Bool) (d : Fin 64) (a : Fin 32) (sc : Fin 8) (o : Fin 4) (b : Fin 64),
    let k := s.core.run
    let w := k.tyBytes
    let base := s.reg a
    let packed (r e : Nat) : Option Word := some (base + BitVec.ofNat 64 ((r * k.vl.toNat + e) * w))
    let strided (r e : Nat) : Option Word := some (base + BitVec.ofNat 64 r * k.rstride + BitVec.ofNat 64 e * k.vstride)
    let tiled (r e : Nat) : Option Word := some (base + BitVec.ofNat 64 r * k.rstride + BitVec.ofNat 64 (e * w))
    let indexed (r e : Nat) : Option Word := some (base + BitVec.ofNat 64 r * k.rstride + BitVec.ofNat 64 (k.elem b 4 r e))
    let word (i : Nat) : Nat := VReg.get k.v[b] (8 * i) 8
    let shape (r e : Nat) : Option Word :=
      if e < word 1 ∧ r < word 2 * word 3 then
        some (BitVec.ofNat 64 (word 0 + e * word 4 + r % word 2 * word 5 + r / word 2 * word 6))
      else none
    k.ty < 15 → k.strip = none →
    (s.issues [d] w →
      (o.val < 2 ∨ (sc.val < 2 ∧ s.posted = false) →
        s.scatters (.vst g c d a sc o) g d packed ∧
        s.scatters (.vsts g c d a sc o) g d strided ∧
        s.scatters (.vstt g c d a sc o) g d tiled) ∧
      (2 ≤ o.val → 2 ≤ sc.val →
        s.spreads (.vst g c d a sc o) g d packed ∧
        s.spreads (.vsts g c d a sc o) g d strided ∧
        s.spreads (.vstt g c d a sc o) g d tiled) ∧
      (2 ≤ o.val → s.posted = true → ∀ place, s.vreaches (s.attains .write false) g packed place →
        exec (.vst g c d a sc o) s = .next s)) ∧
    (s.issues [d, b] (max w 4) → s.scatters (.vstx g c d a b) g d indexed) ∧
    (s.issues [d, b] w → word 7 = 0 → word 1 ≤ 2 ^ 32 → word 2 ≤ 2 ^ 32 → word 3 ≤ 2 ^ 32 →
      s.scatters (.vstn g c d b) g d shape))

/-- spec/11 R283 and R284: where an element's translation fails, a load of any form whose first enumerated element it
is traps at that element, and one with earlier elements trims the tile to what precedes it: VL to the element in the
first element's row, else RC to its row. A store with such an element, one that fails W or D alone included, traps,
and stores nothing. VSTART holds the element (spec/15 R361); ADDR is the first byte of the part that fails, which is
the model's reading (log 64). -/
def Obligations.FaultsTrimLoadsAndStopStores : Prop :=
  ∀ (s : State) (g : Guard) (c : Bool) (d : Fin 64) (a : Fin 32) (sc : Fin 8) (o : Fin 4) (b : Fin 64) (r e : Nat) (x : Cause),
    let k := s.core.run
    let w := k.tyBytes
    let base := s.reg a
    let packed (r e : Nat) : Option Word := some (base + BitVec.ofNat 64 ((r * k.vl.toNat + e) * w))
    let strided (r e : Nat) : Option Word := some (base + BitVec.ofNat 64 r * k.rstride + BitVec.ofNat 64 e * k.vstride)
    let tiled (r e : Nat) : Option Word := some (base + BitVec.ofNat 64 r * k.rstride + BitVec.ofNat 64 (e * w))
    let indexed (r e : Nat) : Option Word := some (base + BitVec.ofNat 64 r * k.rstride + BitVec.ofNat 64 (k.elem b 4 r e))
    let word (i : Nat) : Nat := VReg.get k.v[b] (8 * i) 8
    let shape (r e : Nat) : Option Word :=
      if e < word 1 ∧ r < word 2 * word 3 then
        some (BitVec.ofNat 64 (word 0 + e * word 4 + r % word 2 * word 5 + r / word 2 * word 6))
      else none
    let earlier (p : Nat × Nat) : Prop := p.1 < r ∨ (p.1 = r ∧ p.2 < e)
    let traps (i : Instr) (acc : Access) (A : Word) : Prop := exec i s =
      .next ((s.withRun (k.setVs r e)).raiseTrap { cause := x, index := r * k.vl.toNat + e, addr := s.firstFailing acc A w })
    let trims (i : Instr) (addr : Nat → Nat → Option Word) : Prop := ∀ A,
      (r, e) ∈ s.enumerated g addr → addr r e = some A → s.translateAccess s.me .read false A w = .error x →
      (∀ p ∈ s.enumerated g addr, earlier p → ∀ B, addr p.1 p.2 = some B → ∃ q, s.attains .read false B w q) →
      ((∀ p ∈ s.enumerated g addr, ¬ earlier p) → traps i .read A) ∧
      (∀ p ∈ s.enumerated g addr, earlier p → (∀ q ∈ s.enumerated g addr, p.1 ≤ q.1) →
        Goes (exec i s) (fun t => t.mem = s.mem ∧ t.core.run.pc = k.pc + 4 ∧ t.core.live = s.core.live ∧
          (p.1 = r → t.core.run.vl.toNat = e ∧ t.core.run.rc.toNat = r + 1) ∧
          (p.1 < r → t.core.run.vl = k.vl ∧ t.core.run.rc.toNat = r)))
    let stops (i : Instr) (addr : Nat → Nat → Option Word) : Prop := ∀ A,
      (r, e) ∈ s.enumerated g addr → addr r e = some A → s.translateAccess s.me .write false A w = .error x →
      (∀ p ∈ s.enumerated g addr, earlier p → ∀ B, addr p.1 p.2 = some B →
        ∃ ps, s.translateAccess s.me .write false B w = .ok ps) →
      traps i .write A
    k.ty < 15 → k.heldBytes = [] → k.strip = none → isDataCause x = false →
    (s.issues [d] w →
      (trims (.vld g c d a sc o) packed ∧ trims (.vlds g c d a sc o) strided ∧ trims (.vldt g c d a sc o) tiled) ∧
      (stops (.vst g c d a sc o) packed ∧ stops (.vsts g c d a sc o) strided ∧ stops (.vstt g c d a sc o) tiled)) ∧
    (s.issues [d, b] (max w 4) → trims (.vldx g c d a b) indexed ∧ stops (.vstx g c d a b) indexed) ∧
    (s.issues [d, b] w → word 7 = 0 → word 1 ≤ 2 ^ 32 → word 2 ≤ 2 ^ 32 → word 3 ≤ 2 ^ 32 →
      trims (.vldn g c d b) shape ∧ stops (.vstn g c d b) shape)

/-- spec/11 R290 and R291: each active element updates memory at its 64-bit address in va, in sweep order, by Table
5's operation on what it finds there, compared as the type says; vd receives the old values. `vatom.cas` compares with
the even member of the pair and stores the odd one, which receives the old values. Memory keeps every other byte where
no earlier store of the coroutine waits for a release to perform it. spec/11 R292 and Table 6: `vwait` reads the
active elements' 64-bit addresses; when each value satisfies the condition against vb it goes on and changes nothing;
otherwise the coroutine waits from the next instruction on, with its registers, and reads again after an interval. -/
def Obligations.VectorAtomicAndWaitResults : Prop :=
  (∀ (s : State) (g : Guard) (d a : Fin 64) (k : Fin 32) (sc : Fin 8) (o : Fin 4),
    let ty := s.core.run.ty
    let w := s.core.run.tyBytes
    let int (x : Nat) : Int := if 4 ≤ ty then (BitVec.ofNat (8 * w) x).toInt else x
    ty ∈ [2, 3, 6, 7] → s.core.run.strip = none → s.rests →
    (s.issues [d, a] 8 →
      s.vswaps (.vatomAdd g d a sc o) g d d a (fun old x _ => some ((old + x) % 2 ^ (8 * w))) ∧
      s.vswaps (.vatomMin g d a sc o) g d d a (fun old x _ => some (if int x < int old then x else old)) ∧
      s.vswaps (.vatomMax g d a sc o) g d d a (fun old x _ => some (if int old < int x then x else old)) ∧
      s.vswaps (.vatomAnd g d a sc o) g d d a (fun old x _ => some (old &&& x)) ∧
      s.vswaps (.vatomOr g d a sc o) g d d a (fun old x _ => some (old ||| x)) ∧
      s.vswaps (.vatomXor g d a sc o) g d d a (fun old x _ => some (old ^^^ x)) ∧
      s.vswaps (.vatomSwap g d a sc o) g d d a (fun _ x _ => some x)) ∧
    (s.issues [vpairOdd k, a, vpairEven k] 8 →
      s.vswaps (.vatomCas g k a sc o) g (vpairOdd k) (vpairEven k) a (fun old x y => if old = x then some y else none))) ∧
  (∀ (s : State) (g : Guard) (cc a b : Fin 64) (place : Nat → Nat → Nat),
    let k := s.core.run
    let w := k.tyBytes
    let addr (r e : Nat) : Option Word := some (BitVec.ofNat 64 (k.elem a 8 r e))
    let met (x t : BitVec (8 * w)) : Prop :=
      (cc = 0 ∧ x = t) ∨ (cc = 1 ∧ x ≠ t) ∨ (cc = 2 ∧ t.toInt ≤ x.toInt) ∨ (cc = 3 ∧ t.toNat ≤ x.toNat) ∨
        (cc = 4 ∧ (x - t).toNat < 2 ^ (8 * w - 1))
    let ok (p : Nat × Nat) : Prop := met (BitVec.ofNat _ (s.mem.readNat (place p.1 p.2) w)) (s.el b p.1 p.2)
    cc.val < 5 → s.ordinary → k.ty ∈ [2, 3, 6, 7] → s.issues [a, b] 8 → s.vreaches (s.reaches .read false) g addr place →
    (∀ p ∈ s.enumerated g addr, k.elem a 8 p.1 p.2 % w = 0) →
    ((∀ p ∈ s.enumerated g addr, ok p) → Goes (exec (.vwait g cc a b) s) (fun t => t = { s.withRun k.finishV with caches := t.caches })) ∧
    ((∃ p ∈ s.enumerated g addr, ¬ ok p) → s.core.roomFits (k.fullContext s.core.lanes).blocks = true →
      Goes (exec (.vwait g cc a b) s) (fun t => t.core.live = .idle ∧ t.mem = s.mem ∧
        Event.vwaitRound s.core.id k.cnum.toNat ∈ t.agenda ∧
        ∃ x ∈ t.core.coros, x.cnum = k.cnum ∧ (∃ v, x.state = .waitingVec v) ∧ x.pc = k.pc + 4 ∧ x.s = k.s ∧ x.g = k.g ∧
          x.v = k.v ∧ x.m = k.m ∧ x.acc = k.acc)))

/-- spec/11 R287, spec/09 R243, R244 and spec/04 R127: `strip.begin` opens an empty strip and records its base; a
vector store inside it leaves memory as it is and holds its bytes, in order; `strip.commit` performs what is held and
closes the strip, and traps with STRIP_SYNC outside one. -/
def Obligations.StripsHoldAndCommit : Prop :=
  ∀ (s : State) (g : Guard) (a : Fin 32), s.enables g →
    (s.core.run.strip = none →
      exec (.stripBegin g a) s =
        .next (s.passed.withRun { s.passed.core.run with
          strip := some ⟨0, [], []⟩, stripBase := s.reg a, ecc := s.core.run.ecc.filter (fun m => !m.inStrip) }) ∧
      exec (.stripCommit g) s = .next (s.raise .stripSync)) ∧
    (∀ st, s.core.run.strip = some st → exec (.stripBegin g a) s = .next (s.raise .stripSync)) ∧
    (∀ (st : Strip) (places : List Nat), s.core.run.strip = some st → places.length = st.held.length →
      s.mem.wf = true → s.core.run.flight = none → (∀ m ∈ s.core.run.ecc, m.inStrip = false) →
      (∀ hp ∈ st.held.zip places, ∃ x, hp.1.parts = [(x, hp.1.data.length)] ∧ s.found x hp.1.data.length hp.2) →
      Goes (exec (.stripCommit g) s) (fun t =>
        t = { s.passed.withRun { s.passed.core.run with strip := none } with mem := t.mem, caches := t.caches } ∧
        (∀ x, t.seen x = (st.held.zip places).foldl (fun b hp =>
          if hp.2 ≤ x ∧ x < hp.2 + hp.1.data.length then hp.1.data.getD (x - hp.2) 0 else b) (s.seen x)) ∧
        (∀ x, (∀ hp ∈ st.held.zip places, ¬ (hp.2 ≤ x ∧ x < hp.2 + hp.1.data.length)) → t.mem.get x = s.mem.get x))) ∧
    (∀ (st : Strip) (q : Guard) (c : Bool) (d : Fin 64) (place : Nat → Nat → Nat), s.core.run.strip = some st →
      let k := s.core.run
      let w := k.tyBytes
      let packed (r e : Nat) : Option Word := some (s.reg a + BitVec.ofNat 64 ((r * k.vl.toNat + e) * w))
      k.ty < 15 → s.issues [d] w → s.vreaches (s.attains .write false) q packed place →
      st.entries + (s.enumerated q packed).length ≤ 256 →
      Goes (exec (.vst q c d a 0 0) s) (fun t => t.mem = s.mem ∧ t.core.run.pc = k.pc + 4 ∧ t.core.run.v = k.v ∧
        ∃ st', t.core.run.strip = some st' ∧ st.held <+: st'.held ∧
          (st'.held.drop st.held.length).map (·.data) =
            (s.enumerated q packed).map (fun p => leBytes w (k.elem d w p.1 p.2))))

/-! ## Batons -/

/-- spec/05 R131, R129 and R133: `bnew` takes a free record of the core's die with COUNT and ERR zero, the flags that
its operand gives and the coroutine's ASID as owner, and returns its handle; without a free record it returns 1, and
with flags it does not accept 2, which comes first where both hold, the model's choice (log 50). No other record and
no byte of memory changes. spec/05 R130, R133 and R131: `bfree` frees an owned baton on which no coroutine has a wait
armed and no producer holds a reference: its handle is live no more, and its record's generation is the next one, past
0xFFFFFF again 1; otherwise it returns 3 and changes nothing else. `bqry` returns COUNT, ERR, CL, BAR and PLOG, and is
an acquire at the baton's scope (spec/04 R122). -/
def Obligations.BatonRecordResults : Prop :=
  (∀ (s : State) (g : Guard) (d a : Fin 32), s.enables g →
    let f := (s.reg a).toNat
    let die := dieOf s.core.id
    let good : Prop := f / 2 ^ 40 = 0 ∧ f / 2 ^ 11 % 2 ^ 5 = 0 ∧ f / 2 ^ 6 % 2 ^ 5 ≤ 24 ∧
      (f.testBit 4 = true → s.core.run.tags.length < 4)
    (¬ good → exec (.bnew g d a) s = .next (s.wrote d 2)) ∧
    (good → (∀ i, 1 ≤ i → i ≤ 262143 → (s.baton (die * 2 ^ 18 + i)).live = true) →
      exec (.bnew g d a) s = .next (s.wrote d 1)) ∧
    (good → s.liveRecords die < 262143 →
      Goes (exec (.bnew g d a) s) (fun t => ∃ i, 1 ≤ i ∧ i ≤ 262143 ∧
        let key := die * 2 ^ 18 + i
        let old := s.baton key
        let new := t.baton key
        old.live = false ∧ new.live = true ∧ new.gen = old.gen ∧ new.count = 0 ∧ new.err = 0 ∧
        new.scope.val = f % 8 ∧ new.opn = f.testBit 3 ∧ new.cl = f.testBit 4 ∧ new.bar = f.testBit 5 ∧
        new.plog = f / 2 ^ 6 % 2 ^ 5 ∧ new.owner = s.core.run.asid ∧
        (∀ k, k ≠ key → t.baton k = s.baton k) ∧ t.mem = s.mem ∧ t.others = s.others ∧ t.agenda = s.agenda ∧
        t.core.run.s = s.regsWith d (handleOf key old.gen.toNat) ∧ t.core.run.pc = s.core.run.pc + 4 ∧
        t.core.run.tags = s.core.run.tags ++ (if f.testBit 4 then [(new.group, new.cgen)] else [])))) ∧
  (∀ (s : State) (g : Guard) (d a : Fin 32), s.enables g → s.owns (s.reg a) →
    let h := s.reg a
    let b := s.baton (handleKey h)
    let busy : Prop := s.armedOn h = true ∨ b.holds ≠ 0
    (busy → exec (.bfree g d a) s = .next (s.wrote d 3)) ∧
    (¬ busy → Goes (exec (.bfree g d a) s) (fun t =>
      (t.baton (handleKey h)).live = false ∧
      (t.baton (handleKey h)).gen = (if b.gen = 0xFFFFFF then 1 else b.gen + 1) ∧ t.liveHere h = false ∧
      (∀ k, k ≠ handleKey h → t.baton k = s.baton k) ∧ t.mem = s.mem ∧
      t.core.run.s = s.regsWith d 0 ∧ t.core.run.pc = s.core.run.pc + 4)) ∧
    Goes (exec (.bqry g d a) s) (fun t =>
      let u := s.wrote d (BitVec.ofNat 64 (b.plog * 2 ^ 42 + (if b.bar then 2 ^ 41 else 0) +
        (if b.cl then 2 ^ 40 else 0) + b.err.toNat * 2 ^ 32 + b.count.toNat))
      if b.scope.val < 2 then t = u else s.acquires t u))

/-- spec/05 R135: `barm` arms a wait on an owned baton with the low 32 bits of its operand, and `barm.rel` with COUNT
plus its operand; a target exactly 2^31 ahead, or a relative one of 2^31 or more, traps with BATON_ARM. spec/05 R130,
R132 and R139: a handle of another module, of no live baton, or of one to which the coroutine has no right, traps with
BATON_NOT_LOCAL, BATON_STALE or BATON_DENIED, in this order, before any effect; a signal to a module that is no member
of the pod traps with BATON_STALE, and so does an arrival at a handle of another module that is never live. -/
def Obligations.ArmingAndBatonChecks : Prop :=
  (∀ (s : State) (g : Guard) (a b : Fin 32), s.enables g → s.owns (s.reg a) →
    let n := (s.baton (handleKey (s.reg a))).count
    let T : BitVec 32 := (s.reg b).setWidth 32
    let armed (x : BitVec 32) : State := s.passed.withRun { s.passed.core.run with armed := some (s.reg a, x) }
    ((T - n).toNat ≠ 2 ^ 31 → exec (.barm g a b) s = .next (armed T)) ∧
    ((T - n).toNat = 2 ^ 31 → exec (.barm g a b) s = .next (s.raise .batonArm)) ∧
    ((s.reg b).toNat < 2 ^ 31 → exec (.barmRel g a b) s = .next (armed (n + T))) ∧
    (2 ^ 31 ≤ (s.reg b).toNat → exec (.barmRel g a b) s = .next (s.raise .batonArm))) ∧
  (∀ (s : State) (g : Guard) (d a b : Fin 32), s.enables g →
    let h := s.reg a
    let x := s.baton (handleKey h)
    let owned : List Instr := [.bfree g d a, .bqry g d a, .barm g a b, .barmRel g a b]
    let sent : List Instr := [.bsig g a b, .bsigOneOperand g a, .bsigErr g a b, .barv g d a]
    (handleModule h ≠ Config.moduleNumber → ∀ i ∈ owned, exec i s = .next (s.raise .batonNotLocal)) ∧
    (s.isMember (handleModule h) = false → ∀ i ∈ sent, exec i s = .next (s.raise .batonStale)) ∧
    (handleModule h ≠ Config.moduleNumber → h.toNat / 2 ^ 32 % 2 ^ 18 = 0 ∨ h.toNat % 256 ≠ 0 →
      exec (.barv g d a) s = .next (s.raise .batonStale)) ∧
    (handleModule h = Config.moduleNumber → s.liveHere h = false → ∀ i ∈ owned ++ sent, exec i s = .next (s.raise .batonStale)) ∧
    (handleModule h = Config.moduleNumber → s.liveHere h = true → s.core.run.asid ≠ x.owner → s.core.run.priv = false →
      (∀ i ∈ owned, exec i s = .next (s.raise .batonDenied)) ∧
      (x.opn = false → ∀ i ∈ sent, exec i s = .next (s.raise .batonDenied))))

/-- spec/05 R134, R138, R140 and R142: a signal adds its amount to COUNT, and an error signal sets ERR unless it is
set; the registered waiters that this satisfies become Ready. `barv` signals the number of active elements, among the
VLMAX that a mask has bits for, and returns the target of the phase it belongs to. A signal waits, with nothing
changed, for the stores that the coroutine has posted to other cores (spec/04 R121). -/
def Obligations.SignalsCountAndWake : Prop :=
  ∀ (s : State) (g : Guard) (d a b : Fin 32),
    let h := s.reg a
    let x := s.baton (handleKey h)
    let active := s.core.run.tile.countP (fun p =>
      s.core.run.active g p.1 p.2 && decide (s.core.run.maskPos p.1 p.2 < s.core.run.vlmax s.core.lanes))
    let moved (t : State) (v : Vector Word 32) : Prop :=
      t.core.run.s = v ∧ t.core.run.pc = s.core.run.pc + 4 ∧ t.core.run.g = s.core.run.g ∧ t.mem = s.mem
    let signals (i : Instr) (n : Nat) (v : Vector Word 32) : Prop :=
      Goes (exec i s) (fun t => moved t v ∧
        s.batonIs t h { x with count := x.count + BitVec.ofNat 32 n } ∧
        (n ≠ 0 → s.wakes t h { x with count := x.count + BitVec.ofNat 32 n }))
    s.ordinary → s.maySignal h →
    (s.posted = true → s.enables g → exec (.bsig g a b) s = .next s ∧ exec (.bsigOneOperand g a) s = .next s ∧
      (0x80 ≤ (s.reg b).toNat % 256 → exec (.bsigErr g a b) s = .next s)) ∧
    (s.posted = true → exec (.barv g d a) s = .next s) ∧
    (s.rests → s.enables g →
      signals (.bsig g a b) ((s.reg b).toNat % 2 ^ 16) s.core.run.s ∧
      signals (.bsigOneOperand g a) 1 s.core.run.s ∧
      (0x80 ≤ (s.reg b).toNat % 256 → Goes (exec (.bsigErr g a b) s) (fun t => moved t s.core.run.s ∧
        (x.err = 0 → s.batonIs t h { x with err := (s.reg b).setWidth 8 } ∧
          s.wakes t h { x with err := (s.reg b).setWidth 8 }) ∧
        (x.err ≠ 0 → s.batonIs t h x)))) ∧
    (s.enables g → (s.reg b).toNat % 256 < 0x80 → exec (.bsigErr g a b) s = .next (s.raise .batonArm)) ∧
    (s.rests → signals (.barv g d a) active (s.regsWith d (BitVec.ofNat 64 (if x.bar then
      (x.count.toNat - x.count.toNat % 2 ^ x.plog + 2 ^ x.plog) % 2 ^ 32 else (x.count.toNat + active) % 2 ^ 32))))

/-! ## Copy channels -/

/-- spec/05 R146 and R144, spec/04 R117 and R118: `rcopy` on an idle channel, whose source and destination begin at
bytes that translate, begins a command: the channel is in flight with DONE 0 and its watermark at the destination, the
baton has a reference, and an engine will take its first chunk; no byte has moved and no register changes. A command
of length 0 is over at once, and signals its baton. A busy channel traps with CHANNEL_BUSY, and a length of 2^40 or
more with RELAY_SHAPE. `rcopy.shape` takes the places and extents of its record. spec/05 R144, R147, Table 12 and
spec/04 R118: an idle engine of the cluster, the lowest, takes the channel's next chunk of 4 KiB when it is the
channel's turn, round robin from the one served last, the engine and the order being the model's choice (log 90); the
channel waits where no engine is free; a beat copies the next bytes, up to the next 128-byte boundary of the
destination, moves DONE and the watermark past them, and changes no other byte; the end of the command, or of a
cancelled one, leaves the channel idle and signals the baton. -/
def Obligations.RelayCommandsAndSteps : Prop :=
  (∀ (s : State) (g : Guard) (h : Fin 8) (a b : Fin 16) (v : Fin 64) (k : Fin 32), s.enables g → s.ordinary →
    let c := s.core.run
    let ch := s.core.chans[h]
    let dst := s.reg (pairEven a)
    let src := s.reg (pairOdd a)
    let len := (s.reg (pairEven b)).toNat
    let w (i : Nat) : Nat := VReg.get s.core.run.v[v] (8 * i) 8
    let total := w 2 * w 3 * w 4 * w 5
    let shape : RShape := ⟨w 2, w 3, w 4, w 5, (BitVec.ofNat 64 (w 6), BitVec.ofNat 64 (w 7), BitVec.ofNat 64 (w 8)),
      (BitVec.ofNat 64 (w 9), BitVec.ofNat 64 (w 10), BitVec.ofNat 64 (w 11))⟩
    let readable (acc : Access) (A : Word) : Prop := ∃ x, s.translate s.me acc false A = .ok x ∧ ∀ p tag o, x.target ≠ .plane p tag o
    let baton (B : Word) : Prop := B = 0 ∨ s.maySignal B
    let begun (src dst : Word) (n : Nat) (sh : Option RShape) (B : Word) (contig : Bool) (t : State) : Prop :=
      let x : Chan := { state := .inFlight, can := false, shp := sh.isSome, cause := .none, done := 0, wp := dst, dst := dst,
                        contig := contig
                        cmd := some ⟨src, dst, n, sh, B, c.asid, s.mySlot, c.priv, coroWord s.core.id c, c.inc, 0⟩ }
      t = { s.passed with
        core := { s.passed.core with chans := s.core.chans.set h x }
        agenda := s.agenda ++ [.relayChunk s.core.id h.val]
        batons := t.batons } ∧ s.heldIn t B
    (ch.state ≠ .idle → exec (.rcopy g h a b) s = .next (s.raise .channelBusy)) ∧
    (ch.state = .idle → 2 ^ 40 ≤ len → exec (.rcopy g h a b) s = .next (s.raise .relayShape)) ∧
    (ch.state = .idle → 0 < len → len < 2 ^ 40 → baton (s.reg (pairOdd b)) →
      (readable .read src → readable .write dst → s.rests →
        Goes (exec (.rcopy g h a b) s) (begun src dst len none (s.reg (pairOdd b)) true)) ∧
      (∀ x, s.translate s.me .read false src = .error x →
        exec (.rcopy g h a b) s = .next (s.raiseTrap { cause := x, addr := src })) ∧
      (∀ x, readable .read src → s.translate s.me .write false dst = .error x →
        exec (.rcopy g h a b) s = .next (s.raiseTrap { cause := x, addr := dst }))) ∧
    (ch.state = .idle → len = 0 → baton (s.reg (pairOdd b)) → s.rests →
      Goes (exec (.rcopy g h a b) s) (fun t =>
        (t.core.chans[h]).state = .idle ∧ (t.core.chans[h]).wp = dst ∧ (t.core.chans[h]).done = 0 ∧
        (∀ y : Fin 8, y ≠ h → t.core.chans[y] = s.core.chans[y]) ∧ t.core.run = s.passed.core.run ∧ t.mem = s.mem ∧
        (s.reg (pairOdd b) = 0 → t.batons = s.batons ∧ t.agenda = s.agenda) ∧
        (s.reg (pairOdd b) ≠ 0 → s.batonIs t (s.reg (pairOdd b)) { s.baton (handleKey (s.reg (pairOdd b))) with
          count := (s.baton (handleKey (s.reg (pairOdd b)))).count + 1 }))) ∧
    (ch.state ≠ .idle → s.issues [v] 0 → exec (.rcopyShape g h v k) s = .next (s.raise .channelBusy)) ∧
    (ch.state = .idle → s.issues [v] 0 → baton (s.reg k) → 1 ≤ w 12 → w 12 ≤ 4 → (∀ i, i < 4 → w 12 ≤ i → w (2 + i) = 1) →
      0 < w 2 → w 2 ≤ 2 ^ 32 → w 13 = 0 → w 14 = 0 → w 15 = 0 → 0 < total → total < 2 ^ 40 →
      readable .read (BitVec.ofNat 64 (w 0)) → readable .write (BitVec.ofNat 64 (w 1)) → s.rests →
      Goes (exec (.rcopyShape g h v k) s)
        (begun (BitVec.ofNat 64 (w 0)) (BitVec.ofNat 64 (w 1)) total (some shape) (s.reg k)
          ((w 12 < 2 || w 9 == w 2 % 2 ^ 64) && (w 12 < 3 || w 10 == w 2 * w 3 % 2 ^ 64) &&
            (w 12 < 4 || w 11 == w 2 * w 3 * w 4 % 2 ^ 64))))) ∧
  (∀ (s : State) (h : Fin 8) (m : RelayCmd),
    let id := s.core.id
    let ch := s.core.chans[h]
    let cluster := id / 96
    let k := id % 96 * 8 + h.val
    let mine (e : Engine) : Prop := e.core = id ∧ e.ch = h.val
    let put (x : Chan) : Core := { s.core with chans := s.core.chans.set h x }
    let last := ((s.lastChan.find? (·.1 == cluster)).map (·.2)).getD 767
    let turn (x : Nat) : Nat := (x + 767 - last) % 768
    ch.cmd = some m →
    (ch.state = .inFlight → ch.done ≠ m.len → (∀ e ∈ s.engines, ¬ mine e) →
      (∀ j, j < 8 → (∀ e ∈ s.engines, e.id ≠ cluster * 8 + j) →
        (∀ i, i < j → ∃ e ∈ s.engines, e.id = cluster * 8 + i) →
        (∀ x, x < 768 → s.chanWaits cluster x = true → turn k ≤ turn x) → last < 768 →
        exec (.relayChunk id h.val) s = .next { s with
          core := put { ch with cmd := some { m with budget := 4096 } }
          engines := ⟨cluster * 8 + j, id, h.val⟩ :: s.engines
          lastChan := (cluster, k) :: s.lastChan.filter (·.1 != cluster)
          agenda := s.agenda ++ [.relayBeat id h.val] }) ∧
      ((∀ j, j < 8 → ∃ e ∈ s.engines, e.id = cluster * 8 + j) →
        exec (.relayChunk id h.val) s = .next { s with agenda := s.agenda ++ [.relayChunk id h.val] })) ∧
    (∀ (e : Nat) (x y : Xlat) (p q : Nat), ch.state = .inFlight → s.engineOf h = some e → ch.done < m.len → 0 < m.budget →
      s.mem.wf = true →
      let pl := m.place ch.done
      let n := min (min pl.2.2 m.budget) (min (128 - pl.2.1.toNat % 128) (m.len - ch.done))
      let who : Who := ⟨m.asid, m.priv, some id, m.slot, some e⟩
      let known (A : Word) : Prop := isNear A = true ∨ (s.tlbHit who .read (A.toNat % 2 ^ 56)).isSome = true
      let after (t : State) (mem : Memory) : Prop :=
        t = { s with
          mem := mem
          caches := t.caches
          core := put { ch with
            done := ch.done + n
            wp := if ch.contig then ch.dst + BitVec.ofNat 64 (ch.done + n) else ch.wp
            cmd := some { m with budget := m.budget - n } }
          engines := if ch.done + n = m.len ∨ m.budget = n then s.engines.filter (fun x => !(x.core == id && x.ch == h.val))
            else s.engines
          agenda := s.agenda ++ [if ch.done + n = m.len then .relayComplete id h.val
            else if m.budget = n then .relayChunk id h.val else .relayBeat id h.val] }
      known pl.1 → known pl.2.1 → s.translate who .read false pl.1 = .ok x → s.translate who .write false pl.2.1 = .ok y →
      (pl.1.toNat % 64 + n ≤ 64 → pl.2.1.toNat % 64 + n ≤ 64 → s.lies x n p → s.lies y n q →
        Goes (exec (.relayBeat id h.val) s) (fun t => after t (s.mem.write q (s.mem.read p n)))) ∧
      (∀ (x' y' : Xlat) (p' q' : Nat), n = 128 → pl.1.toNat % 64 = 0 → known (pl.1 + 64) → known (pl.2.1 + 64) →
        s.translate who .read false (pl.1 + 64) = .ok x' → s.translate who .write false (pl.2.1 + 64) = .ok y' →
        s.lies x 64 p → s.lies y 64 q → s.lies x' 64 p' → s.lies y' 64 q' →
        Goes (exec (.relayBeat id h.val) s) (fun t =>
          let half := s.mem.write q (s.mem.read p 64)
          after t (half.write q' (half.read p' 64))))) ∧
    (ch.state = .inFlight → ch.done = m.len →
      Goes (exec (.relayComplete id h.val) s) (fun t => s.completes t m.baton ∧
        t.core.chans = s.core.chans.set h { ch with
          state := .idle, can := false, cause := .none, wp := ch.dst + BitVec.ofNat 64 ch.done, cmd := none } ∧
        (∀ e ∈ t.engines, ¬ mine e) ∧ t.mem = s.mem ∧ t.core.run.s = s.core.run.s ∧ t.core.run.pc = s.core.run.pc)) ∧
    (ch.state = .cancelling →
      Goes (exec (.relayCancelComplete id h.val) s) (fun t => s.completes t m.baton ∧
        t.core.chans = s.core.chans.set h { ch with
          state := .idle, can := true, cause := .none, wp := ch.dst + BitVec.ofNat 64 ch.done, cmd := none } ∧
        (∀ e ∈ t.engines, ¬ mine e) ∧ t.mem = s.mem ∧ t.core.run.s = s.core.run.s ∧ t.core.run.pc = s.core.run.pc)))

/-- spec/05 R152 with Table 11, R151 and spec/04 R118, R120: `rwp` reads a channel's watermark, `rqry` its state, its
last cause and DONE, and neither changes anything else; `rcancel` stops a command in flight at its delivered prefix,
and changes no idle channel. After module reset every channel of every core is idle, has carried no command, and has
its watermark and its destination start 0. -/
def Obligations.RelayQueriesAndCancel : Prop :=
  let unused (t : State) : Prop := ∀ (id : Nat) (h : Fin 8), let ch := (t.coreAt id).chans[h]
    ch.state = .idle ∧ ch.can = false ∧ ch.shp = false ∧ ch.cause = .none ∧ ch.done = 0 ∧ ch.cmd = none ∧ ch.wp = 0 ∧
      ch.dst = 0
  unused State.reset ∧ (∀ s : State, Goes (exec .moduleReset s) unused) ∧
  ∀ (s : State) (g : Guard) (d : Fin 32) (h : Fin 8), s.enables g →
    let ch := s.core.chans[h]
    let code := match ch.state with
      | .idle => 0
      | .inFlight => 1
      | .cancelling => 2
    exec (.rwp g d h) s = .next (s.wrote d ch.wp) ∧
    exec (.rqry g d h) s = .next (s.wrote d (BitVec.ofNat 64 (code * 2 ^ 62 + (if ch.can then 2 ^ 61 else 0) +
      (if ch.shp then 2 ^ 60 else 0) + ch.cause.code * 2 ^ 54 + ch.done % 2 ^ 40))) ∧
    (ch.cancels = false → exec (.rcancel g h) s = .next s.passed) ∧
    (ch.cancels = true → Goes (exec (.rcancel g h) s) (fun t => (t.core.chans[h]).state = .cancelling ∧
      (t.core.chans[h]).done = ch.done ∧ (∀ x : Fin 8, x ≠ h → t.core.chans[x] = s.core.chans[x]) ∧
      Event.relayCancelComplete s.core.id h.val ∈ t.agenda ∧ t.core.run = s.passed.core.run ∧ t.mem = s.mem))

/-! ## Active messages -/

/-- spec/06 R180 and spec/11 R297 to R300: a 64-byte record at a multiple of 64 sends its message: it joins its
target's queue with the sender's CORO, ASID, engagement slot and five arguments, its baton has a reference, and the
target's slot will serve it; while that queue is full the sender waits. `amreg` sets a handler entry, one of another
ASID only with privilege, and `amreply` ends the handler: what ran before it runs on, and its reply with the value
goes to the sender. spec/06 R180, R181 and spec/11 R299: a message whose handler is registered starts it with the
sender's CORO in q1 and the arguments in q2 to q6, at its entry, and without privilege, which is the model's reading
(log 47); without one it is answered with status 1. The elements of a cluster-window store are written into the core's
scratchpad in their order, and a load is answered with the bytes there. At its limit a handler ends with status 0x33,
and a reply writes its 16 bytes at its sender and signals its baton. -/
def Obligations.MessageResults : Prop :=
  (∀ (s : State) (g : Guard) (a b : Fin 32), s.enables g →
    let A := s.reg a
    let i : Fin 16 := Fin.ofNat 16 A.toNat
    (∀ p, s.ordinary → A.toNat % 64 = 0 → s.attains .read true A 64 p →
      let w (i : Nat) : Nat := s.seenNat (p + 8 * i) 8
      let B := BitVec.ofNat 64 (w 2)
      let target := s.core.id / 96 * 96 + w 0 % 2 ^ 7
      w 0 / 2 ^ 12 = 0 → (w 0).testBit 7 = false → w 0 % 2 ^ 7 < 96 → w 1 / 2 ^ 18 % 2 ^ 45 = 0 →
      ((w 1).testBit 63 = true ∨ w 1 % 2 ^ 18 % 16 = 0) → (B = 0 ∨ s.maySignal B) →
      (64 ≤ (s.coreAt target).queue.length →
        Goes (exec (.amsend g a) s) (fun t => t = { s with caches := t.caches })) ∧
      ((s.coreAt target).queue.length < 64 → s.rests → Goes (exec (.amsend g a) s) (fun t => s.heldIn t B ∧ t.mem = s.mem ∧ t.core.run = s.passed.core.run ∧
        Event.activeMessageHandler target ∈ t.agenda ∧ ∃ m : AMsg,
          (t.coreAt target).queue = (s.coreAt target).queue ++ [.message m] ∧ m.sender = s.core.id ∧
          m.coro = coroWord s.core.id s.core.run ∧ m.asid = s.core.run.asid ∧ m.eslot = s.mySlot ∧ m.baton = B ∧ m.handler = w 0 / 2 ^ 8 % 2 ^ 4 ∧
          m.block = (if (w 1).testBit 63 then none else some (w 1 % 2 ^ 18)) ∧
          m.args = (List.range 5).map (fun i => BitVec.ofNat 64 (w (3 + i)))))) ∧
    (A.toNat % 64 ≠ 0 → exec (.amsend g a) s = .next (s.raise .messageFault)) ∧
    (let mine : Prop := s.core.run.priv = true ∨ ∀ asid e, s.core.handlers[i] = some (asid, e) → asid = s.core.run.asid
     ((s.reg b).toNat % 4 = 0 → mine →
      exec (.amreg g a b) s = .next { s.passed with core := { s.passed.core with
        handlers := s.core.handlers.set i (if s.reg b = 0 then none else some (s.core.run.asid, s.reg b)) } }) ∧
     ((s.reg b).toNat % 4 ≠ 0 ∨ ¬ mine → exec (.amreg g a b) s = .next (s.raise .messageFault))) ∧
    (∀ r, s.core.slot = some r →
      Goes (exec (.amreply g a) s) (fun t => t.core.slot = none ∧ t.core.run = r.saved ∧ t.core.live = r.live ∧
        Event.amReplyDelivery ⟨r.msg.sender, r.msg.block, A, 0, r.msg.baton⟩ ∈ t.agenda ∧ t.mem = s.mem)) ∧
    (s.core.slot = none → exec (.amreply g a) s = .next (s.raise .messageFault))) ∧
  (∀ (s : State) (rest : List SlotReq),
    let id := s.core.id
    (∀ m : AMsg, m.handler < 16 → s.core.slot = none → s.core.queue = .message m :: rest → s.core.inService = true →
      let entry := s.core.handlers[Fin.ofNat 16 m.handler]
      (∀ e, entry = some (m.asid, e) → m.args.length = 5 →
        Goes (exec (.activeMessageHandler id) s) (fun t => t.core.live = .running ∧ t.core.run.pc = e ∧
          t.core.run.priv = false ∧ t.core.run.asid = m.asid ∧ t.core.run.s[0] = 0 ∧ t.core.run.s[1] = m.coro ∧
          (∀ k : Fin 5, t.core.run.s[k.val + 2] = m.args.getD k.val 0) ∧ t.core.run.s[7] = 0 ∧ t.core.run.g = 0 ∧
          t.core.queue = rest ∧ t.core.touched = s.core.touched ||| (1#64 <<< m.eslot) ∧
          (∃ r, t.core.slot = some r ∧ r.saved = s.core.run ∧ r.live = s.core.live ∧ r.msg = m) ∧ t.mem = s.mem)) ∧
      ((∀ e, entry ≠ some (m.asid, e)) →
        Goes (exec (.activeMessageHandler id) s) (fun t => t.core.run = s.core.run ∧ t.core.queue = rest ∧
          Event.amReplyDelivery ⟨m.sender, m.block, 0, 1, m.baton⟩ ∈ t.agenda ∧ t.mem = s.mem))) ∧
    (∀ (sender cnum inc : Nat) (els : List SlotStore), s.core.slot = none → s.core.queue = .store sender cnum inc els :: rest →
      s.core.inService = true → (∀ e ∈ els, e.off < s.core.padBytes) →
      Goes (exec (.clusterWindowRequest id) s) (fun t =>
        t = { s with
          core := { s.core with queue := rest }
          mem := els.foldl (fun m e => m.write (padStore id + e.off) e.data) s.mem
          padPoison := t.padPoison })) ∧
    (∀ (sender cnum inc off n : Nat) (k : Coro) (f : Flight), s.core.slot = none → sender ≠ id → f.asked ≠ 0 →
      s.core.queue = .access sender cnum inc f.id [⟨id, off, n, none⟩] :: rest → s.core.inService = true → off < s.core.padBytes →
      s.padPoisoned (padStore id + off) n = false → (s.coreAt sender).current = some k → k.cnum.toNat = cnum →
      k.inc.toNat = inc → k.flight = some f →
      Goes (exec (.clusterWindowRequest id) s) (fun t => t.mem = s.mem ∧ t.core = { s.core with queue := rest } ∧
        (t.coreAt sender).current = some { k with flight := some { f with
          asked := 0, done := f.done + f.asked, replies := f.replies ++ [⟨id, off, n, s.mem.read (padStore id + off) n, none⟩] } })) ∧
    (∀ r, s.core.slot = some r →
      Goes (exec (.handlerLimit id) s) (fun t => t.core.slot = none ∧ t.core.run = r.saved ∧
        Event.amReplyDelivery ⟨r.msg.sender, r.msg.block, 0, 0x33, r.msg.baton⟩ ∈ t.agenda ∧ t.mem = s.mem)) ∧
    (∀ (block : Option Nat) (status : Nat) (value B : Word), status < 2 ^ 64 →
      Goes (exec (.amReplyDelivery ⟨id, block, value, status, B⟩) s) (fun t => s.completes t B ∧
        (t.mem = match block with
          | none => s.mem
          | some off => if off < s.core.padBytes then
              s.mem.write (padStore id + off) (leBytes 8 value.toNat ++ leBytes 8 status) else s.mem) ∧
        (B = 0 → t.core = s.core))))

/-! ## The switch tier -/

/-- spec/03 R81 to R86: `swalloc`, `swfree` and `swquota` return a status in sd and change nothing else where the
fabric is not trained, an operand is out of range, the engagement has no tenant, or the plane is down; and `swalloc`
and `swfree` are privileged. Where several statuses hold, their order is the model's choice (logs 21 and 22). spec/03
R81 to R85: `swalloc` on a named plane, mirrored or not, answers PLANEDOWN, QUOTA or NOSPACE, in the model's order
(log 21), or grants a range: free on each plane that it takes, aligned, of the size in 64 KiB units, owned by the
tenant; sd receives its handle, and a mirrored range goes on from the higher of the two planes' sequences. With plane
31 the planes are tried in order from the one after the last grant, those regarded as down skipped, and the first that
can grants it; where none can, the status is that of the last one tried (log 83). `swfree` of an own allocation that
is not Lost takes it out of every plane that holds it, and zeroes its bytes there; one of another tenant answers
NOTOWNER, after PLANEDOWN (log 22). -/
def Obligations.SwitchAllocations : Prop :=
  (∀ (s : State) (g : Guard) (d a b : Fin 32), s.enables g → s.core.run.priv = true →
    let size := (s.reg a).toNat
    let flags := (s.reg b).toNat
    let p := flags % 32
    let q := (s.reg a).toNat % 32
    let tenant := s.tenantOf (s.slotOf s.core.run.asid.toNat)
    (s.sys.fabtr = false → exec (.swalloc g d a b) s = .next (s.wrote d 3) ∧ exec (.swfree g d a) s = .next (s.wrote d 3) ∧
      exec (.swquota g d a) s = .next (s.wrote d 3)) ∧
    (s.sys.fabtr = true →
      (64 ≤ flags → exec (.swalloc g d a b) s = .next (s.wrote d 9)) ∧
      (flags < 64 → 18 ≤ p → p ≠ 31 → exec (.swalloc g d a b) s = .next (s.wrote d 5)) ∧
      (flags < 64 → p < 18 → (size = 0 ∨ 2 ^ 40 < size) → exec (.swalloc g d a b) s = .next (s.wrote d 4)) ∧
      (flags < 64 → p < 18 → 0 < size → size ≤ 2 ^ 40 → tenant = none → exec (.swalloc g d a b) s = .next (s.wrote d 6)) ∧
      (18 ≤ size / 2 ^ 58 % 32 → exec (.swfree g d a) s = .next (s.wrote d 5)) ∧
      (size / 2 ^ 58 % 32 < 18 → tenant = none → exec (.swfree g d a) s = .next (s.wrote d 6)) ∧
      (∀ T, size / 2 ^ 58 % 32 < 18 → tenant = some T → (∀ x ∈ s.allocs, x.handle ≠ s.reg a) →
        exec (.swfree g d a) s = .next (s.wrote d 7)) ∧
      (32 ≤ size → exec (.swquota g d a) s = .next (s.wrote d 9)) ∧
      (size < 32 → 18 ≤ q → exec (.swquota g d a) s = .next (s.wrote d 5)) ∧
      (size < 18 → tenant = none → exec (.swquota g d a) s = .next (s.wrote d 6)) ∧
      (∀ T, size < 18 → tenant = some T → (s.regardsUp q = false ∨ (s.plane q).up = false) →
        exec (.swquota g d a) s = .next (s.wrote d 3)) ∧
      (∀ T, size < 18 → tenant = some T → s.regardsUp q = true → (s.plane q).up = true →
        exec (.swquota g d a) s =
          .next (s.wrote d (BitVec.ofNat 64 (s.quota q T * 2 ^ 36 + s.usage q T * 2 ^ 8)))))) ∧
  (∀ (s : State) (g : Guard) (d a b : Fin 32) (T : Nat), s.enables g → s.core.run.priv = true → s.sys.fabtr = true →
    s.tenantOf (s.slotOf s.core.run.asid.toNat) = some T →
    (let size := (s.reg a).toNat
     let units := (size + 65535) / 65536
     let mirror := (s.reg b).getLsbD 5
     let planes (p : Nat) : List Nat := if mirror then [p, partnerOf p] else [p]
     let up (p : Nat) : Prop := ∀ k ∈ planes p, s.regardsUp k = true ∧ (s.plane k).up = true
     let room (p : Nat) : Prop := ∀ k ∈ planes p, s.usage k T + units ≤ s.quota k T
     let free (p base : Nat) : Prop := base % allocAlign units = 0 ∧ base + units ≤ 2 ^ 26 ∧
       ∀ k ∈ planes p, ∀ x ∈ s.allocs, x.holds k = true → x.base + x.units ≤ base ∨ base + units ≤ x.base
     let can (p : Nat) : Prop := up p ∧ room p ∧ ∃ base, free p base
     let grants (p : Nat) : Prop := Goes (exec (.swalloc g d a b) s) (fun t => ∃ x : Alloc, t.allocs = x :: s.allocs ∧
       x.plane = p ∧ free p x.base ∧ x.units = units ∧ x.tenant = T ∧ x.mirror = mirror ∧
       x.state = (if mirror then .mirrored else .live) ∧ x.tag = (s.plane p).gen.toNat % 32 ∧
       (mirror = true → ∀ gr, x.base * 1024 ≤ gr → gr < (x.base + units) * 1024 →
         (t.plane p).seq gr = max ((s.plane p).seq gr) ((s.plane (partnerOf p)).seq gr) ∧
         (t.plane (partnerOf p)).seq gr = (t.plane p).seq gr) ∧
       t.lastGrant = some p ∧ t.core.run = (s.wrote d x.handle).core.run ∧ t.mem = s.mem ∧ t.batons = s.batons)
     let fails (p : Nat) : Prop :=
       (¬ up p → exec (.swalloc g d a b) s = .next (s.wrote d 3)) ∧
       (up p → ¬ room p → exec (.swalloc g d a b) s = .next (s.wrote d 1)) ∧
       (up p → room p → (∀ base, ¬ free p base) → exec (.swalloc g d a b) s = .next (s.wrote d 2))
     let order := ((List.range 18).map (fun i => (((s.lastGrant.map (· + 1)).getD 0) + i) % 18)).filter s.regardsUp
     0 < size → size ≤ 2 ^ 40 → (s.reg b).toNat < 64 →
     (∀ p, p < 18 → (s.reg b).toNat % 32 = p → (can p → grants p) ∧ fails p) ∧
     ((s.reg b).toNat % 32 = 31 →
       (∀ l p r, order = l ++ p :: r → (∀ k ∈ l, ¬ can k) → can p → grants p) ∧
       (∀ p, order.getLast? = some p → (∀ k ∈ order, ¬ can k) → fails p) ∧
       (order = [] → exec (.swalloc g d a b) s = .next (s.wrote d 3)))) ∧
    (∀ x : Alloc, s.allocs.find? (fun y => y.handle == s.reg a) = some x →
      let p := (s.reg a).toNat / 2 ^ 58 % 32
      let copies := (if x.onPrimary then [p] else []) ++ (if x.onPartner then [partnerOf p] else [])
      let down : Prop := ∃ k ∈ copies ++ x.waits.toList, s.regardsUp k = false ∨ (s.plane k).up = false
      p < 18 → s.mem.wf = true →
      (down → exec (.swfree g d a) s = .next (s.wrote d 3)) ∧
      (¬ down → x.state = .lost → exec (.swfree g d a) s = .next (s.wrote d 7)) ∧
      (¬ down → x.state ≠ .lost → x.tenant ≠ T → exec (.swfree g d a) s = .next (s.wrote d 8)) ∧
      (¬ down → x.state ≠ .lost → x.tenant = T →
        let inside (k y : Nat) : Prop := planeStore k + x.base * 2 ^ 16 ≤ y ∧ y < planeStore k + (x.base + x.units) * 2 ^ 16
        let zeroed : List Nat := (if x.listed then [p] else []) ++ (if x.onPartner then [partnerOf p] else [])
        Goes (exec (.swfree g d a) s) (fun t => t.allocs = s.allocs.filter (fun y => !(y.handle == s.reg a)) ∧
          t.core.run = (s.wrote d 0).core.run ∧
          (∀ k ∈ zeroed, ∀ y, inside k y → t.mem.get y = 0) ∧
          (∀ y, (∀ k ∈ zeroed, ¬ inside k y) → t.mem.get y = s.mem.get y)))))

/-- spec/03 R80, R87, R90, R92 and R95: an access of one granule that another module sends is performed where the
plane serves the tag and the tenant owns the range, a store's bytes being written, an atomic's combined and a mirrored
granule's image sent, and none otherwise; a confidential store of a part of a granule locks it first; the partner
serves an access that fails over, and holds the only copy from then on. spec/03 R77, R78, R90, R91 and R95: a mirror
image is installed where its sequence is the newer; a lapsed lock goes, and the granule keeps its bytes; a plane that
goes down is marked so, and one that fails takes its unmirrored allocations; one that returns under another generation
does so empty, what a primary still lists of an allocation lost with it is zeroed (R83), and it is marked up. Each
change sets its SWCHG bit and signals SWLBATON where that is live and OPEN. That a lost port keeps planes and
allocations is the model's reading (log 18), and so is the emptying of a plane that returns (log 78). -/
def Obligations.SwitchPlaneSteps : Prop :=
  (∀ (s : State) (r : SwitchReq) (x : Alloc), r.plane < 18 → 0 < r.len → r.offset % 64 + r.len ≤ 64 → s.mem.wf = true →
    let p := r.plane
    let q := partnerOf p
    let g := r.offset / 64
    let clear (k : Nat) : Prop := r.key = none ∧ (s.plane k).sealOf g = none
    let storing (k : Nat) : Prop := r.write = true ∧ r.atomic = none ∧ r.data.length = r.len ∧ (r.len = 64 ∨ clear k)
    let written (t : State) (k : Nat) (bs : List Byte) : Prop := ∀ y, t.mem.get y =
      if planeStore k + r.offset ≤ y ∧ y < planeStore k + r.offset + r.len then bs.getD (y - (planeStore k + r.offset)) 0
      else s.mem.get y
    let found : Prop := s.allocs.find? (fun y => y.plane == p && y.listed && y.covers r.offset) = some x
    ((s.plane p).up = false → exec (.switchAccess r) s = .next s) ∧
    ((s.plane p).gen.toNat % 32 ≠ r.tag → exec (.switchAccess r) s = .next s) ∧
    ((s.plane p).up = true → (s.plane p).gen.toNat % 32 = r.tag → (s.plane p).locks = [] → found →
      (x.tenant ≠ r.tenant → exec (.switchAccess r) s = .next s) ∧
      (x.tenant = r.tenant → x.left = true →
        exec (.switchAccess r) s = .next { s with agenda := s.agenda ++ [.failoverAccess r] }) ∧
      (x.tenant = r.tenant → x.left = false →
        (r.write = false → r.atomic = none → exec (.switchAccess r) s = .next s) ∧
        (storing p → Goes (exec (.switchAccess r) s) (fun t => written t p r.data ∧ t.core = s.core ∧ t.batons = s.batons ∧
          t.allocs = s.allocs ∧ (x.state = .mirrored → x.plane = p → ∃ m, .mirrorImageInstall m ∈ t.agenda ∧ m.plane = q ∧
            m.granule = g ∧ m.data = t.mem.read (planeStore p + 64 * g) 64))) ∧
        (∀ op a b, r.atomic = some (op, a, b) → clear p → s.poison.contains (planeStore p / 64 + g) = false →
          let old := s.mem.readNat (planeStore p + r.offset) r.len
          Goes (exec (.switchAccess r) s) (fun t => t.core = s.core ∧ t.batons = s.batons ∧ t.allocs = s.allocs ∧
            match atomNew op r.len old a b with
            | some v => written t p (leBytes r.len v)
            | none => t.mem = s.mem)) ∧
        (r.write = true → r.atomic = none → r.key.isSome = true → r.len ≠ 64 →
          Goes (exec (.switchAccess r) s) (fun t => (t.plane p).locks = [(g, r)] ∧ t.mem = s.mem ∧ t.core = s.core ∧
            t.agenda = s.agenda ++ [.switchAccess r, .mergeLockLapse p g])))) ∧
    ((s.plane q).up = true → (s.plane q).locks = [] → (∀ m, .mirrorImageInstall m ∈ s.agenda → m.plane ≠ q) →
      s.allocs.find? (fun y => y.plane == p && y.tag == r.tag && y.onPartner && y.covers r.offset) = some x →
      (x.tenant ≠ r.tenant → exec (.failoverAccess r) s = .next s) ∧
      (x.tenant = r.tenant → storing q →
        Goes (exec (.failoverAccess r) s) (fun t => written t q r.data ∧ t.core = s.core ∧
          (x.state = .mirrored → { x with state := .partnerOnly, left := (s.plane p).up } ∈ t.allocs))))) ∧
  (∀ (s : State) (p : Nat), p < 18 →
    let b := s.swRegs.baton
    let told (t : State) : Prop := t.swRegs.chg = s.swRegs.chg ||| (1#18 <<< p) ∧ t.swRegs.baton = b ∧
      (s.liveHere b = false → t.batons = s.batons ∧ t.core = s.core) ∧
      (s.liveHere b = true → (s.baton (handleKey b)).opn = true →
        s.batonIs t b { s.baton (handleKey b) with count := (s.baton (handleKey b)).count + 1 })
    (∀ (m : MirrorImage), m.plane = p →
      (((s.plane p).up = false ∨
          s.allocs.any (fun y => y.plane == partnerOf p && y.onPartner && y.covers (64 * m.granule)) = false) →
        exec (.mirrorImageInstall m) s = .next s) ∧
      ((s.plane p).up = true → s.allocs.any (fun y => y.plane == partnerOf p && y.onPartner && y.covers (64 * m.granule)) = true →
        Goes (exec (.mirrorImageInstall m) s) (fun t => t.core = s.core ∧ t.allocs = s.allocs ∧ t.mem =
          if (s.plane p).seq m.granule < m.seq then s.mem.write (planeStore p + 64 * m.granule) m.data else s.mem))) ∧
    (∀ gr, (∀ h ∈ (s.plane p).held, h.2.offset / 64 ≠ gr) →
      Goes (exec (.mergeLockLapse p gr) s) (fun t => (t.plane p).locks = (s.plane p).locks.filter (·.1 != gr) ∧
        (t.plane p).held = (s.plane p).held ∧ t.mem = s.mem ∧ t.core = s.core ∧ t.allocs = s.allocs)) ∧
    (∀ failed, Goes (exec (.planeDown ⟨p, failed⟩) s) (fun t => t.swRegs.up = s.swRegs.up &&& ~~~(1#18 <<< p) ∧
      (s.regardsUp p = true → told t) ∧ (s.regardsUp p = false → t.swRegs = s.swRegs ∧ t.batons = s.batons ∧ t.core = s.core) ∧
      (failed = false → t.planes = s.planes ∧ t.allocs = s.allocs ∧ t.mem = s.mem) ∧
      (failed = true → (t.plane p).up = false ∧
        ((∀ m, .mirrorImageInstall m ∈ s.agenda → m.plane ≠ partnerOf p) → t.mem = s.mem) ∧
        (∀ x ∈ s.allocs, x.plane = p →
          (x.state = .live ∨ x.state = .primaryOnly → { x with state := .lost, waits := some p } ∈ t.allocs) ∧
          (x.state = .mirrored → { x with state := .partnerOnly } ∈ t.allocs)) ∧
        (∀ x ∈ s.allocs, x.plane ≠ p → partnerOf x.plane = p → x.state = .mirrored →
          { x with state := .primaryOnly } ∈ t.allocs)))) ∧
    (∀ gen, gen < 2 ^ 32 → s.mem.wf = true →
      Goes (exec (.planeUp p gen) s) (fun t => (t.plane p).up = true ∧ (t.plane p).gen.toNat = gen ∧
        t.swRegs.up = s.swRegs.up ||| (1#18 <<< p) ∧ told t ∧
        ((s.plane p).up = true → (s.plane p).gen.toNat = gen → t.planes = s.planes ∧ t.allocs = s.allocs ∧ t.mem = s.mem) ∧
        ((∀ m, .mirrorImageInstall m ∈ s.agenda → m.plane ≠ partnerOf p) →
          (s.plane p).up = false ∨ (s.plane p).gen.toNat ≠ gen →
          (∀ x ∈ t.allocs, x.waits ≠ some p) ∧
          let freed (y : Nat) : Prop := ∃ x ∈ s.allocs, x.plane ≠ p ∧ x.left = true ∧
            (x.waits = some p ∨ x.state = .partnerOnly ∧ partnerOf x.plane = p) ∧
            planeStore x.plane + x.base * 2 ^ 16 ≤ y ∧ y < planeStore x.plane + (x.base + x.units) * 2 ^ 16
          (∀ y, (freed y → t.mem.get y = 0) ∧
            (¬ freed y → t.mem.get y = if planeStore p ≤ y ∧ y < planeStore (p + 1) then 0 else s.mem.get y))))))

/-! ## Matrix unit and attention -/

/-- spec/12 R302, R308 and R310: `mshape` grants what its request, the lane groups and the element groups allow;
`mzero` clears the active rows; `mseg` finds the first segment from CUR on that holds its row, returns it with the
rows left, and moves CUR to it, or returns all ones. spec/12 R308 and R309: `mld` fills the live rows of an
accumulator from memory, 32 words a row at the row stride, `mst` stores them, and `mcvt` writes the live elements,
converted, to the element groups of vd. -/
def Obligations.GrantsSegmentsAndMoves : Prop :=
  (∀ (s : State) (g : Guard) (d a : Fin 32) (e : Fin 4),
    let q := (s.reg a).toNat
    let ty := q / 2 ^ 19 % 16
    let K := q / 2 ^ 12 % 2 ^ 7
    let G := s.core.run.rgroups s.core.lanes
    let granted := ty * 2 ^ 19 + (min (32 * ((K + 31) / 32)) (if ty = 8 ∨ ty = 9 then 32 else 64)) * 2 ^ 12 +
      (min (min (q / 2 ^ 6 % 2 ^ 6) (8 * s.core.lanes)) G) * 2 ^ 6 + min (min (q % 2 ^ 6) 32) G
    (ty ∈ [4, 8, 9, 12, 13, 14, 15] → exec (.mshape d a) s =
      .next ((s.wrote d (BitVec.ofNat 64 granted)).withRun
        { (s.wrote d (BitVec.ofNat 64 granted)).core.run with mshape := BitVec.ofNat 23 granted })) ∧
    (ty ∉ [4, 8, 9, 12, 13, 14, 15] → exec (.mshape d a) s = .next (s.raise .vectorType)) ∧
    (s.unhindered → s.fills (.mzero g e) s.core.run.finishV e (fun r _ => s.core.run.rowOn g r = true) (fun _ _ => (0, 0))) ∧
    (let c := s.core.run
     let x := q % 2 ^ 32
     let cum (i : Nat) : Nat := s.padNat (c.msegToff.toNat + 4 * i) 4
     let holds (i : Nat) : Prop := (if i = 0 then 0 else cum (i - 1)) ≤ x ∧ x < cum i
     s.padHolds c.msegToff.toNat (4 * c.msegNseg.toNat) →
     (∀ i, c.msegCur.toNat ≤ i → i < c.msegNseg.toNat → holds i → (∀ j, c.msegCur.toNat ≤ j → j < i → ¬ holds j) →
       exec (.mseg d a) s = .next ((s.wrote d (BitVec.ofNat 64 ((cum i - x) * 2 ^ 32 + i))).withRun
         { (s.wrote d (BitVec.ofNat 64 ((cum i - x) * 2 ^ 32 + i))).core.run with msegCur := BitVec.ofNat 16 i })) ∧
     ((∀ i, c.msegCur.toNat ≤ i → i < c.msegNseg.toNat → ¬ holds i) →
       exec (.mseg d a) s = .next (s.wrote d (BitVec.allOnes 64))))) ∧
  (∀ (s : State) (g : Guard) (e : Fin 4) (a : Fin 32) (d : Fin 64) (t : Fin 16) (place : Nat → Nat → Nat),
    let x := s.core.run
    let addr (i j : Nat) : Word := s.reg a + BitVec.ofNat 64 i * x.rstride + BitVec.ofNat 64 (4 * j)
    let rows := (List.range x.mM).filter (fun i => decide (x.vs.row.toNat ≤ i) && x.rowOn g i)
    let els := rows.flatMap (fun i => (List.range 32).map (fun j => (i, j)))
    let reach (acc : Access) : Prop := ∀ i ∈ rows, ∀ j, j < 32 → s.attains acc false (addr i j) 4 (place i j)
    let w := typeBytes t.val
    let rm := Rm.ofFrm x.frm.toNat
    let int (v : Nat) : Int := (BitVec.ofNat 32 v).toInt
    let low : Int := if 4 ≤ t.val then -2 ^ (8 * w - 1) else 0
    let high : Int := if 4 ≤ t.val then 2 ^ (8 * w - 1) - 1 else 2 ^ (8 * w) - 1
    let conv (v : Nat) : Nat × Flags :=
      if x.mType = 4 then
        ((BitVec.ofInt (8 * w) (min high (max low (int v)))).toNat, if low ≤ int v ∧ int v ≤ high then 0 else Flags.sat)
      else Fmt.f32.toFmt (typeFmt t.val) rm v
    x.mM ≤ 32 → x.ecc = [] → s.unhindered →
    (x.heldBytes = [] → reach .read → s.fillsAs s.readsAs (.mld g e a) x.finishV e (fun i _ => s.rowLive g i)
      (fun i j => (s.seenNat (place i j) 4, 0))) ∧
    (x.strip = none → s.mem.wf = true → reach .write →
      Goes (exec (.mst g e a) s) (fun t => t = { s.withRun x.finishV with mem := t.mem, caches := t.caches } ∧
        (∀ y, t.seen y = els.foldl (fun b p => if place p.1 p.2 ≤ y ∧ y < place p.1 p.2 + 4 then
          BitVec.ofNat 8 (x.accAt e p.1 p.2 / 2 ^ (8 * (y - place p.1 p.2))) else b) (s.seen y)) ∧
        (∀ y, (∀ p ∈ els, ¬ (place p.1 p.2 ≤ y ∧ y < place p.1 p.2 + 4)) → t.mem.get y = s.mem.get y))) ∧
    (s.issues [d] w → 0 < x.mM → 0 < x.mN → 0 < x.mK → x.mN ≤ 8 * s.core.lanes → x.mM ≤ x.rgroups s.core.lanes → x.mN ≤ 32 →
      (x.mType = 4 → t.val ∈ [0, 1, 2, 4, 5, 6]) → (x.mType ≠ 4 → t.val ∈ [8, 9, 10, 12, 13]) →
      Goes (exec (.mcvt g d e t) s) (fun u => ∃ (v : Vector VReg 64) (fl : BitVec 6),
        u = s.withRun { x.finishV with v := v, fflags := fl } ∧ (∀ r : Fin 64, r ≠ d → v[r] = x.v[r]) ∧
        (∀ i j, s.rowLive g i → j < x.mN → VReg.get v[d] (128 * i + j * w) w = (conv (x.accAt e i j)).1) ∧
        (∀ o, (∀ i j, s.rowLive g i → j < x.mN → ¬ (128 * i + j * w ≤ o ∧ o < 128 * i + j * w + w)) →
          VReg.get v[d] o 1 = VReg.get x.v[d] o 1) ∧
        (∀ k, fl.getLsbD k = true ↔ x.fflags.getLsbD k = true ∨
          ∃ i j, s.rowLive g i ∧ j < x.mN ∧ (conv (x.accAt e i j)).2.getLsbD k = true))))

/-- spec/12 R303 to R306 and spec/07 R199: each accumulator element (i, j) of a live row and a column below N receives
the products of rows i of A and j of B: for INT8 their sum modulo 2^32, else the chunk sums of R199, each rounded and
added in FP32. `mmga` takes A's rows from the scratchpad at 128 times its index elements. Nothing else changes. -/
def Obligations.MatrixProductResults : Prop :=
  ∀ (s : State) (g : Guard) (c : Bool) (e : Fin 4) (a b : Fin 64) (k : Fin 32) (t : Fin 16),
    let x := s.core.run
    let (M, N, K) := (x.mM, x.mN, x.mK)
    let row (v : Fin 64) (i : Nat) : Nat := VReg.get x.v[v] (128 * i) 128
    let base := (s.reg k).toNat - (2 ^ 64 - 2 ^ 18)
    let padB (j : Nat) : Nat := s.padNat (base + 128 * j) 128
    let index (i : Nat) : Nat := VReg.get x.v[a] (4 * i) 4
    let padA (i : Nat) : Nat := s.padNat (128 * index i) 128
    let int8 (r n : Nat) : Int := (BitVec.ofNat 8 (r / 2 ^ (8 * n))).toInt
    let mac (A B : Nat → Nat) (i j : Nat) : Nat × Flags :=
      if t = 4 then
        ((BitVec.ofInt 32 (x.accAt e i j + ((List.range K).map (fun n => int8 (A i) n * int8 (B j) n)).sum)).toNat, 0)
      else macElem t.val K (A i) (B j) (x.accAt e i j)
    let live (i j : Nat) : Prop := s.rowLive g i ∧ j < N
    let w := if t = 8 ∨ t = 9 then 2 else 1
    let lanesFit : Prop := t.val = x.mType ∧ 0 < M ∧ M ≤ 32 ∧ 0 < N ∧ N ≤ 8 * s.core.lanes ∧ N ≤ 32 ∧ 0 < K ∧ K % 32 = 0
    let inPad : Prop := 2 ^ 64 - 2 ^ 18 ≤ (s.reg k).toNat ∧ (s.reg k).toNat % 128 = 0 ∧ s.padHolds base (128 * N)
    let gathers (m : Nat) : Prop := ∀ i, i < m → s.rowLive g i → s.padHolds (128 * index i) 128
    lanesFit →
    (s.issues [a, b] w → M ≤ x.rgroups s.core.lanes → N ≤ x.rgroups s.core.lanes →
      s.fills (.mmk g c e a b t) x.finishV e live (mac (row a) (row b))) ∧
    (s.issues [a] w → M ≤ x.rgroups s.core.lanes → inPad →
      s.fills (.mmkScratchpad g c e a k t) x.finishV e live (mac (row a) padB)) ∧
    (x.msegEn = false → gathers M →
      (s.issues [a, b] w → N ≤ x.rgroups s.core.lanes →
        s.fills (.mmga g c e a b t) x.finishV e live (mac padA (row b))) ∧
      (s.issues [a] w → inPad → s.fills (.mmgaScratchpad g c e a k t) x.finishV e live (mac padA padB))) ∧
    (∀ i lo hi, x.msegEn = true → s.segment (index 0) = .ok (some (i, lo, hi)) → s.issues [a, b] w →
      N ≤ x.rgroups s.core.lanes → ∀ m, m ≤ M → (∀ r, 1 ≤ r → r < m → lo ≤ index r ∧ index r < hi) →
      (m < M → 1 ≤ m ∧ ¬ (lo ≤ index m ∧ index m < hi)) → gathers m →
      s.fills (.mmga g c e a b t) { x.finishV with msegCur := BitVec.ofNat 16 i } e (fun r j => live r j ∧ r < m)
        (mac padA (row b)))

/-- spec/12 R312, R314 and R315: `vscore` scales its window of score elements, −infinity where inactive; `vpacc`
rescales and accumulates with one rounding; `vtmask` sets a mask bit for the positions before P0 and those of the
row's ancestors. spec/12 R313: in each row, the maximum of the old one and the active elements replaces element 0 of
vb, element 1 of vb receives the rescale factor, and each active element of vd the exponential of its difference from
the maximum, 1 or 0 where the maximum is infinite. FFLAGS gains the flags of those operations, and no other element or
register changes. -/
def Obligations.AttentionResults : Prop :=
  (∀ (s : State) (g : Guard) (c : Bool) (d a b : Fin 64) (q : Fin 16) (e : Fin 4) (k : Fin 32) (m : Fin 8),
    let x := s.core.run
    let rm := Rm.ofFrm x.frm.toNat
    let window (i j : Nat) : Prop := i < 32 ∧ 32 * q.val ≤ j ∧ j < 32 * q.val + 32
    let score (i j : Nat) : Nat × Flags :=
      if x.active g i j then
        let v := x.accAt e (j - 32 * q.val) i
        let y := if x.mType = 4 then Fmt.f32.ofInt rm (BitVec.ofNat 32 v).toInt else (v, 0)
        let z := Fmt.f32.mul rm.arith y.1 ((s.reg k).toNat % 2 ^ 32)
        (z.1, y.2 ||| z.2)
      else (0xFF800000, 0)
    (x.ty = 10 → s.issues [d] 4 →
      s.mapsAt (.vscore g c d q e k) d 4 (fun i j => window i j ∧ x.notBefore (i, j) = true) score) ∧
    (x.ty = 10 → s.issues [d, a, b] 4 → d ≠ b →
      s.mapsAt (.vpacc g c d a b) d 4 (s.does g)
        (fun i j => Fmt.f32.fma rm.arith (x.elem d 4 i j) (x.elem b 4 i 1) (x.elem a 4 i j))) ∧
    (s.issues [a] 0 → x.rc.toNat ≤ 64 → 8 * x.rc.toNat ≤ 128 * x.rgroups s.core.lanes →
      s.mapsMasks (.vtmask g c m a k) g ⟨m.val * 9, by omega⟩ (fun i j =>
        let P := (s.reg k).toNat
        decide (j < P) || (decide (j - P < 64) && (VReg.get x.v[a] (8 * i) 8).testBit (j - P))) (fun _ _ => 0))) ∧
  (∀ (s : State) (g : Guard) (c : Bool) (d a b : Fin 64),
    let x := s.core.run
    let n := x.vl.toNat
    let old (r : Nat) : Nat := x.elem b 4 r 0
    let most (r : Nat) : Nat × Flags := ((List.range n).filter (x.active g r)).foldl (fun m e =>
      let y := Fmt.f32.minmax true m.1 (x.elem a 4 r e)
      (y.1, m.2 ||| y.2)) (old r, 0)
    let top (r : Nat) : Nat := (most r).1
    let exps (r v : Nat) : Nat × Flags :=
      if top r = 0x7F800000 ∨ top r = 0xFF800000 then (if v = top r then 0x3F800000 else 0, 0)
      else
        let d := Fmt.f32.sub .rne v (top r)
        let y := sfExp2 d.1
        (y.1, d.2 ||| y.2)
    let out (r v : Nat) : Nat := (exps r v).1
    s.issues [d, a, b] 4 → x.ty = 10 → d ≠ b → a ≠ b → 0 < n →
    Goes (exec (.vexpm g c d a b) s) (fun t => ∃ (v : Vector VReg 64) (fl : BitVec 6),
      t = s.withRun { x.finishV with v := v, fflags := fl } ∧ (∀ r : Fin 64, r ≠ d → r ≠ b → v[r] = x.v[r]) ∧
      (∀ r, r < x.rc.toNat →
        VReg.get v[b] (x.rowByte r) 4 = top r ∧ VReg.get v[b] (x.rowByte r + 4) 4 = out r (old r) ∧
        (∀ o, 8 ≤ o → o < x.gpr * 128 → VReg.get v[b] (x.rowByte r + o) 1 = VReg.get x.v[b] (x.rowByte r + o) 1) ∧
        (∀ e, e < n → VReg.get v[d] (x.rowByte r + 4 * e) 4 =
          if x.active g r e then out r (x.elem a 4 r e) else x.elem d 4 r e)) ∧
      (∀ o, (∀ r e, s.inTile r e → ¬ (x.rowByte r + 4 * e ≤ o ∧ o < x.rowByte r + 4 * e + 4)) →
        VReg.get v[d] o 1 = VReg.get x.v[d] o 1) ∧
      (∀ k, fl.getLsbD k = true ↔ x.fflags.getLsbD k = true ∨ ∃ r, r < x.rc.toNat ∧
        ((most r).2.getLsbD k = true ∨ (exps r (old r)).2.getLsbD k = true ∨
          ∃ e, e < n ∧ x.active g r e = true ∧ (exps r (x.elem a 4 r e)).2.getLsbD k = true))))

/-! ## Control registers and configuration -/

/-- spec/08 R215 and Tables 10 and 11, spec/09 R239: `cget` reads each control register with its fields in their
places and every reserved bit zero; a privileged register only in a privileged coroutine. Nothing else changes. -/
def Obligations.ControlRegisterReads : Prop :=
  ∀ (s : State) (g : Guard) (d : Fin 32), s.enables g →
    let c := s.core.run
    let q := s.fqAt (dieOf s.core.id)
    let b (x : Bool) : Nat := if x then 1 else 0
    let reads (n : Fin 64) (v : Nat) : Prop := exec (.cget g d n) s = .next (s.wrote d (BitVec.ofNat 64 v))
    let place (i : Fin 4) : Nat := (c.vstart[i]).row.toNat * 2 ^ 16 + (c.vstart[i]).elem.toNat
    reads 0 c.vl.toNat ∧ reads 1 c.rc.toNat ∧ reads 2 c.vstride.toNat ∧ reads 3 c.rstride.toNat ∧ reads 4 c.vtype.toNat ∧
    reads 5 (128 * s.core.lanes / c.nregs * 2 ^ 8 + c.wmax.toNat * 2 ^ 4 + c.nreg.toNat) ∧
    reads 6 (128 * s.core.lanes / c.nregs * 128 / c.wb) ∧ reads 7 c.mshape.toNat ∧
    reads 8 (place 0) ∧ reads 9 (place 1) ∧ reads 10 (place 2) ∧ reads 11 (place 3) ∧
    reads 12 c.vcarry.toNat ∧ reads 13 c.fflags.toNat ∧ reads 14 c.frm.toNat ∧
    reads 15 (c.lc[0]).toNat ∧ reads 16 (c.lc[1]).toNat ∧ reads 17 (c.lc[2]).toNat ∧ reads 18 (c.lc[3]).toNat ∧
    reads 19 (c.ceil.toNat * 2 ^ 8 + c.prio.toNat) ∧ reads 20 (coroWord s.core.id c).toNat ∧
    reads 21 c.stripBase.toNat ∧ reads 22 s.core.lanemask.toNat ∧ reads 23 (b c.errV * 2 ^ 63 + c.errLane.toNat) ∧
    reads 24 (c.errRow.toNat * 2 ^ 16 + c.errElem.toNat) ∧ reads 25 ((8 - s.core.spways) * 2 ^ 4 + s.core.spways) ∧
    reads 26 (b c.msegEn * 2 ^ 63 + c.msegToff.toNat * 2 ^ 32 + c.msegNseg.toNat * 2 ^ 16 + c.msegCur.toNat) ∧
    (c.priv = true →
      reads 32 (s.asidBase.toNat * 2 ^ 19 + b s.asidEn) ∧
      reads 33 (s.core.spillBase.toNat * 2 ^ 21 + b s.core.spillEn) ∧
      reads 34 (b q.en * 2 ^ 63 + q.base.toNat * 2 ^ 12 + q.log.toNat) ∧ reads 35 (q.lost.toNat * 2 ^ 32 + q.head.toNat) ∧
      reads 36 q.tail.toNat ∧ reads 37 q.baton.toNat) ∧
    (∀ n : Fin 64, 32 ≤ n.val → n.val < 38 → c.priv = false →
      exec (.cget g d n) s = .next (s.raise .privInstruction)) ∧
    (∀ n : Fin 64, (27 ≤ n.val ∧ n.val < 32) ∨ 38 ≤ n.val → exec (.cget g d n) s = .next (s.raise .cregInvalid))

/-- spec/08 R215 and Table 11, spec/06 R177, spec/02 R68, spec/15 R363: `cset` writes the fields of a register and no
other field of the machine; FRM takes 0 for a reserved mode, an unprivileged PRIO no more than CEIL, FQBASE.LOG 6 for
one outside 6 to 16, FQHEAD.COUNT nothing, and SPILLBASE nothing while a context is spilled. A register that is RO or
not assigned traps with CREG_INVALID, and a privileged one in an unprivileged coroutine with PRIV_INSTRUCTION. -/
def Obligations.ControlRegisterWrites : Prop :=
  ∀ (s : State) (g : Guard) (a : Fin 32), s.enables g →
    let v := s.reg a
    let c := s.core.run
    let die := dieOf s.core.id
    let q := s.fqAt die
    let p := s.passed
    let writes (n : Fin 64) (k : Coro) : Prop :=
      exec (.cset g n a) s = .next (s.withRun { k with pc := c.pc + 4 })
    let gives (n : Fin 64) (t : State) : Prop := exec (.cset g n a) s = .next t
    let vs (i : Fin 4) : Coro := { c with vstart := c.vstart.set i ⟨v.extractLsb' 16 8, v.extractLsb' 0 14⟩ }
    let lc (i : Fin 4) : Coro := { c with lc := c.lc.set i (v.extractLsb' 0 32) }
    let low := v.extractLsb' 0 5
    writes 0 { c with vl := v.extractLsb' 0 14 } ∧ writes 1 { c with rc := v.extractLsb' 0 8 } ∧
    writes 2 { c with vstride := v } ∧ writes 3 { c with rstride := v } ∧ writes 4 { c with vtype := v.extractLsb' 0 4 } ∧
    writes 8 (vs 0) ∧ writes 9 (vs 1) ∧ writes 10 (vs 2) ∧ writes 11 (vs 3) ∧ writes 12 { c with vcarry := v } ∧
    writes 13 { c with fflags := v.extractLsb' 0 6 } ∧
    writes 14 { c with frm := if v.toNat % 8 < 5 then v.extractLsb' 0 3 else 0 } ∧
    writes 15 (lc 0) ∧ writes 16 (lc 1) ∧ writes 17 (lc 2) ∧ writes 18 (lc 3) ∧
    writes 19 { c with prio := if c.priv = false ∧ c.ceil.toNat < low.toNat then c.ceil else low } ∧
    writes 23 { c with errV := v.getLsbD 63, errLane := low } ∧
    writes 24 { c with errRow := v.extractLsb' 16 8, errElem := v.extractLsb' 0 14 } ∧
    writes 26 { c with msegEn := v.getLsbD 63, msegToff := v.extractLsb' 32 18, msegNseg := v.extractLsb' 16 16,
                       msegCur := v.extractLsb' 0 16 } ∧
    (c.priv = true →
      gives 32 { p with asidBase := v.extractLsb' 19 33, asidEn := v.getLsbD 0,
                        caches := { s.caches with walks := [], asids := [] } } ∧
      gives 33 (if s.core.coros.any (fun k => k.place == .spill) then p
        else { p with core := { p.core with spillBase := v.extractLsb' 21 31, spillEn := v.getLsbD 0 } }) ∧
      gives 34 (p.setFq die { q with
        en := v.getLsbD 63
        base := v.extractLsb' 12 40
        log := if 6 ≤ low.toNat ∧ low.toNat ≤ 16 then low else 6 }) ∧
      gives 35 (p.setFq die { q with lost := v.extractLsb' 32 16 }) ∧
      gives 36 (p.setFq die { q with tail := v.extractLsb' 0 32 }) ∧ gives 37 (p.setFq die { q with baton := v })) ∧
    (∀ n : Fin 64, 32 ≤ n.val → n.val < 38 → c.priv = false → gives n (s.raise .privInstruction)) ∧
    (∀ n : Fin 64, n.val ∈ [5, 6, 7, 20, 21, 22, 25, 27, 28, 29, 30, 31] ∨ 38 ≤ n.val → gives n (s.raise .cregInvalid))

/-- spec/06 R158 and R161: `vcfg` sets NREG and WMAX, VL to VLMAX, RC to 1, the VSTART registers, VCARRY, every vector
register and every mask to 0, and returns VLMAX; with no lane group in service it traps with LANE_RETIRED. spec/02 R49
to R52 and spec/09 R242: `spsplit` gives the scratchpad #k ways, keeps the bytes of the ways that were in it before,
and makes those it gains read zero; it returns the ways that there were, and no L1 line is left in a way that the
scratchpad has now. It waits for the stores that the coroutine has posted to other cores, begun and no longer to be
interrupted, and changes nothing else meanwhile. -/
def Obligations.ConfiguringAndSplitting : Prop :=
  ∀ (s : State) (g : Guard) (d : Fin 32) (r w : Fin 4) (k : Fin 16), s.enables g →
    let c := s.core.run
    let vlmax := 128 * s.core.lanes / 2 ^ (r.val + 3) * 128 / 2 ^ w.val
    let base := padStore s.core.id
    let old := s.withRun { (s.wrote d (BitVec.ofNat 64 s.core.spways)).core.run with flight := none }
    (s.core.lanes = 0 → exec (.vcfg g d r w) s = .next (s.raise .laneRetired)) ∧
    (s.core.lanes ≠ 0 → exec (.vcfg g d r w) s = .next (s.withRun { c with
      nreg := BitVec.ofNat 2 r.val, wmax := BitVec.ofNat 2 w.val, vl := BitVec.ofNat 14 vlmax, rc := 1
      vstart := Vector.replicate 4 ⟨0, 0⟩, vcarry := 0, v := Vector.replicate 64 0, m := Vector.replicate 7 0
      s := s.regsWith d (BitVec.ofNat 64 vlmax), pc := c.pc + 4 })) ∧
    (c.strip.isSome = true → exec (.spsplit g d k) s = .next (s.raise .stripSync)) ∧
    (c.strip = none → s.posted = true →
      exec (.spsplit g d k) s = .next (s.withRun { c with flight := some { c.flight.getD {} with held := true } })) ∧
    (c.strip = none → s.posted = false → k.val ≤ 8 → s.core.spways ≤ 8 → s.mem.wf = true →
      (∀ q ∈ s.core.queue, ∃ m, q = .message m) →
      (∀ l ∈ s.caches.l1, l.core = s.core.id → l.way < k.val → l.dirty = 0) →
      Goes (exec (.spsplit g d k) s) (fun t =>
        (∃ bad, t = { old with core := { old.core with spways := k.val }, mem := t.mem, caches := t.caches, padPoison := bad }) ∧
        (k.val ≠ s.core.spways → ∀ l ∈ t.caches.l1, l.core = s.core.id → k.val ≤ l.way) ∧
        ∀ x, t.mem.get x = if k.val ≠ s.core.spways ∧ base + min k.val s.core.spways * 32768 ≤ x ∧ x < base + 8 * 32768
          then 0 else s.mem.get x))

/-! ## Position translation and duplex streams -/

/-- spec/12 R317 to R319: `pxl` writes to each active element the base of its position's page plus the position's low
four bits times the step, once every one of them has translated; the first that has not starts the handler of shadow
register 7, with the stream, the page and the position in s24 to s26, or traps with POSITION_MISS without one; VSTART
names it (spec/15 R361; that it does where a handler starts is the model's reading, log 54). `pxret` gives the
coroutine its own s24 to s31 and its `pxl` again; outside a handler it traps with POSITION_FAULT. `pxw` writes an
entry, `pxinv` drops the caller's entries at and above a page, and the privileged `pxw.sh` writes a shadow register.
-/
def Obligations.PositionTranslationResults : Prop :=
  ∀ (s : State) (g : Guard) (d a : Fin 64) (b x : Fin 32) (k : Fin 8),
    let c := s.core.run
    let stream : BitVec 16 := (s.reg b).setWidth 16
    let step := (s.reg b).toNat / 2 ^ 32 % 2 ^ 16
    let pos (r e : Nat) : BitVec 32 := BitVec.ofNat 32 (c.elem a 8 r e)
    let found (r e : Nat) : Option PtbEntry := s.core.ptbFind c.asid stream (pos r e >>> 4)
    let quiet : State := { s with core := { s.core with pxLast := none } }
    let missed (r e : Nat) : State :=
      { quiet with core := { quiet.core with run := { c with vstart := c.vstart.set c.pos ⟨BitVec.ofNat 8 r, BitVec.ofNat 14 e⟩ } } }
    (s.issues [d, a] 8 → c.vtype = 3 →
      (∀ base : Nat → Nat → PtbEntry,
        (∀ r e, s.inTile r e → c.active g r e = true → found r e = some (base r e)) →
        exec (.pxl g d a b) s = exec (.pxl g d a b) quiet ∧
        quiet.mapsAt (.pxl g d a b) d 8 (fun r e => c.active g r e = true)
          (fun r e => (((base r e).base + BitVec.ofNat 64 ((pos r e).toNat % 16 * step)).toNat, 0))) ∧
      (∀ r e, s.inTile r e → c.active g r e = true → found r e = none →
        (∀ r' e', s.inTile r' e' → c.active g r' e' = true → (r' < r ∨ r' = r ∧ e' < e) → found r' e' ≠ none) →
        s.core.pxLast ≠ some (stream, pos r e >>> 4) →
        (s.core.shadow[7] = 0 →
          exec (.pxl g d a b) s = .next ((missed r e).raiseAt .positionMiss (r * c.vl.toNat + e) 0)) ∧
        (s.core.shadow[7] ≠ 0 → Goes (exec (.pxl g d a b) s) (fun t => ∃ q : PxRun,
          t = { quiet with core := { quiet.core with px := some q, run :=
            { (missed r e).core.run with s := t.core.run.s, pc := s.core.shadow[7] } } } ∧
          q.pc = c.pc ∧ q.saved = c.s ∧ (∀ i : Fin 32, i.val < 24 → t.core.run.s[i] = c.s[i]) ∧
          t.core.run.s[24] = stream.setWidth 64 ∧ t.core.run.s[25] = (pos r e >>> 4).setWidth 64 ∧
          t.core.run.s[26] = (pos r e).setWidth 64 ∧ t.core.run.s[27] = s.core.shadow[3])))) ∧
    (s.enables g →
      (∀ p, s.core.px = some p → s.core.slot = none → s.core.live = .running → Goes (exec (.pxret g) s) (fun t =>
        t = { s with core := { s.core with px := none, pxLast := some (p.stream, p.page), shadow := t.core.shadow,
                                           run := { c with pc := p.pc, s := t.core.run.s } } } ∧
        (∀ i : Fin 32, t.core.run.s[i] = if i.val < 24 then c.s[i] else p.saved[i]) ∧
        ∀ i : Fin 8, t.core.shadow[i] = c.s[i.val + 24])) ∧
      (s.core.px = none → exec (.pxret g) s = .next (s.raise .positionFault)) ∧
      (s.core.ptb.length < 64 → Goes (exec (.pxw g x b) s) (fun t =>
        t.core.run = s.passed.core.run ∧ t.mem = s.mem ∧ ∀ id st pg, (t.core.ptbFind id st pg).map (·.base) =
          if id = c.asid ∧ st = (s.reg x).setWidth 16 ∧ pg = (s.reg x).extractLsb' 16 32 then some (s.reg b &&& ~~~0x3F)
          else (s.core.ptbFind id st pg).map (·.base))) ∧
      Goes (exec (.pxinv g x b) s) (fun t =>
        t.core.run = s.passed.core.run ∧ t.mem = s.mem ∧ ∀ id st pg, t.core.ptbFind id st pg =
          if id = c.asid ∧ ((s.reg x).getLsbD 63 = true ∨ st = (s.reg x).setWidth 16) ∧ (s.reg b).setWidth 32 ≤ pg then none
          else s.core.ptbFind id st pg) ∧
      (c.priv = true → exec (.pxwSh g x k) s =
        .next { s.passed with core := { s.passed.core with shadow := s.core.shadow.set k (s.reg x) } }) ∧
      (c.priv = false → exec (.pxwSh g x k) s = .next (s.raise .privInstruction)))

/-- spec/12 R320 to R322 and spec/13 R326: on the record that its operand names, `dsadv` advances GCUR by one where
the epoch, the window of 63 positions and PEND allow it, and writes the guards with whether it did; `dsplay` moves
PCUR towards its operand, up to GCUR and never back; `dstrunc` advances EPOCH and truncates to PCUR, and `dsframe`
stamps FRAME, advances EPOCH, truncates with B = 1 and returns the new EPOCH; either traps with LATE_FRAME for a
cursor older than the snapshots. A truncation that gives up positions waits for its clean-up; one that does not is
over. spec/13 R331 and R336 to R338: a clean-up whose turn comes on a stalled record ends with its baton
error-signalled with FAIL; on another it takes the record's fields and goes on, and a size out of range fails it. It
sets bit 0 of the table entry of each page above the cursor, unless that is 0, then drops the position entries there,
then reads the slot's tag, which must be the cursor, copies SNAPSZ bytes to STATE in beats of 128, and reads the tag
again; a tag that differs leads to the mirror ring, once, if there is one, and otherwise to SNAPSHOT_LOST. Each part
is a step of its own, which is the model's choice (log 67). Completion takes one from PEND and signals the baton;
failure writes FAIL, writes or counts its advisory record, and error-signals. -/
def Obligations.StreamResults : Prop :=
  (∀ (s : State) (g : Guard) (d : Fin 64) (rd a b : Fin 32) (pa : Nat), s.enables g → s.holdsRecord (s.reg a) pa → s.rests →
    let r := s.mem.readNat pa 128
    let gcur := fieldOf r 0 4
    let pcur := fieldOf r 4 4
    let epoch := fieldOf r 8 4
    let sb := (s.reg b).toNat
    let p := sb % 2 ^ 32
    let moves : Prop := sb / 2 ^ 32 = epoch ∧ p = gcur + 1 ∧ p ≤ pcur + 63 ∧ fieldOf r 18 2 = 0
    let cut (x c : Nat) : Nat :=
      let y := withField x 4 4 (min pcur c)
      if c + 1 < gcur then withField (withField y 0 4 (c + 1)) 18 2 (fieldOf r 18 2 + 1) else y
    let timed := withField r 8 4 (epoch + 1)
    let framed := withField (withField r 12 4 p) 8 4 (epoch + 1)
    let goes (i : Instr) (u : State) (r' : Nat) : Prop :=
      Goes (exec i s) (fun t => t = { u with mem := s.putRecord pa r r', caches := t.caches })
    let late (i : Instr) : Prop := ∃ k, exec i s = .next (({ s with caches := k } : State).raise .lateFrame)
    let cleans (t : State) (c : Nat) : Prop :=
      (∃ u ∈ t.cleanups, u.record = pa ∧ u.cursor = c ∧ u.oldG = gcur ∧ u.baton = 0 ∧ u.stage = .queued) ∧
      (s.cleanups = [] → Event.truncationCleanup pa ∈ t.agenda)
    (pairOk d = true →
      (moves → Goes (exec (.dsadv g d a b) s) (fun t => ∃ u, s.Compared u d true 0 ∧
        t = { u with mem := s.putRecord pa r (withField r 0 4 p), caches := t.caches })) ∧
      (¬ moves → Goes (exec (.dsadv g d a b) s) (fun t => ∃ u, s.Compared u d false 0 ∧ t = { u with caches := t.caches }))) ∧
    goes (.dsplay g a b) s.passed (withField r 4 4 (min (max pcur p) gcur)) ∧
    (s.reg b = 0 → pcur < gcur - 63 → late (.dstrunc g a b)) ∧
    (s.reg b = 0 → fieldOf r 24 8 = 0 → gcur - 63 ≤ pcur →
      (gcur ≤ pcur + 1 → goes (.dstrunc g a b) s.passed (cut timed pcur)) ∧
      (pcur + 1 < gcur → Goes (exec (.dstrunc g a b) s) (fun t => cleans t pcur ∧
        t.mem = s.putRecord pa r (cut timed pcur) ∧ t.core = s.passed.core ∧ t.batons = s.batons))) ∧
    (2 ^ 33 ≤ sb → exec (.dsframe g rd a b) s = .next (s.raise .streamInvalid)) ∧
    (sb < 2 ^ 33 → p < gcur - 63 → late (.dsframe g rd a b)) ∧
    (sb < 2 ^ 32 → gcur - 63 ≤ p →
      goes (.dsframe g rd a b) (s.wrote rd (BitVec.ofNat 64 ((epoch + 1) % 2 ^ 32))) framed) ∧
    (2 ^ 32 ≤ sb → sb < 2 ^ 33 → gcur - 63 ≤ p → fieldOf r 24 8 = 0 → p + 1 < gcur →
      Goes (exec (.dsframe g rd a b) s) (fun t => cleans t p ∧ t.mem = s.putRecord pa r (cut framed p) ∧
        t.core = (s.wrote rd (BitVec.ofNat 64 ((epoch + 1) % 2 ^ 32))).core ∧ t.batons = s.batons)) ∧
    (2 ^ 32 ≤ sb → sb < 2 ^ 33 → gcur - 63 ≤ p → fieldOf r 24 8 = 0 → gcur ≤ p + 1 →
      goes (.dsframe g rd a b) (s.wrote rd (BitVec.ofNat 64 ((epoch + 1) % 2 ^ 32))) (cut framed p))) ∧
  (∀ (s : State) (pa : Nat) (u : Cleanup) (r : Nat),
    s.cleanups.find? (·.record == pa) = some u → s.mem.wf = true →
    let who : Who := ⟨u.asid, u.priv, none, u.slot, none⟩
    let size (x : Nat) : Nat := fieldOf x 40 4
    let good : Prop := fieldOf r 21 1 ≤ 24 ∧ size r ≠ 0 ∧ size r % 128 = 0 ∧ size r ≤ 2 ^ 24
    let page (k : Nat) : Nat := (u.cursor + 1) / 16 + 1 + k
    let entry (k : Nat) : Word := BitVec.ofNat 64 (fieldOf u.rec_ 64 8) + BitVec.ofNat 64 (8 * (page k % 2 ^ fieldOf u.rec_ 21 1))
    let ring (mirror : Bool) : Word := BitVec.ofNat 64 (fieldOf u.rec_ (if mirror then 56 else 48) 8) +
      BitVec.ofNat 64 (u.cursor % 64 * (size u.rec_ + 128))
    let mirrored : Prop := fieldOf u.rec_ 20 1 % 2 = 1
    let step (st : CleanStage) (e : Event) (rec_ : Nat) (m : Memory) (same : State → Prop) : Prop :=
      Goes (exec (.truncationCleanup pa) s) (fun t =>
        t.cleanups.find? (·.record == pa) = some { u with stage := st, rec_ := rec_ } ∧ e ∈ t.agenda ∧ t.mem = m ∧
        (∀ x, x.record ≠ pa → (x ∈ t.cleanups ↔ x ∈ s.cleanups)) ∧ t.core.run = s.core.run ∧ t.batons = s.batons ∧ same t)
    let next (st : CleanStage) (m : Memory) : Prop := step st (.truncationCleanup pa) u.rec_ m (fun t => t.core.ptb = s.core.ptb)
    let fails (lost : Bool) : Prop := step .failed (.cleanupFailed pa lost .none) u.rec_ s.mem (fun t => t.core.ptb = s.core.ptb)
    let die := u.coro.toNat / 2 ^ 50 % 16
    let q := s.fqAt die
    let place := q.base.toNat * 4096 + 64 * (q.head.toNat % 2 ^ q.log.toNat)
    (u.stage = .queued → s.recordReads u r →
      (fieldOf r 22 1 ≠ 0 → Goes (exec (.truncationCleanup pa) s) (fun t => t.mem = s.mem ∧ t.core.run.s = s.core.run.s ∧
        t.cleanups = s.cleanups.erase u ∧ s.completesErr t u.baton (BitVec.ofNat 8 (fieldOf r 22 1)))) ∧
      (fieldOf r 22 1 = 0 → good → u.oldG / 16 < page 0 →
        step .positions (.truncationCleanup pa) (r % 2 ^ 512) s.mem (fun t => t.core.ptb = s.core.ptb)) ∧
      (fieldOf r 22 1 = 0 → good → page 0 ≤ u.oldG / 16 →
        step (.detach 0) (.truncationCleanup pa) r s.mem (fun t => t.core.ptb = s.core.ptb)) ∧
      (fieldOf r 22 1 = 0 → ¬ good → fails false)) ∧
    (∀ k p, u.stage = .detach k → page k ≤ u.oldG / 16 → (entry k).toNat % 8 = 0 → s.finds who .atomic (entry k) 8 p →
      let old := s.mem.readNat p 8
      next (.detach (k + 1)) (if old = 0 then s.mem else s.mem.write p (leBytes 8 (old ||| 1)))) ∧
    (∀ k, u.stage = .detach k → u.oldG / 16 < page k → next .positions s.mem) ∧
    (u.stage = .positions → step (.tag false false) (.truncationCleanup pa) u.rec_ s.mem (fun t => ∀ p, p ∈ t.core.ptb ↔
      p ∈ s.core.ptb ∧ ¬ (p.asid = u.asid ∧ p.stream.toNat = fieldOf u.rec_ 16 2 ∧ (u.cursor + 1) / 16 < p.page.toNat))) ∧
    (∀ mirror again p, u.stage = .tag mirror again → s.finds who .read (ring mirror) 8 p →
      (s.mem.readNat p 8 = u.cursor → again = false → next (.copy mirror 0) s.mem) ∧
      (s.mem.readNat p 8 = u.cursor → again = true →
        step .ended (.cleanupComplete pa) u.rec_ s.mem (fun t => t.core.ptb = s.core.ptb)) ∧
      (s.mem.readNat p 8 ≠ u.cursor →
        (mirror = false → mirrored → next (.tag true false) s.mem) ∧ (mirror = true ∨ ¬ mirrored → fails true))) ∧
    (∀ mirror n, u.stage = .copy mirror n →
      (size u.rec_ / 128 ≤ n → next (.tag mirror true) s.mem) ∧
      (∀ src dst, n < size u.rec_ / 128 → s.findsBeat who .read (ring mirror + BitVec.ofNat 64 (128 + 128 * n)) src →
        s.findsBeat who .write (BitVec.ofNat 64 (fieldOf u.rec_ 32 8) + BitVec.ofNat 64 (128 * n)) dst →
        next (.copy mirror (n + 1)) (s.mem.write dst (s.mem.read src 128)))) ∧
    (u.stage = .ended → s.recordReads u r → Goes (exec (.cleanupComplete pa) s) (fun t =>
      t.mem = s.mem.write (hbmStore pa) (leBytes 128 (withField r 18 2 (fieldOf r 18 2 + 65535))) ∧
      t.cleanups = s.cleanups.erase u ∧ ((t.cleanups.any (·.record == pa)) = true → Event.truncationCleanup pa ∈ t.agenda) ∧
      t.core.run.s = s.core.run.s ∧ s.completes t u.baton)) ∧
    (∀ (lost : Bool) (c : Cause), u.stage = .failed → s.recordReads u r →
      let code := if lost then 4 else 5
      let put := s.mem.write (hbmStore pa) (leBytes 128 (withField r 22 1 code))
      let ends (P : State → Prop) : Prop := Goes (exec (.cleanupFailed pa lost c) s) (fun t =>
        t.cleanups = s.cleanups.erase u ∧ t.core.run.s = s.core.run.s ∧ s.completesErr t u.baton (BitVec.ofNat 8 code) ∧ P t)
      (q.writable = false → ends (fun t => t.mem = put ∧ (q.lost ≠ 0xFFFF → (t.fqAt die).lost = q.lost + 1))) ∧
      (q.writable = true → q.baton = 0 → s.inSpillRegion place = false → s.inSpillRegion (place + 63) = false →
        (place + 64 ≤ hbmStore pa ∨ hbmStore pa + 128 ≤ place) → ends (fun t =>
          (∀ x, ¬ (place ≤ x ∧ x < place + 64) → t.mem.get x = put.get x) ∧ (t.fqAt die).head = q.head + 1 ∧
          t.hbmWord place = 5 + c.code * 2 ^ 16 + u.inc.toNat * 2 ^ 32 ∧ t.hbmWord (place + 8) = u.coro.toNat ∧
          t.hbmWord (place + 16) = 0 ∧ t.hbmWord (place + 24) = u.cursor % 2 ^ 64 ∧ t.hbmWord (place + 32) = u.va.toNat ∧
          t.hbmWord (place + 40) = 0))))

/-! ## Address spaces and maintenance -/

/-- spec/01 R33 to R40 and R43, spec/09 R246 to R248 and spec/11 R294: `asid.bind` writes the entry of a Free address
space, Bound with the KEY and ROOT of its operand; `asid.retire` makes a Bound one Retiring, and `xlinv` orders an
invalidation: each joins its die's outstanding operations, 16 at most, once every earlier store of the coroutine is
performed, and holds its completion baton; the retirement of a Free address space signals at once; a noncanonical
address traps, and `xlinv` inside an open strip. spec/11 R294, spec/04 R105, R108, R114 and R127: a fence waits, with
nothing changed, for the stores that the coroutine has posted to other cores; below `.clus` it then only moves on, and
from `.clus` on every byte that a store has left in the core's L1 is performed at its home, and the L1 keeps what an
acquire leaves, which is the model's reading for one after a read (log 35). Where it orders vector accesses before
scalar ones it shows what an open strip holds; at `.core` or wider it traps inside one. spec/01 R36, R40, R48 and
Table 13: an outstanding operation completes once no access still uses what it covers: no translation cache of a core
or a relay engine holds what is covered, no walk cache the pointers on its path, and no ASID cache its address space,
and its baton is signalled; a near-window address and an address space that is not Bound cover nothing. The retirement
of an address space also drops its position translations and makes its entry Free. -/
def Obligations.AddressSpaceInstructionResults : Prop :=
  (∀ (s : State) (g : Guard) (d a b : Fin 32), s.enables g →
    let id := (s.reg d).toNat % 2 ^ 16
    let w := (s.reg a).toNat
    let root := w / 2 ^ 13 % 2 ^ 39 * 2 ^ 13
    let entry := s.hbmWord (s.asidBase.toNat * 2 ^ 19 + 8 * id)
    let place := s.asidBase.toNat * 2 ^ 19 + 8 * id
    let die := dieOf s.core.id
    let free : Prop := (s.maint.filter (fun m => m.1 == die)).length < 16
    let named (h : Word) : Prop := h = 0 ∨ s.maySignal h
    let ordered (i : Instr) (kind : MaintKind) (h : Word) : Prop :=
      (s.core.run.strip ≠ none → exec i s = .next (s.raise .stripSync)) ∧
      (s.core.run.strip = none → ¬ free ∨ s.posted = true → exec i s = .next s) ∧
      (s.core.run.strip = none → free → s.rests → Goes (exec i s) (fun t => t.maint = s.maint ++ [(die, ⟨kind, h⟩)] ∧
        Event.maintenanceComplete die (s.maint.filter (fun m => m.1 == die && m.2.retires.isNone)).length ∈ t.agenda ∧
        t.core = s.passed.core ∧ t.mem = s.mem ∧ s.heldIn t h))
    let open_ : Prop := s.inSpillRegion place = false ∧ s.inSpillRegion (place + 7) = false
    (s.core.run.priv = true →
      (s.asidEn = false → exec (.asidBind g d a) s = .next (s.raise .asidUnbound)) ∧
      (s.asidEn = true → tablePlace root = false → exec (.asidBind g d a) s = .next (s.raise .tableMalformed)) ∧
      (s.asidEn = true → tablePlace root = true → entry % 4 = 1 ∨ entry % 4 = 2 →
        exec (.asidBind g d a) s = .next (s.raise .asidNotQuiescent)) ∧
      (s.asidEn = true → tablePlace root = true → entry % 4 ≠ 1 → entry % 4 ≠ 2 → open_ →
        Goes (exec (.asidBind g d a) s) (fun t => t.core = s.passed.core ∧ t.batons = s.batons ∧
          t.mem = s.mem.write place (leBytes 8 (w / 2 ^ 58 * 2 ^ 58 + root + 1)))) ∧
      (named (s.reg a) → free → entry % 4 = 1 → open_ → s.rests →
        Goes (exec (.asidRetire g d a) s) (fun t => t.core = s.passed.core ∧
          t.mem = s.mem.write place (leBytes 8 (entry + 1)) ∧ t.maint = s.maint ++ [(die, ⟨.retire id, s.reg a⟩)] ∧
          Event.asidRetirementComplete id ∈ t.agenda ∧ s.heldIn t (s.reg a))) ∧
      (named (s.reg a) → free → entry % 4 = 2 → open_ → s.rests →
        Goes (exec (.asidRetire g d a) s) (fun t => t.core = s.passed.core ∧ t.mem = s.mem ∧
          t.maint = s.maint ++ [(die, ⟨.retire id, s.reg a⟩)] ∧ Event.asidRetirementComplete id ∈ t.agenda ∧
          s.heldIn t (s.reg a))) ∧
      (named (s.reg a) → free → entry % 4 ≠ 1 → entry % 4 ≠ 2 → open_ → s.rests →
        Goes (exec (.asidRetire g d a) s) (fun t => t.core.run = s.passed.core.run ∧ t.mem = s.mem ∧ t.maint = s.maint ∧
          (s.reg a = 0 → t.batons = s.batons) ∧ (s.reg a ≠ 0 →
            s.batonIs t (s.reg a) { s.baton (handleKey (s.reg a)) with count := (s.baton (handleKey (s.reg a))).count + 1 }))) ∧
      (named (s.reg a) → (¬ free ∨ s.posted = true) → open_ → exec (.asidRetire g d a) s = .next s) ∧
      (named (s.reg b) → canonical (s.reg d) = true →
        ordered (.xlinvVa g d a b) (.va (s.reg d) ((s.reg a).toNat % 2 ^ 16)) (s.reg b)) ∧
      (canonical (s.reg d) = false →
        exec (.xlinvVa g d a b) s = .next (s.raiseAt .addrNoncanonical 0 (s.reg d))) ∧
      (named (s.reg a) → ordered (.xlinvAsid g d a) (.asid id) (s.reg a)) ∧
      (named (s.reg d) → ordered (.xlinvGlob g d) .glob (s.reg d)))) ∧
  (∀ (s : State) (g : Guard) (k : Fin 4) (sc : Fin 8), s.enables g →
    let mine (l : L1Line) : Prop := l.core = s.core.id
    let shows : Prop := k = 1 ∨ k = 3
    (sc ≠ 0 → s.core.run.strip.isSome = true → exec (.fence g k sc) s = .next (s.raise .stripSync)) ∧
    (sc = 0 ∨ s.core.run.strip = none → s.posted = true → exec (.fence g k sc) s = .next s) ∧
    (s.core.run.strip = none → s.posted = false → sc.val < 2 → exec (.fence g k sc) s = .next s.passed) ∧
    (∀ st, sc = 0 → s.core.run.strip = some st → s.posted = false → exec (.fence g k sc) s =
      .next (if shows then s.passed.withRun { s.passed.core.run with strip := some { st with shown := s.core.run.heldBytes } }
        else s.passed)) ∧
    (s.core.run.strip = none → s.rests → 2 ≤ sc.val → Goes (exec (.fence g k sc) s) (fun t => s.acquires t s.passed)) ∧
    (s.core.run.strip = none → s.posted = false → 2 ≤ sc.val → s.mem.wf = true →
      (∀ l ∈ s.caches.l1, mine l → l.line < 2 ^ 54 ∧ l.bad = 0 ∧ (∃ pa, l.x.target = .hbm pa) ∧
        (∀ b, b < 4 → s.blockKey (64 * l.line + 16 * b) = some (s.keyMat l.x.key)) ∧
        ∀ m ∈ s.caches.l1, mine m → m.line = l.line → m = l) →
      Goes (exec (.fence g k sc) s) (fun t => t.core = s.passed.core ∧ t.batons = s.batons ∧
        (∀ l ∈ t.caches.l1, mine l → l.loose = 0 ∧ l.acquired = l) ∧
        (∀ l ∈ s.caches.l1, mine l → ∀ i, i < 64 → l.dirty.getLsbD i = true → l.owned.getLsbD (i / 4) = false →
          t.mem.get (64 * l.line + i) = l.byte i) ∧
        (∀ a, (∀ l ∈ s.caches.l1, mine l → l.line = a / 64 → l.dirty.getLsbD (a % 64) = false) → t.mem.get a = s.mem.get a)))) ∧
  (∀ (s : State) (die idx id : Nat) (m : Nat × Maint),
    (∀ c ∈ s.cores, ∀ k ∈ c.allCoros, k.strip = none ∧ k.pending = [] ∧ k.flight = none) → (∀ c ∈ s.cores, c.orphans = []) →
    (∀ l ∈ s.caches.l1, l.loose = 0) →
    let place := s.asidBase.toNat * 2 ^ 19 + 8 * id
    let entry := s.hbmWord place
    let bound (n : Nat) : Prop := s.inSpillRegion (s.asidBase.toNat * 2 ^ 19 + 8 * n) = false ∧
      s.hbmWord (s.asidBase.toNat * 2 ^ 19 + 8 * n) % 4 = 1
    let covers (k : MaintKind) (t : TlbEntry) : Prop := match k with
      | .va a n => a.toNat < 2 ^ 64 - 2 ^ 26 ∧ bound n ∧ (t.glob = true ∨ t.asid = n) ∧ t.base ≤ a.toNat % 2 ^ 56 ∧ a.toNat % 2 ^ 56 < t.base + leafBytes t.level
      | .asid n => bound n ∧ t.glob = false ∧ t.asid = n
      | .glob => t.glob = true
      | .retire n => t.glob = false ∧ t.asid = n
    let cleared (t : State) (k : MaintKind) : Prop := t.core.run.s = s.core.run.s ∧ t.core.id = s.core.id ∧
      (∀ c ∈ t.cores, (∀ e ∈ c.tlb, ¬ covers k e) ∧ ∀ e ∈ c.fetchTlb, ¬ covers k e) ∧
      (∀ e ∈ t.caches.relays, ¬ covers k e.2) ∧
      (∀ n, k = .asid n ∧ bound n ∨ k = .retire n → (∀ w ∈ t.caches.walks, w.asid ≠ n) ∧ ∀ e ∈ t.caches.asids, e.2.1 ≠ n) ∧
      (∀ a n, k = .va a n → a.toNat < 2 ^ 64 - 2 ^ 26 → bound n →
        ∀ w ∈ t.caches.walks, w.asid = n → w.upper ≠ a.toNat % 2 ^ 56 / leafBytes w.level) ∧
      ∀ e ∈ s.core.tlb, ¬ covers k e → e ∈ t.core.tlb
    ((s.maint.filter (fun m => m.1 == die && m.2.retires.isNone))[idx]? = some m →
      Goes (exec (.maintenanceComplete die idx) s) (fun t => cleared t m.2.kind ∧ t.maint = s.maint.erase m ∧
        t.mem = s.mem ∧ s.completes t m.2.baton)) ∧
    (entry % 4 = 2 → s.maint.filter (fun m => m.2.retires == some id) = [m] →
      s.inSpillRegion place = false → s.inSpillRegion (place + 7) = false →
      Goes (exec (.asidRetirementComplete id) s) (fun t => cleared t (.retire id) ∧
        (∀ c ∈ t.cores, ∀ p ∈ c.ptb, p.asid.toNat ≠ id) ∧ t.mem = s.mem.write place (leBytes 8 (entry - 2)) ∧
        t.maint = s.maint.filter (fun m => m.2.retires != some id) ∧ s.completes t m.2.baton)))

/-! ## The starter -/

/-- spec/12 R323 and R324, spec/14 R342, R343, R350 and R352: `launch` answers 0x02 for a record that is not 128-byte
aligned or not good, 0x01 for a full queue and 0x03 for an object that its queue does not hold; a record it accepts
waits in its queue under the next journal number, which it returns shifted left by 8, with its accept entry in the
start list. `cancel` answers 0x05 for no record, 0x04 for one that has dispatched, and takes a queued one out. Both
are privileged, and `launch` traps inside an open strip and waits for the stores that the coroutine has posted. -/
def Obligations.LaunchAndCancelResults : Prop :=
  ∀ (s : State) (g : Guard) (d a : Fin 32),
    (s.core.run.priv = false → exec (.launch g d a) s = .next (s.raise .privInstruction) ∧
      exec (.cancel g d a) s = .next (s.raise .privInstruction)) ∧
    (s.enables g → s.core.run.priv = true →
    let y := s.starter
    let seq := y.jno + 1
    let at_ (j : Nat) : Nat := y.slBase.toNat * 4096 + 32 * (j % 2 ^ y.slLog.toNat)
    let open_ (j : Nat) : Prop := s.inSpillRegion (at_ j) = false ∧ s.inSpillRegion (at_ j + 31) = false
    (s.core.run.strip ≠ none → exec (.launch g d a) s = .next (s.raise .stripSync)) ∧
    (s.core.run.strip = none → s.posted = true → exec (.launch g d a) s = .next s) ∧
    (∀ p : Nat, s.core.run.strip = none → s.core.run.flight = none → s.rests →
      let bs := (List.range 128).map (fun i => s.seen (p + i))
      let answers (n : Word) : Prop := Goes (exec (.launch g d a) s) (fun t => t = { s.wrote d n with caches := t.caches })
      let q := recField bs 1 1
      let typ := recField bs 0 1
      let full : Prop := (s.qcfg q).depth.toNat + 1 ≤ (y.recs.filter (fun r => r.queue == q && r.state == .queued)).length
      let held : Prop := ∃ o, s.findObj (recField bs 4 2) = some o ∧ o.pending = false ∧ q ∈ o.holders ∧
        (typ = 1 → q ∉ o.closed ∧ ∃ e, o.entries[recField bs 8 2]? = some e ∧
          levelsGood (if recField bs 3 1 / 2 % 2 = 1 then e.2 else recLevels bs) = true)
      ((s.reg a).toNat % 128 ≠ 0 → answers 2) ∧
      ((s.reg a).toNat % 128 = 0 → (∃ x z : Xlat, s.translateAccess s.me .read true (s.reg a) 128 = .ok [(x, 64), (z, 64)] ∧
          s.found x 64 p ∧ s.found z 64 (p + 64)) →
        (s.sys.scrub = true ∨ s.recGood bs = false → answers 2) ∧
        (s.sys.scrub = false → s.recGood bs = true → typ ≠ 2 →
          (full → answers 1) ∧
          (¬ full → typ ≠ 4 → s.findObj (recField bs 4 2) = none → answers 3) ∧
          (¬ full → typ = 4 ∨ held → open_ seq → Goes (exec (.launch g d a) s) (fun t =>
            t.core = (s.wrote d (BitVec.ofNat 64 (seq * 256))).core ∧ t.starter.jno = seq ∧
            t.starter.slHead = BitVec.ofNat 64 seq ∧ Event.starterDecision ∈ t.agenda ∧
            (∃ r ∈ t.starter.recs, r.seq = seq ∧ r.state = .queued ∧ r.type = typ ∧ r.queue = q ∧
              r.prio = recField bs 2 1 ∧ r.flags = recField bs 3 1 ∧ r.asid = BitVec.ofNat 16 (recField bs 6 2) ∧
              r.cbaton = BitVec.ofNat 64 (recField bs 96 8) ∧ r.tag = BitVec.ofNat 64 (recField bs 112 8)) ∧
            (∀ r ∈ y.recs, r ∈ t.starter.recs) ∧
            t.mem = s.mem.write (at_ seq)
              (leBytes 8 seq ++ leBytes 8 (seq * 256) ++
                leBytes 8 (1 + typ * 2 ^ 8 + q * 2 ^ 16 + recField bs 2 1 * 2 ^ 24) ++ leBytes 8 (recField bs 112 8))))))) ∧
    ((∀ r ∈ y.recs, BitVec.ofNat 64 (r.seq * 256) ≠ s.reg a) → exec (.cancel g d a) s = .next (s.wrote d 5)) ∧
    (∀ r, y.recs = [r] → BitVec.ofNat 64 (r.seq * 256) = s.reg a →
      (r.state ≠ .queued → exec (.cancel g d a) s = .next (s.wrote d 4)) ∧
      (r.state = .queued → r.type = 1 → r.cwaddr = 0 → r.deps = [] →
        Goes (exec (.cancel g d a) s) (fun t => t.starter.recs = [] ∧ t.core.run.s = s.regsWith d 0 ∧
          t.core.run.pc = s.core.run.pc + 4 ∧ t.starter.jno = y.jno + 2 ∧ s.completes t r.cbaton))))

/-- spec/14 R345 to R349, R351 and R357, spec/06 R162 and R163: a decision takes the candidates, one of each queue
whose conditions hold, by E and then round robin, and dispatches the first that places, unless a blocking one has a
higher E; the others have been passed over once more. A signal record signals its baton and completes; an unload waits
for its object; a launch that places runs, and each of its coroutines begins on the core that its place names, here
one whose call room takes them, with the state of R163. Which queue follows at an E that has dispatched none yet is
the model's choice (log 95: queue 0). A decision of an interval is one while a launch is held; a launch held 65,536
times blocks; a failed dependence completes its record and error-signals; a launch whose last coroutine has ended
stores its completion word and completes; an object without a reference is gone, and so are the unloads that waited
for it. -/
def Obligations.StarterSteps : Prop :=
  ∀ (s : State) (r : QRec),
    let y := s.starter
    let n := levelCount r.levels 2 * levelCount r.levels 3
    let met (x : QRec) : Prop :=
      (∀ d ∈ x.deps, (s.baton (handleKey d.1)).err = 0 ∧ satisfied (s.baton (handleKey d.1)).count d.2 = true) ∧
      (x.type = 1 ∨ ∀ z ∈ y.recs, z.queue = x.queue → x.seq ≤ z.seq)
    let cand (x : QRec) : Prop := x ∈ y.recs ∧ x.state = .queued ∧ x.queue < 64 ∧ met x ∧
      ∀ z ∈ y.recs, z.state = .queued → z.queue = x.queue →
        if (s.qcfg x.queue).free = true then met z → z.prio < x.prio ∨ z.prio = x.prio ∧ x.seq ≤ z.seq else x.seq ≤ z.seq
    let E (x : QRec) : Nat := min 31 (x.prio + x.passed / 65536)
    let turn (x : QRec) : Nat := (x.queue + 63 - ((y.lastQ.find? (·.1 = E x)).map (·.2)).getD 63) % 64
    let first (x : QRec) : Prop := cand x ∧ (x.type = 1 → (s.place x).isSome = true) ∧
      (∀ c, cand c → E x < E c ∨ E c = E x ∧ turn c < turn x → c.type = 1 ∧ s.place c = none) ∧
      ∀ c, cand c → c.blocking = true ∨ 65536 ≤ c.heldFor → E c ≤ E x
    let waits (t : State) (x : QRec) (k : Nat) : Prop :=
      ∃ z ∈ t.starter.recs, z.seq = x.seq ∧ z.state = x.state ∧ z.queue = x.queue ∧ z.passed = x.passed + k
    let decides (P : State → Prop) : Prop := Goes (exec .starterDecision s) (fun t => t.core.run.s = s.core.run.s ∧
      (∀ x ∈ y.recs, x.seq ≠ r.seq → (cand x → waits t x 1) ∧ (¬ cand x → waits t x 0)) ∧ P t)
    ((y.recs.map (·.seq)).Nodup → (∀ p ∈ y.lastQ, p.2 < 64) →
      ((∀ x, ¬ first x) → Goes (exec .starterDecision s) (fun t =>
        t.core = s.core ∧ t.starter.jno = y.jno ∧ ∀ x ∈ y.recs, waits t x 0)) ∧
      (first r → r.type = 4 → r.cbaton = 0 → r.deps = [] → s.liveHere r.sbaton = true →
        decides (fun t => (∀ x ∈ t.starter.recs, x.seq ≠ r.seq) ∧ t.starter.jno = y.jno + 2 ∧
          s.batonIs t r.sbaton { s.baton (handleKey r.sbaton) with
            holds := (s.baton (handleKey r.sbaton)).holds - 1
            count := (s.baton (handleKey r.sbaton)).count + BitVec.ofNat 32 r.amount })) ∧
      (first r → r.type = 3 → (s.findObj r.code).isSome = true →
        decides (fun t => t.starter.jno = y.jno + 1 ∧ ∃ z ∈ t.starter.recs, z.seq = r.seq ∧ z.state = .unloading)) ∧
      (∀ plan, first r → r.type = 1 → s.place r = some plan → 0 < n →
        decides (fun t => t.starter.jno = y.jno + 1 ∧
          (∃ z ∈ t.starter.recs, z.seq = r.seq ∧ z.state = .running ∧ z.ncoro = n ∧ z.alive = n) ∧
          (s.core.inRoom.length + n ≤ 48 → sumBlocks s.core.inRoom + n ≤ 256 → ∀ lin, lin < n →
            let ix := levelIndices r.levels lin
            (plan.getD (mixed r.levels 3 ix) ([], 0)).1.getD (mixed r.levels 2 ix) 0 = s.core.id →
            let spatial (l : Nat × Nat) : Bool := l.1 == 2 || l.1 == 3
            let index (j : Nat) : Nat := match r.levels[j]? with
              | some l => if spatial l then lin / (((r.levels.drop (j + 1)).filter spatial).map (·.2)).prod % l.2 else 0
              | none => 0
            let loops := ((r.levels.filter (fun l => l.1 == 1)).map (·.2)).reverse
            ∃ k ∈ t.core.coros, s.stamp ≤ k.lastRun ∧ k.launch = r.seq ∧ k.obj = some r.code ∧ k.state = .ready ∧ k.pc = r.pc ∧
              k.asid = r.asid ∧ k.priv = r.flags.testBit 0 ∧ (∀ i : Fin 32, k.s[i] =
                if i.val = 1 then r.arg else if i.val = 2 then BitVec.ofNat 64 lin
                else if 3 ≤ i.val ∧ i.val < 9 then BitVec.ofNat 64 (index (i.val - 3)) else 0) ∧
              (∀ i : Fin 4, k.lc[i] = BitVec.ofNat 32 (loops.getD i.val 0)) ∧ k.g = 0 ∧
              k.nreg = 2 ∧ k.wmax = 2 ∧ k.vl = BitVec.ofNat 14 (128 * s.core.lanes) ∧ k.rc = 1 ∧ k.vtype = 6 ∧ k.frm = 0 ∧
              k.prio = BitVec.ofNat 5 r.prio ∧ k.ceil = BitVec.ofNat 5 r.prio ∧ k.vstride = 0 ∧ k.rstride = 0 ∧
              k.vstart = Vector.replicate 4 ⟨0, 0⟩ ∧ k.vcarry = 0 ∧ k.fflags = 0 ∧ k.mshape = 0 ∧
              k.v = Vector.replicate 64 0 ∧ k.m = Vector.replicate 7 0 ∧ k.acc = Vector.replicate 4 0)))) ∧
    ((∃ x ∈ y.recs, x.state = .queued ∧ x.heldFor ≠ 0) → exec .starterTimedDecision s = exec .starterDecision s) ∧
    ((∀ x ∈ y.recs, x.state = .queued → x.heldFor = 0) → exec .starterTimedDecision s = .next s) ∧
    (s.findRec r.seq = some r →
      (r.state = .queued → 65536 ≤ r.heldFor → Goes (exec (.launchBlocking r.seq) s) (fun t =>
        t = { s with starter := { y with recs := t.starter.recs } } ∧ t.findRec r.seq = some { r with blocking := true })) ∧
      (∀ x, r.state = .queued → r.type = 1 → r.cwaddr = 0 → r.deps = [x] → (s.baton (handleKey x.1)).err ≠ 0 → x.1 ≠ r.cbaton →
        handleKey x.1 ≠ handleKey r.cbaton →
        Goes (exec (.dependenceFailed r.seq) s) (fun t => (∀ z ∈ t.starter.recs, z.seq ≠ r.seq) ∧
          t.core.run.s = s.core.run.s ∧ (s.liveHere r.cbaton = true → (t.baton (handleKey r.cbaton)).err =
            if (s.baton (handleKey r.cbaton)).err = 0 then (s.baton (handleKey x.1)).err
            else (s.baton (handleKey r.cbaton)).err))) ∧
      (∀ p, r.state = .running → r.alive = 0 → r.type = 1 →
        let word := r.ncoro % 2 ^ 32 * 2 ^ 32 + (if r.killed then 2 ^ 16 else 0) + r.fflags.toNat
        let who : Who := ⟨r.asid, r.flags.testBit 0, none, s.slotOf r.asid.toNat, none⟩
        let place := y.slBase.toNat * 4096 + 32 * ((y.jno + 1) % 2 ^ y.slLog.toNat)
        s.inSpillRegion place = false → s.inSpillRegion (place + 31) = false →
        r.cwaddr = 0 ∨ s.finds who .write r.cwaddr 8 p →
        Goes (exec (.launchCompletion r.seq) s) (fun t => (∀ z ∈ t.starter.recs, z.seq ≠ r.seq) ∧
          t.core.run.s = s.core.run.s ∧ s.completes t r.cbaton ∧ t.starter.jno = y.jno + 1 ∧
          t.mem = (if r.cwaddr = 0 then s.mem else s.mem.write p (leBytes 8 word)).write place
            (leBytes 8 (y.jno + 1) ++ leBytes 8 (r.seq * 256) ++
              leBytes 8 (4 + 2 ^ 8 + r.queue * 2 ^ 16 + r.prio * 2 ^ 24 + (if r.killed then 2 ^ 32 else 0)) ++
              leBytes 8 r.tag.toNat)))) ∧
    (∀ o, s.findObj o.num = some o → o.pending = true → s.objRefs o = 0 →
      Goes (exec (.unloadComplete o.num) s) (fun t => t.findObj o.num = none ∧ t.core.run.s = s.core.run.s ∧
        ∀ z ∈ t.starter.recs, z ∈ y.recs ∧ ¬ (z.type = 3 ∧ z.state = .unloading ∧ z.code = o.num)))

/-! ## Steps of a core and of its die -/

/-- spec/06 R170 to R178: a pre-emption saves a full context, Ready where it stopped; the pacer's own takes place
where another Ready coroutine has at least the running one's priority; one with a place in its convoy lets the units
go on to it, and one that meets a handler or a convoy that is not interrupted comes again; a decision runs the Ready
coroutine of highest effective priority, least recently run and lowest number, with its registers, and every other
Ready one has been passed over once more; while the call room lacks room for the running one's context, a spill moves
the context that R171 puts first to blocks of the spill region; a return moves one back, where there is room. One with
posted stores is pre-empted once they have been applied (spec/04 R106). That the places of a cut are given with the
request, and that a request which cannot be taken yet comes again, are the model's choice (logs 12 and 48). -/
def Obligations.PacerSteps : Prop :=
  ∀ (s : State) (cnum : Nat) (k : Coro),
    let id := s.core.id
    let run := s.core.run
    let prio (c : Coro) : Nat := min 31 (c.prio.toNat + c.passed / 4096)
    let saved (t : State) : Prop := t.core.live = .idle ∧ t.mem = s.mem ∧ Event.pacerDecision id ∈ t.agenda ∧
      ∃ c ∈ t.core.coros, c.cnum = run.cnum ∧ c.state = .ready ∧ c.pc = run.trapPc ∧ c.s = run.s ∧ c.g = run.g ∧
        c.v = run.v ∧ c.m = run.m ∧ c.acc = run.acc
    let first (x : Coro) : Prop := prio x < prio k ∨ (prio x = prio k ∧
      (k.lastRun < x.lastRun ∨ (k.lastRun = x.lastRun ∧ k.cnum.toNat < x.cnum.toNat)))
    let alone : Prop := k ∈ s.core.coros ∧ k.cnum.toNat = cnum ∧ ∀ x ∈ s.core.coros, x.cnum = k.cnum → x = k
    (s.ordinary → s.posted = false → s.core.uncut = false → run.deferred = none → s.core.roomFits (run.fullContext s.core.lanes).blocks = true →
      Goes (exec (.preemption id ⟨.pacer, []⟩) s) saved ∧
      (s.core.first ≠ none → Goes (exec (.preemption id ⟨.starter, []⟩) s) saved) ∧
      ((∃ c ∈ s.core.coros, c.state = .ready ∧ c.pending = [] ∧ run.prio.toNat ≤ prio c) →
        Goes (exec (.pacerPreemption ⟨id, []⟩) s) saved)) ∧
    (s.ordinary → s.posted = true → s.core.uncut = false → exec (.preemption id ⟨.pacer, []⟩) s =
      .next { s with core := { s.core with drain := some (.preempt .pacer) } }) ∧
    (∀ why cut, s.ordinary → s.core.uncut = false → cut ≠ [] → run.convoy = none →
      exec (.preemption id ⟨why, cut⟩) s = .next { s with core := { s.core with cut := some (cut, why) } }) ∧
    (∀ why cut, s.core.slot.isSome = true ∨ s.core.uncut = true ∨ s.core.drain.isSome = true →
      exec (.preemption id ⟨why, cut⟩) s = .next { s with agenda := s.agenda ++ [.preemption id ⟨why, cut⟩] }) ∧
    (∀ cut, s.ordinary → (∀ c ∈ s.core.coros, c.state = .ready → prio c < run.prio.toNat) →
      exec (.pacerPreemption ⟨id, cut⟩) s = .next s) ∧
    (s.core.live = .idle → s.core.slot = none → s.core.first = none → alone → k.state = .ready → k.pending = [] →
      (∀ x ∈ s.core.coros, x.state = .ready → x.pending = [] → x ≠ k → first x) →
      k.badCtx = false → k.deferred = none → k.lostVec = false → s.inSomeObject k.pc = true → s.core.inService = true →
      Goes (exec (.pacerDecision id) s) (fun t => t.core.live = .running ∧ t.mem = s.mem ∧
        t.core.run = { k with state := .running, place := .files, passed := 0, lastRun := s.stamp, spillAt := [],
                              armed := if k.woken then none else k.armed, woken := false } ∧
        (∀ x ∈ t.core.coros, x.cnum ≠ k.cnum) ∧ ∀ x ∈ s.core.coros, x ≠ k →
          { x with passed := if x.state = .ready then x.passed + 1 else x.passed } ∈ t.core.coros)) ∧
    (s.core.live = .idle → (∀ x ∈ s.core.coros, x.state ≠ .ready) → exec (.pacerDecision id) s = .next s) ∧
    (s.core.live = .idle ∨ s.core.roomFits (run.fullContext s.core.lanes).blocks = true → s.core.slot = none →
      exec (.contextSpill id cnum) s = .next s) ∧
    (s.core.live ≠ .idle → s.core.slot = none → s.core.roomFits (run.fullContext s.core.lanes).blocks = false →
      alone → k.place = .callRoom → s.core.spillEn = true → sumBlocks s.core.inSpill + k.blocks ≤ 4096 → s.mem.wf = true →
      (∀ x ∈ s.core.coros, x ≠ k → x.place = .callRoom → sumBlocks s.core.inSpill + x.blocks ≤ 4096 → spillsBefore k x = true) →
      (∀ x ∈ s.core.coros, ∀ y ∈ s.core.coros, x.cnum = y.cnum → x = y) →
      Goes (exec (.contextSpill id cnum) s) (fun t => t.core = { s.core with coros := t.core.coros } ∧
        (∃ bs, { k with place := .spill, spillAt := bs } ∈ t.core.coros ∧ bs.length ≤ k.blocks ∧
          ∀ b ∈ bs, b < 4096 ∧ ∀ x ∈ s.core.coros, b ∉ x.spillAt) ∧
        (∀ x ∈ s.core.coros, x ≠ k → x ∈ t.core.coros) ∧
        ∀ a, (a < s.core.spillBase.toNat * 2 ^ 21 ∨ s.core.spillBase.toNat * 2 ^ 21 + 2 ^ 21 ≤ a) → t.mem.get a = s.mem.get a)) ∧
    (alone → k.place = .spill → k.state = .ready → s.core.roomFits k.blocks = true →
      Goes (exec (.contextReturn id cnum) s) (fun t => t = { s with core := { s.core with coros := t.core.coros } } ∧
        { k with place := .callRoom, spillAt := [] } ∈ t.core.coros ∧ ∀ x ∈ s.core.coros, x ≠ k → x ∈ t.core.coros))

/-- spec/15 R361, R373, R380, spec/08 R201, spec/05 R137, spec/11 R292, R418: a deferred store failure and a failed
fetch park the coroutine with their causes; a machine check parks every coroutine of its core, which leaves service,
and one of a special-function unit strikes each of its four cores; a datum that arrives, or is read now, is written
into the scalar or vector register of its saved context, and a poisoned one attached to it; a poll and a later round
of a `vwait` make their waiter Ready once its condition is met, and try again until then. -/
def Obligations.CoreUnitSteps : Prop :=
  ∀ (s : State) (c : Coro),
    let id := s.core.id
    let run := s.core.run
    let told (w : BitVec 32) : State := { s with core := { s.core with insn := w } }
    let up (t : State) : Prop := t.mem = s.mem ∧ t.core.run.s = run.s ∧
      ∃ x ∈ t.core.coros, x.cnum = c.cnum ∧ x.state = .ready ∧ x.pc = c.pc ∧ x.s = c.s
    (s.ordinary → s.posted = false → s.reportsTrap →
      (∀ d, run.deferred = some d → Goes (exec (.deferredStoreFailure id) s) (fun t =>
        (told d.insn).Parked t d.cause run.trapPc (BitVec.ofNat 64 d.index) d.addr)) ∧
      (∀ cause, Goes (exec (.instructionFetchFault cause) s) (fun t => (told 0).Parked t cause run.trapPc 0 run.pc))) ∧
    (s.ordinary → s.core.roomFits (run.fullContext s.core.lanes).blocks = true →
      ∀ sfu, Goes (exec (.machineCheck ⟨id, sfu⟩) s) (fun t => t.core.inService = false ∧ t.core.live = .idle ∧
        (∀ x ∈ t.core.coros, x.state = .parked .machineCheck) ∧
        (sfu = true → ∀ i, i < 4 → (t.coreAt (id / 4 * 4 + i)).inService = false) ∧
        ∃ x ∈ t.core.coros, x.cnum = run.cnum ∧ x.state = .parked .machineCheck ∧ x.s = run.s ∧ x.pc = run.trapPc)) ∧
    (∀ (idx : Nat) (p : Pending) (v : Word), c ∈ s.core.coros → run.cnum ≠ c.cnum →
      (∀ x ∈ s.core.allCoros, x.cnum = c.cnum → x = c) → c.pending[idx]? = some p → p.slot = none → p.op = none → p.insn = 0 →
      c.strip = none → s.core.slot = none →
      let left := c.pending.erase p
      let arrives (bad : Bool) (x : Coro) : Prop := Goes (exec (.pendingDatumArrival id c.cnum.toNat idx v bad) s) (fun t =>
        t.mem = s.mem ∧ t.core.run = run ∧ x ∈ t.core.coros)
      let lands (value : Nat) : Prop :=
        (∀ (r : Fin 32) n signed off len, p.dst = .load r n signed off len → r ≠ 0 → off + len ≤ n →
          let x : BitVec (8 * n) := BitVec.ofNat _ (withField ((c.s[r]).toNat % 2 ^ (8 * n)) off len value)
          arrives false { c with s := c.s.set r (if signed then x.signExtend 64 else x.setWidth 64), pending := left }) ∧
        (∀ (r : Fin 64) off len row e, p.dst = .elem r off len row e →
          arrives false { c with v := c.v.set r (VReg.put c.v[r] off len (value % 2 ^ (8 * len))), pending := left })
      (p.part = none → lands v.toNat) ∧
      (∀ x n place, p.part = some (x, n) → n ≤ 8 → s.lies x n place → lands (s.mem.readNat place n)) ∧
      ((∀ h, p.dst ≠ .store h) → c.deferred = none →
        arrives true { c with pending := left, deferred := some ⟨.dataMemory, p.index, p.addr, 0, 0, false, none⟩ })) ∧
    (∀ h T, s.core.allCoros.find? (fun x => x.cnum.toNat == c.cnum.toNat) = some c → c ∈ s.core.coros →
      c.state = .waiting → c.armed = some (h, T) →
      let b := s.baton (handleKey h)
      let met : Prop := b.err ≠ 0 ∨ (b.count - T).toNat < 2 ^ 31
      (met → Goes (exec (.batonPoll id c.cnum.toNat) s) up) ∧
      (¬ met → exec (.batonPoll id c.cnum.toNat) s =
        .next { s with agenda := s.agenda ++ [.batonPoll id c.cnum.toNat] })) ∧
    (∀ (v : VWait) (place : Nat → Nat → Nat), s.core.coros.find? (fun x => x.cnum.toNat == c.cnum.toNat) = some c →
      c.state = .waitingVec v → v.cond < 5 → s.core.slot = none → c.flight = none →
      let t := s.withRun c
      let w := c.tyBytes
      let addr (r e : Nat) : Option Word := some (BitVec.ofNat 64 (c.elem v.va 8 r e))
      let met (x y : BitVec (8 * w)) : Prop :=
        (v.cond = 0 ∧ x = y) ∨ (v.cond = 1 ∧ x ≠ y) ∨ (v.cond = 2 ∧ y.toInt ≤ x.toInt) ∨ (v.cond = 3 ∧ y.toNat ≤ x.toNat) ∨
          (v.cond = 4 ∧ (x - y).toNat < 2 ^ (8 * w - 1))
      let ok (p : Nat × Nat) : Prop := met (BitVec.ofNat _ (s.mem.readNat (place p.1 p.2) w)) (t.el v.vb p.1 p.2)
      t.vreaches (t.reaches .read false) v.guard addr place →
      ((∀ p ∈ t.enumerated v.guard addr, ok p) → Goes (exec (.vwaitRound id c.cnum.toNat) s) up) ∧
      ((∃ p ∈ t.enumerated v.guard addr, ¬ ok p) → Goes (exec (.vwaitRound id c.cnum.toNat) s) (fun u =>
        u = { s with agenda := s.agenda ++ [.vwaitRound id c.cnum.toNat], caches := u.caches })))

/-- spec/15 R364, R366, R367 and R369, spec/05 R132, R138, R139 and R154: a waiting TRAP record is written in order
once its queue has room; a signal, an error or a barrier arrival from another module is met by an OPEN baton and
dropped elsewhere, the arrival with its answer, and one of that module's devices by any live baton; the first abort of
a collective fails the batons that carry its tag; the commands of the coroutine-control block open a parked context,
resume it, end a coroutine and close the window, with the status of Table 7. -/
def Obligations.DieUnitSteps : Prop :=
  ∀ (s : State) (die : Nat), die < 16 →
    let q := s.fqAt die
    let b := s.ccbAt die
    let place := q.base.toNat * 4096 + 64 * (q.head.toNat % 2 ^ q.log.toNat)
    (∀ r rs, q.waiting = r :: rs →
      (q.writable = true → q.baton = 0 → s.inSpillRegion place = false →
        s.inSpillRegion (place + (recordBytes r).length - 1) = false → Goes (exec (.waitingRecordWrite die) s) (fun t => t.core = s.core ∧
        t.mem = s.mem.write place (recordBytes r) ∧ t.fqAt die = { q with waiting := rs, head := q.head + 1 } ∧
        (rs ≠ [] → Event.waitingRecordWrite die ∈ t.agenda))) ∧
      (q.writable = false → exec (.waitingRecordWrite die) s =
        .next { s with agenda := s.agenda ++ [.waitingRecordWrite die] })) ∧
    (∀ (sender n : Nat) (h : Word),
      let x := s.baton (handleKey h)
      let open_ : Prop := s.liveHere h = true ∧ x.opn = true
      let sends (k : RemoteKind) (P : State → Prop) : Prop := Goes (exec (.remoteSignalArrival sender h k) s) P
      let up := { x with count := x.count + BitVec.ofNat 32 (n % 2 ^ 16) }
      let counted (t : State) : Prop := t.mem = s.mem ∧ t.core.run.s = s.core.run.s ∧ s.batonIs t h up ∧
        (n % 2 ^ 16 ≠ 0 → s.wakes t h up)
      let failed (t : State) : Prop := t.mem = s.mem ∧ t.core.run.s = s.core.run.s ∧
        s.batonIs t h { x with err := if x.err = 0 then BitVec.ofNat 8 n else x.err }
      let dropped (t : State) : Prop := t.mem = s.mem ∧ t.core = s.core ∧ t.batons = s.batons
      let answers (t : State) (c : Option Cause) (v : BitVec 32) : Prop := FabricMsg.reply sender h c v ∈ t.fabric
      (open_ → sends (.signal n) counted ∧ sends (.err n) failed ∧
        sends (.arrive n) (fun t => counted t ∧ answers t none
          (if x.bar then BitVec.ofNat 32 (x.count.toNat - x.count.toNat % 2 ^ x.plog + 2 ^ x.plog) else up.count))) ∧
      (¬ open_ → (s.fqAt (handleDie h)).writable = false → sends (.signal n) dropped ∧ sends (.err n) dropped ∧
        sends (.arrive n) (fun t => dropped t ∧ answers t (some (if s.liveHere h then .batonDenied else .batonStale)) 0)) ∧
      (s.liveHere h = true → sends (.device n) counted ∧ sends (.deviceErr n) failed ∧
        sends .hold (fun t => s.batonIs t h { x with holds := x.holds + 1 }) ∧
        sends .release (fun t => s.batonIs t h { x with holds := x.holds - 1 })) ∧
      (s.liveHere h = false → ∀ k ∈ [RemoteKind.device n, .deviceErr n, .hold, .release],
        exec (.remoteSignalArrival sender h k) s = .next s)) ∧
    (∀ (sender group cgen : Nat),
      (sender = Config.moduleNumber ∨ (sender, group, cgen) ∈ s.aborts →
        exec (.collectiveAbortReceipt sender group cgen) s = .next s) ∧
      (sender ≠ Config.moduleNumber → (sender, group, cgen) ∉ s.aborts → (s.batons.map (·.1)).Nodup →
        (∀ z ∈ s.batons, z.1 < 2 ^ 22) → (s.fqAt 0).baton = 0 →
        Goes (exec (.collectiveAbortReceipt sender group cgen) s) (fun t => (sender, group, cgen) ∈ t.aborts ∧
          ∀ z ∈ s.batons, t.baton z.1 = if z.2.live = true ∧ z.2.cl = true ∧ z.2.group = BitVec.ofNat 16 group ∧
            z.2.cgen = BitVec.ofNat 8 cgen ∧ z.2.err = 0 then { z.2 with err := 1 } else z.2))) ∧
    (∀ (target inc : Nat),
      let status (t : State) (n : BitVec 8) : Prop := (t.ccbAt die).status = n
      (s.targetCoro die target inc = none →
        ∀ i ∈ [Instr.ccmdOpen die target inc, .ccmdResume die target inc, .ccmdKill die target inc],
          exec i s = .next (s.setCcb die { b with status := 1 })) ∧
      (∀ c, s.targetCoro die target inc = some (s.core.id, c) →
        (∀ z, c.state = .parked z → b.target = none →
          exec (.ccmdOpen die target inc) s = .next (s.setCcb die ⟨some target, 0⟩)) ∧
        ((∀ z, c.state ≠ .parked z) → exec (.ccmdOpen die target inc) s = .next (s.setCcb die { b with status := 2 })) ∧
        (∀ z, c.state = .parked z → z ≠ .dataContext → c.lostVec = false → c ∈ s.core.coros →
          Goes (exec (.ccmdResume die target inc) s) (fun t => status t 0 ∧ t.mem = s.mem ∧ t.core.run = s.core.run ∧
            { c with state := .ready } ∈ t.core.coros ∧ (t.ccbAt die).target = (if b.target = some target then none else b.target))) ∧
        (c.state = .parked .dataContext → exec (.ccmdResume die target inc) s =
          .next (s.setCcb die { b with status := 3 })) ∧
        (∀ z, c.state = .parked z → s.core.live = .idle → s.core.slot = none → c.tags = [] →
          (∀ x ∈ s.core.coros, x.cnum = c.cnum → x = c) →
          Goes (exec (.ccmdKill die target inc) s) (fun t => status t 0 ∧ t.core.live = .idle ∧
            (∀ x ∈ t.core.coros, x.cnum ≠ c.cnum) ∧ ∀ x ∈ s.core.coros, x.cnum ≠ c.cnum → x ∈ t.core.coros))) ∧
      exec (.ccmdClose die target inc) s = .next (s.setCcb die ⟨none, 0⟩)) ∧
    exec (.ccmdBadcmd die) s = .next (s.setCcb die { b with status := 5 })

/-! ## The memory system and the register space -/

/-- spec/01 R37, R44, R45 and R48, spec/02 R56, R60 to R65 and R70, spec/04 R115: a walk whose leaf some access may
use puts it into the core's caches, its pointers and its address space into the die's, and changes nothing else; one
that fails changes nothing; the run-ahead pipeline changes those caches alone; a request at a home allocates its line,
takes from every other L1 the words that a write covers, and counts in its frame's counter; a request behind one to
another row of its bank counts as a conflict of its domain, and the count that reaches THRESH sets the event bit; a
migration moves its granules one after another, each with its bit, and then takes its new function and version. That
the event comes at COUNT = THRESH alone (log 30) and where the bits of a migration stand (log 29) are the model's
choices. -/
def Obligations.MemorySystemSteps : Prop :=
  ∀ (s : State) (d : Nat),
    let x := s.domain d
    let id := s.core.id
    let onlyCaches (t : State) : Prop := t = { s with
        core := { s.core with tlb := t.core.tlb, fetchTlb := t.core.fetchTlb }
        caches := { s.caches with walks := t.caches.walks, asids := t.caches.asids } }
    let pend := s.memRegs.hevPend
    (∀ (a : Word) (n : Nat),
      let asid := n % 2 ^ 16
      let va := a.toNat % 2 ^ 56
      let who : Who := { asid := BitVec.ofNat 16 asid, priv := s.core.run.priv, core := some id, slot := s.slotOf asid }
      (canonical a = true → isNear a = false →
        (∀ leaf level, s.walk (some (dieOf id)) asid va = .ok (leaf, level) →
          (s.holdable who [.read, .write, .fetch] leaf level va = false → exec (.translationWalk id n a) s = .next s) ∧
          (s.holdable who [.read, .write, .fetch] leaf level va = true → Goes (exec (.translationWalk id n a) s) (fun t => onlyCaches t ∧
            (∃ e ∈ t.core.tlb, e.covers asid va = true) ∧
            (bitAt leaf 4 = true → (∀ e ∈ s.core.tlb, e.covers asid va = false) → ∃ e ∈ t.core.fetchTlb, e.covers asid va = true) ∧
            (∃ e ∈ t.caches.asids, e.1 = dieOf id ∧ e.2.1 = asid) ∧
            (s.core.tlb.length < 256 → ∀ e ∈ s.core.tlb, e ∈ t.core.tlb) ∧
            (s.core.tlb.length ≤ 256 → t.core.tlb.length ≤ 256)))) ∧
        (∀ c, s.walk (some (dieOf id)) asid va = .error c → exec (.translationWalk id n a) s = .next s)) ∧
      Goes (exec (.runAheadTranslation id a) s) onlyCaches) ∧
    (∀ r : HomeReq, s.sys.monitors = [] →
      let store := if r.host then hostStore + r.addr else r.addr
      let served (t : State) : Prop := t.core = s.core ∧ t.memRegs = s.memRegs ∧ t.batons = s.batons ∧
        (∃ l ∈ t.caches.l2, l.line = store / 128) ∧
        (r.kind = 2 ∨ r.kind = 3 ∨ r.kind = 5 ∨ r.kind = 7 → ∀ l ∈ t.caches.l1,
          6 ≤ r.kind ∨ l.core ≠ coreOfCoro r.coro → ∀ w, w < 16 →
            64 * l.line + 4 * w < store + r.len → store < 64 * l.line + 4 * w + 4 → l.owned.getLsbD w = false)
      let place := s.memRegs.acBase.toNat * 2 ^ 16 + 2 * (r.addr / 2 ^ 16)
      let n := s.mem.readNat place 2
      (r.ace = false ∨ (r.host = false ∧ n = 0xFFFF) →
        Goes (exec (.homeSliceRequest r) s) (fun t => served t ∧ t.mem = s.mem)) ∧
      (r.ace = true → r.host = false → n ≠ 0xFFFF → n + 1 ≠ s.memRegs.acThresh.toNat → s.inSpillRegion place = false →
        s.inSpillRegion (place + 1) = false →
        Goes (exec (.homeSliceRequest r) s) (fun t => served t ∧ t.mem = s.mem.write place (leBytes 2 (n + 1))))) ∧
    (∀ off ahead : Nat, off < 2 ^ 40 → ahead < 2 ^ 40 →
      let k := off / 2 ^ 30
      let y := s.domain k
      let n := if y.count = 0xFFFFFFFF then y.count else y.count + 1
      let i := exec (.bankConflict ⟨off, ahead⟩) s
      ((s.hbmSlot off).1 ≠ (s.hbmSlot ahead).1 ∨ (s.hbmSlot off).2 = (s.hbmSlot ahead).2 → i = .next s) ∧
      ((s.hbmSlot off).1 = (s.hbmSlot ahead).1 → (s.hbmSlot off).2 ≠ (s.hbmSlot ahead).2 → Goes i (fun t =>
        t.domain k = { y with count := n } ∧ (∀ j, j ≠ k → t.domain j = s.domain j) ∧ t.mem = s.mem ∧
        t.core.run.s = s.core.run.s ∧
        t.memRegs.hevPend = if y.ie = true ∧ n = y.thresh then pend ||| (1#1024 <<< k) else pend))) ∧
    (x.mig = true →
      let place := 1020 * 2 ^ 30 + d * 2 ^ 19 + x.moved / 8
      Goes (exec (.granuleMove d) s) (fun t => t.domain d = { x with moved := x.moved + 1 } ∧
        (∀ k, k ≠ d → t.domain k = s.domain k) ∧ t.core = s.core ∧
        t.mem = s.mem.set place (s.mem.get place ||| (1#8 <<< (x.moved % 8))) ∧
        (if x.moved + 1 < 2 ^ 22 then Event.granuleMove d else Event.migrationComplete d) ∈ t.agenda) ∧
      Goes (exec (.migrationComplete d) s) (fun t => t.mem = s.mem ∧ t.core.run.s = s.core.run.s ∧
        t.domain d = { x with ver := x.nver, func := x.nfunc, mig := false, moved := 0 } ∧
        t.memRegs.hevPend = pend ||| (1#1024 <<< d))) ∧
    (x.mig = false → exec (.granuleMove d) s = .next s ∧ exec (.migrationComplete d) s = .next s)

/-- spec/02 R58, R59, R64 and R66, spec/03 R96, spec/14 R344, spec/18 R396, R399 and R410: a write of a register
stores the fields that its map gives and leaves every other register, the cores and memory alone: HDCFG takes THRESH
and IE always, and NVER, OLDOK and a migration, which begins with a clear bitmap, unless one runs; a store to HOSTSIG
reaches the owner master or is counted; KEYCMD loads an empty slot from a record that can be read and unwraps, and
erases one. That a spare's FUNC is ignored and FUNC 3 to 7 start a migration (log 30), and where the bitmap lies (log
29), are the model's choices. -/
def Obligations.RegisterWriteResults : Prop :=
  ∀ (s : State) (v : Word),
    let base := 0xFF00000000000
    let m := s.memRegs
    let w := s.swRegs
    let y := s.sys
    let gives (o : Nat) (t : State) : Prop := exec (.registerWrite (base + o) v) s = .next t
    (gives 0x100000 { s with memRegs := { m with lpin0 := v.extractLsb' 0 10 } } ∧
      gives 0x100008 { s with memRegs := { m with lpin1 := v.extractLsb' 0 10 } } ∧
      gives 0x100010 { s with memRegs := { m with lset0 := v } } ∧ gives 0x100018 { s with memRegs := { m with lset1 := v } } ∧
      gives 0x100020 { s with memRegs := { m with hevBaton := v } } ∧
      gives 0x100028 { s with memRegs := { m with acBase := v.extractLsb' 16 36 } } ∧
      gives 0x100030 { s with memRegs := { m with acHBase := v.extractLsb' 16 36 } } ∧
      gives 0x100038 { s with memRegs := { m with acHLim := v.extractLsb' 0 36 } } ∧
      gives 0x100040 { s with memRegs := { m with acThresh := v.extractLsb' 0 16 } } ∧
      gives 0x100048 { s with memRegs := { m with acRing := v.extractLsb' 15 37 } } ∧ gives 0x100050 s ∧
      gives 0x100058 { s with memRegs := { m with acTail := v.extractLsb' 0 32 } } ∧
      gives 0x100060 { s with memRegs := { m with acLost := v.extractLsb' 0 32 } } ∧
      gives 0x110200 { s with swRegs := { w with baton := v } } ∧ gives 0x110208 s ∧
      gives 0x110210 { s with swRegs := { w with chg := w.chg &&& ~~~ (v.extractLsb' 0 18) } } ∧
      gives 0x140000 s ∧ gives 0x140008 s ∧ gives 0x140020 { s with sys := { y with sysBaton := v } } ∧
      gives 0x140060 { s with sys := { y with monTail := v.extractLsb' 0 32 } } ∧
      gives 0x140068 { s with sys := { y with monLost := v.extractLsb' 0 32 } } ∧
      gives 0x140078 s) ∧
    exec (.mctlWrite v) s = .next { s with memRegs := { m with stmode := v.getLsbD 0 } } ∧
    gives 0x100068 { s with memRegs := { m with stmode := v.getLsbD 0 } } ∧
    (∀ d, d < 1024 → d ≠ 1020 →
      let x := s.domain d
      let kept : Domain := { x with thresh := v.extractLsb' 16 32, ie := v.getLsbD 11 }
      let nver := v.extractLsb' 7 4
      let func := if 1021 ≤ d then x.func else v.extractLsb' 0 3
      let starts : Prop := nver ≠ x.ver ∨ func ≠ x.func
      let four : Prop := 4 ≤ (s.domains.filter (fun z => z.2.mig)).length
      let into (y : Domain) (more : List Event) (mem : Memory) : Prop := Goes (exec (.hdcfgWrite d v) s) (fun t =>
        t.domain d = y ∧ (∀ k, k ≠ d → t.domain k = s.domain k) ∧ t.agenda = s.agenda ++ more ∧ t.core = s.core ∧
        t.mem = mem ∧ t.memRegs = m)
      let bitmap := 1020 * 2 ^ 30 + d * 2 ^ 19
      gives (0x102000 + 8 * d) (s.hdcfgOp d v) ∧
      (x.mig = true ∨ (starts ∧ four) → into kept [] s.mem) ∧
      (x.mig = false → ¬ starts → into { kept with nver := nver, oldok := x.oldok && !v.getLsbD 13 } [] s.mem) ∧
      (x.mig = false → starts → ¬ four →
        into { kept with nver := nver, ofunc := x.func, nfunc := func, mig := true, oldok := true, moved := 0 }
          [.granuleMove d] (s.mem.erase bitmap (bitmap + 2 ^ 19)))) ∧
    exec (.hdcfgWrite 1020 v) s = .next s ∧
    exec (.hostsigWrite v) s = .next (if y.ownV = true ∧ y.link = true then { s with hostOut := s.hostOut ++ [v] }
      else { s with sys := { y with hsdrop := if y.hsdrop = 255 then 255 else y.hsdrop + 1 } }) ∧
    (∀ slot rec : Nat, 0 < slot → slot < 64 →
      (s.keyLoaded slot = false → exec (.keyLoad slot rec) s =
        .next (if s.badRecord rec 1152 = true then s else match unwrapKey (s.mem.read rec 1152) with
          | none => s
          | some k => { s with keys := (slot, k) :: s.keys })) ∧
      (s.keyLoaded slot = true → exec (.keyLoad slot rec) s = .next s) ∧
      Goes (exec (.keyErase slot) s) (fun t => t = { s with keys := t.keys } ∧ t.keyLoaded slot = false ∧
        ∀ k, k ≠ slot → t.keyMat k = s.keyMat k))

/-! ## The host link and the system block -/

/-- spec/18 R397 to R402: a host read of HBM is answered with its bytes and a write by the owner master stores them; a
write by another, an access to a barred place and a store to OWN get an error completion and change nothing; the
owner's request refills the lease, and another's takes one from it. The owner's atomic is performed at its home, and
answered with what it found. A signal from the owner, while no owner scrub runs, counts on an OPEN baton, which the
loss of the link then fails, and goes on over the fabric to another module's; on the return of the link the held bytes
of host memory are written. That a refused request counts for the lease too is the model's reading (log 74), and so is
what a misaligned or barred atomic answers (log 86). -/
def Obligations.HostLinkResults : Prop :=
  ∀ (s : State) (r : HostReq),
    let y := s.sys
    let n := if r.write then r.data.length else r.len
    let owner : Prop := y.ownV = true ∧ y.ownMaster.toNat = r.master
    let answers (b : LinkReply) (mem : Memory) : Prop := Goes (exec (.hostAccess r) s) (fun t =>
      t.linkOut = s.linkOut ++ [b] ∧ t.mem = mem ∧ t.core = s.core ∧ t.batons = s.batons ∧
      (owner → t.sys.left = y.reload) ∧ (y.ownV = true → ¬ owner → y.left ≠ 0 → t.sys.left = y.left - 1))
    let error : Prop := answers ⟨r.master, true, false, []⟩ s.mem
    let plain : Prop := ∀ i, i < n → s.blockKey (r.pa + i) = none ∨ s.blockKey (r.pa + i) = some none
    (y.link = true → r.master < 4 → 0 < n → r.got = none → r.op = none →
      (r.pa + n ≤ 2 ^ 40 → s.hostBarred r.pa n = false → y.monitors = [] → plain →
        (r.write = false → answers ⟨r.master, false, s.poisoned r.pa n, s.mem.read r.pa n⟩ s.mem) ∧
        (r.write = true → owner → y.scrub = false → answers ⟨r.master, false, false, []⟩ (s.mem.write r.pa r.data))) ∧
      (r.write = true → ¬ owner ∨ y.scrub = true → error) ∧ (r.pa + n ≤ 2 ^ 40 → s.hostBarred r.pa n = true → error) ∧
      (r.pa = 0xFF00000140000 → n = 8 → r.write = true → error)) ∧
    (∀ op x v, y.link = true → r.master < 4 → r.got = none → r.write = false → 0 < r.len → r.op = some (op, x, v) →
      r.pa < 2 ^ 40 →
      let fits : Prop := (r.len = 4 ∨ r.len = 8) ∧ r.pa % r.len = 0
      let old := s.mem.readNat r.pa r.len
      (owner → y.scrub = false → fits → s.hostBarred r.pa r.len = false → y.monitors = [] → plain →
        s.poisoned r.pa r.len = false → answers ⟨r.master, false, false, leBytes r.len old⟩ (match atomNew op r.len old x v with
          | some z => s.mem.write r.pa (leBytes r.len z)
          | none => s.mem)) ∧
      (¬ owner ∨ y.scrub = true ∨ ¬ fits ∨ s.hostBarred r.pa r.len = true → error)) ∧
    (y.link = false → exec (.hostAccess r) s = .next s) ∧
    (∀ (x a : Nat) (h : Word),
      let b := s.baton (handleKey h)
      let b' : Baton := { b with hostSig := true, count := b.count + BitVec.ofNat 32 (a % 2 ^ 16) }
      let writer : Prop := y.ownV = true ∧ y.ownMaster.toNat = x ∧ y.scrub = false
      let other : Prop := handleModule h ≠ Config.moduleNumber ∧ s.isMember (handleModule h) = true ∧ handleIndex h ≠ 0 ∧
        h.toNat % 256 = 0
      (y.link = true → writer → other → Goes (exec (.hostSignal x h a) s) (fun t =>
        t.fabric = s.fabric ++ [.signal h (.signal (a % 2 ^ 16))] ∧ t.mem = s.mem ∧ t.core = s.core ∧ t.batons = s.batons)) ∧
      (y.link = true → writer → ¬ other → s.liveHere h = true → b.opn = true →
        Goes (exec (.hostSignal x h a) s) (fun t => t.mem = s.mem ∧ t.core.run.s = s.core.run.s ∧ s.batonIs t h b' ∧
          (a % 2 ^ 16 ≠ 0 → s.wakes t h b'))) ∧
      (y.link = true → ¬ writer ∨ (¬ other ∧ (s.liveHere h = false ∨ b.opn = false)) →
        (s.fqAt (handleDie h)).writable = false →
        Goes (exec (.hostSignal x h a) s) (fun t => t.mem = s.mem ∧ t.core = s.core ∧ t.batons = s.batons))) ∧
    ((s.batons.map (·.1)).Nodup → (∀ z ∈ s.batons, z.1 < 2 ^ 22) → Goes (exec .linkLoss s) (fun t =>
      t.sys = { y with link := false } ∧ t.mem = s.mem ∧ ∀ z ∈ s.batons, t.baton z.1 =
        if z.2.live = true ∧ z.2.hostSig = true ∧ z.2.err = 0 then { z.2 with err := 3 } else z.2)) ∧
    exec .linkReturn s = .next { s with
      sys := { y with link := true }, mem := s.hostDirty.foldl (fun m b => m.set b.1 b.2) s.mem, hostDirty := [] }

/-- spec/18 R401 to R405 and R407 to R409: a compare-and-swap of OWN that finds its expected value and makes a
permitted change gives the module its new owner under the next generation, and scrubs it for one that is not the last;
any other leaves the owner. A lapsed lease frees the module. An owner scrub leaves HBM outside the firmware's region
zero, but for the receipt and what firmware lays down, with no key, no cache line and no coroutine but the
supervisor's. An engagement scrub and an attestation run one at a time; the scrub leaves no line of its slot. Each of
the three leaves the 17,344 bytes of Table 5 with their signature. The compare-and-swaps of OWN as one operation (log
74), the supervisor's address space, start and bytes (log 2) and the firmware whose digest is signed (log 15) are the
model's choices. -/
def Obligations.OwnershipAndScrubResults : Prop :=
  ∀ (s : State),
    let y := s.sys
    let receipt (t : State) (dest kind slot flags hash : Nat) (cores : List Nat) (nonce : Nat) : Prop :=
      let x := t.mem.readNat dest 256
      fieldOf x 0 4 = 0x4C475254 ∧ fieldOf x 4 2 = kind ∧ fieldOf x 6 1 = slot ∧ fieldOf x 7 1 = flags ∧
        fieldOf x 8 8 = Config.serialNumber.toNat ∧ fieldOf x 16 8 = t.sys.scrSeq.toNat ∧ fieldOf x 24 8 = t.sys.own ∧
        fieldOf x 32 8 = t.starter.slHead.toNat ∧ fieldOf x 40 32 = hash ∧
        fieldOf x 72 32 = leNat (sha256 (leBytes 768 (cores.foldl (fun n k => n ||| 2 ^ k) 0))) ∧
        fieldOf x 104 32 = leNat (sha256 (Config.firmwareImage (((List.range 16).find? firmwareVerifies).getD 0))) ∧
        fieldOf x 136 32 = nonce ∧ fieldOf x 168 8 = t.keyStat ∧ fieldOf x 208 48 = 0 ∧
        fieldOf x 176 32 = leNat (sha256 ((List.range 128).flatMap (fun i => leBytes 8 (t.sysRead (0x100 + 8 * i))))) ∧
        t.mem.read (dest + 256) 17088 = signature (t.mem.read dest 256)
    let status (i : Instr) (c : BitVec 8) : Prop := exec i s = .next { s with sys := { y with scrStatus := c } }
    (∀ (x : Nat) (e n : Word), y.link = true → x < 4 →
      let v := n.getLsbD 63
      let m : BitVec 2 := n.extractLsb' 56 2
      let may : Prop := e.toNat = y.own ∧ (if y.ownV then y.ownMaster.toNat = x ∧ (v = false ∨ m.toNat ≠ x)
        else v = true ∧ m.toNat = x)
      let scrubs : Prop := v = true ∧ y.ownLv = true ∧ m ≠ y.ownLast
      ∀ i ∈ [Instr.ownClaim x e n, .ownRelease x e n, .ownHandover x e n], Goes (exec i s) (fun t =>
        ⟨x, false, false, leBytes 8 y.own⟩ ∈ t.linkOut ∧
        (may → t.sys.ownV = v ∧ t.sys.ownMaster = m ∧ t.sys.ownGen = y.ownGen + 1 ∧ t.sys.left = y.reload ∧
          t.sys.ownLast = (if v then m else y.ownLast) ∧ t.sys.ownLv = (y.ownLv || v) ∧
          (scrubs → y.scrub = false → t.sys.scrub = true ∧ Event.ownerScrubComplete ∈ t.agenda) ∧
          (¬ scrubs → t.core = s.core ∧ t.mem = s.mem ∧ t.agenda = s.agenda)) ∧
        (¬ may → t.sys = { y with left := t.sys.left } ∧ t.core = s.core ∧ t.mem = s.mem ∧ t.batons = s.batons))) ∧
    exec .leaseLapse s = .next (if y.ownV = true ∧ y.left = 0 then
      { s with sys := { y with ownV := false, ownGen := y.ownGen + 1 } } else s) ∧
    (y.scrub = true → s.mem.wf = true → Goes (exec .ownerScrubComplete s) (fun t =>
      t.sys.scrub = false ∧ t.sys.ownV = y.ownV ∧ t.sys.ownMaster = y.ownMaster ∧ t.sys.ownGen = y.ownGen ∧
      (s.inSpillRegion 0 = false → s.inSpillRegion 17343 = false → receipt t 0 1 0 1 0 (List.range 6144) 0) ∧
      t.sys.svc = y.svc ∧ t.sys.scrSeq = y.scrSeq + 1 ∧ t.keys = [] ∧ t.padPoison = [] ∧ t.caches.l1 = [] ∧ t.caches.l2 = [] ∧
      (∀ c ∈ t.cores, ∀ k ∈ c.allCoros, k.asid = Config.supervisorAsid ∧ k.pc = Config.supervisorPc) ∧
      (∀ a, a < 2 ^ 40 → (∀ p ∈ Config.bootBytes, p.1 ≠ a) → 17344 ≤ a →
        t.mem.get a = if 1020 * 2 ^ 30 ≤ a ∧ a < 1021 * 2 ^ 30 then s.mem.get a else 0))) ∧
    (y.scrub = false → exec .ownerScrubComplete s = .next s) ∧
    (∀ req : Nat,
      let w := (List.range 64).map (fun i => s.hbmWord (req + 8 * i))
      let slot := s.hbmWord req % 64
      let dest := s.hbmWord req
      (y.job ≠ none → status (.engagementScrub req) 1 ∧ status (.attestation req) 1) ∧
      (y.job = none → slot = 0 → status (.engagementScrub req) 4) ∧
      (y.job = none → slot ≠ 0 → scrubGood w = false → status (.engagementScrub req) 2) ∧
      (y.job = none → slot ≠ 0 → scrubGood w = true → s.scrubShared slot = true → status (.engagementScrub req) 3) ∧
      (y.job = none → slot ≠ 0 → scrubGood w = true → s.scrubShared slot = false →
        Goes (exec (.engagementScrub req) s) (fun t => (∃ er to_ rs, t.sys.job = some (.scrub slot er to_ rs)) ∧
          Event.engagementScrubComplete ∈ t.agenda)) ∧
      (y.job = none → dest % 64 = 0 → dest < 2 ^ 52 → hbmRange dest 17344 = true →
        exec (.attestation req) s = .next { s with
          sys := { y with job := some (.attest dest (s.mem.read (req + 8) 32)) }, agenda := s.agenda ++ [.attestationComplete] })) ∧
    (∀ (slot dest : Nat) (erase : Bool) (ranges : List Word), y.job = some (.scrub slot erase dest ranges) → slot < 64 →
      s.mem.wf = true → Goes (exec .engagementScrubComplete s) (fun t =>
        t.sys.job = none ∧ t.sys.scrStatus = 0 ∧ t.sys.scrSeq = y.scrSeq + 1 ∧
        (erase = true → 0 < slot → t.keyLoaded slot = false) ∧ (∀ c ∈ t.cores, c.touched.getLsbD slot = false) ∧
        (∀ l ∈ t.caches.l2, l.slot ≠ slot) ∧
        (s.inSpillRegion dest = false → s.inSpillRegion (dest + 17343) = false → ranges.length = 62 →
          (∀ k ∈ s.cores, k.id < 6144) →
          let used := ((List.range 31).filter (fun i => ranges.getD (2 * i + 1) 0 != 0)).length
          receipt t dest 2 slot (if erase then 1 else 0)
            (leNat (sha256 ((ranges.take (2 * used)).flatMap (fun w => leBytes 8 w.toNat))))
            ((s.cores.filter (fun k => k.touched.getLsbD slot)).map (·.id)) 0) ∧
        ∀ i a : Nat, i < 31 → (ranges.getD (2 * i + 1) 0).toNat ≠ 0 →
          let lo := (ranges.getD (2 * i) 0).toNat / 2 ^ 16 % 2 ^ 36 * 2 ^ 16
          let len := (ranges.getD (2 * i + 1) 0).toNat / 2 ^ 16 % 2 ^ 25 * 2 ^ 16
          lo ≤ a → a < lo + len → ¬ (dest ≤ a ∧ a < dest + 17344) → t.mem.get a = 0)) ∧
    (∀ (dest : Nat) (nonce : List Byte), y.job = some (.attest dest nonce) → nonce.length = 32 → s.mem.wf = true →
      Goes (exec .attestationComplete s) (fun t => t.sys.job = none ∧ t.sys.scrStatus = 0 ∧
        t.sys.scrSeq = y.scrSeq + 1 ∧ t.core.run.s = s.core.run.s ∧ s.keepsOutside t dest 17344 ∧
        (s.inSpillRegion dest = false → s.inSpillRegion (dest + 17343) = false → receipt t dest 3 0 0 0 [] (leNat nonce))))

/-! ## Reset, training, repairs, power and temperature -/

/-- spec/18 R413 to R416, spec/02 R62, spec/03 R77 and R78: a module reset puts the registers back and keeps HBM's
bytes, but for what firmware lays down, and enters reduced service; memory and fabric training together open full
service at 1,300 MHz, and fabric training says which planes are up, and one that comes up anew, or under another
generation, is empty; a repair maps the bank to the spare's channel and withdraws the spare's domain; a throttle takes
100 MHz, to no less than 400, and a restore gives them back; the thermal stop checks every core and stops the module.
What a module reset keeps (log 20), a throttle before training (log 72) and one step of 100 MHz at a time (log 75) are
the model's readings. -/
def Obligations.ModuleServiceSteps : Prop :=
  ∀ (s : State),
    let y := s.sys
    let only (i : Instr) (z : SysRegs) : Prop := exec i s = .next { s with sys := z }
    let kept (t : State) : Prop := t.mem = s.mem ∧ t.core.run.s = s.core.run.s
    (s.mem.wf = true → Goes (exec .moduleReset s) (fun t =>
      t.sys.svc = (if (List.range 16).any firmwareVerifies then 1 else 0) ∧
      t.sys.bootfail = (List.range 16).any (fun d => !firmwareVerifies d) ∧ t.sys.scrSeq = y.scrSeq ∧
      t.sys.ownV = false ∧ t.sys.mhz = 400 ∧ t.sys.link = false ∧ t.sys.memtr = false ∧ t.sys.fabtr = false ∧
      t.keys = [] ∧ t.batons = [] ∧ t.starter = Starter.reset ∧ t.domains = [] ∧ t.maint = [] ∧ t.cleanups = [] ∧
      t.stopped = false ∧ t.poison = s.poison ∧ t.planes = s.planes ∧ t.allocs = s.allocs ∧
      ∀ a, (∀ p ∈ Config.bootBytes, p.1 ≠ a) → t.mem.get a = if padStore 0 ≤ a ∧ a < padStore 6144 then 0 else s.mem.get a)) ∧
    (y.fabtr = false ∨ (y.svc ≠ 1 ∧ (y.svc ≠ 3 ∨ y.memtr = true)) → only .memoryTrained { y with memtr := true }) ∧
    (y.fabtr = true → y.svc = 3 → y.memtr = false → Goes (exec .memoryTrained s) (fun t =>
      t.sys = { y with memtr := true } ∧ kept t)) ∧
    (y.fabtr = true → y.svc = 1 → Goes (exec .memoryTrained s) (fun t =>
      t.sys = { y with memtr := true, mhz := 1300, svc := 2 } ∧ kept t)) ∧
    (∀ planes : List (Nat × Nat), (planes.map (·.1)).Nodup → (∀ x ∈ planes, x.1 < 18 ∧ x.2 < 2 ^ 32) → s.mem.wf = true →
      Goes (exec (.fabricTrained planes) s) (fun t => t.core.run.s = s.core.run.s ∧ t.sys.fabtr = true ∧
        (∀ a, a < planeStore 0 ∨ planeStore 18 ≤ a → t.mem.get a = s.mem.get a) ∧
        (∀ x ∈ planes, (s.plane x.1).up = false ∨ (s.plane x.1).gen.toNat ≠ x.2 →
          ∀ a, planeStore x.1 ≤ a → a < planeStore (x.1 + 1) → t.mem.get a = 0) ∧
        (∀ p, p < 18 → (t.plane p).up = planes.any (·.1 == p) ∧ t.regardsUp p = planes.any (·.1 == p)) ∧
        (∀ x ∈ planes, (t.plane x.1).gen.toNat = x.2) ∧
        t.sys.svc = (if y.memtr = true ∧ y.svc = 1 then 2 else y.svc) ∧
        t.sys.mhz = (if y.memtr = true ∧ y.svc = 1 then 1300 else y.mhz))) ∧
    (∀ bank spare : Nat, bank < 1021 → spare < 3 →
      ((s.domain (1021 + spare)).gone = true → exec (.hbmRepair bank spare) s = .next s) ∧
      ((s.domain (1021 + spare)).gone = false → Goes (exec (.hbmRepair bank spare) s) (fun t => kept t ∧
        (t.domain (1021 + spare)).gone = true ∧ t.pcmapAt bank = s.pcmapAt (1021 + spare) ∧
        (∀ b, b ≠ bank → t.pcmapAt b = s.pcmapAt b) ∧ t.sys.repCount = y.repCount + 1 ∧
        t.sys.repChan = s.pcmapAt bank))) ∧
    only .clockThrottle { y with mhz := if y.mhz.toNat < 500 then 400 else y.mhz - 100, svc := 3 } ∧
    (y.svc = 3 → ¬ (y.memtr = true ∧ y.fabtr = true) → only .clockRestore { y with mhz := 400, svc := 1 }) ∧
    (y.svc = 3 → y.memtr = true → y.fabtr = true → y.mhz.toNat + 100 < 1300 → only .clockRestore { y with mhz := y.mhz + 100 }) ∧
    (y.svc = 3 → y.memtr = true → y.fabtr = true → 1300 ≤ y.mhz.toNat + 100 → only .clockRestore { y with mhz := 1300, svc := 2 }) ∧
    (y.svc ≠ 3 → exec .clockRestore s = .next s) ∧
    ((s.cores.map (·.id)).Nodup → Goes (exec .thermalStop s) (fun t => t.stopped = true ∧ step t = .fault .moduleStopped ∧
      ∀ c ∈ t.cores, c.inService = false))

/-! ## Guards -/

/-- spec/08 R203 and R204: an instruction of class S whose guard is false changes nothing but the program counter,
which moves to the next word: no register, flag or byte of memory, no access and no cause. A privileged one first
needs its privilege, and a control register its number (R208). -/
def Obligations.FalseGuardChangesOnlyThePc : Prop :=
  ∀ (s : State) (g : Guard) (d a b : Fin 32) (d6 k6 h6 l6 a6 : Fin 64) (a3 b3 t3 sc3 h3 k3 : Fin 8) (i9 : BitVec 9)
    (uw6 iw6 : BitVec 6) (iw15 : BitVec 15) (k2 w2 o2 r2 : Fin 4) (iw21 : BitVec 21) (iw4 : BitVec 4) (iw2 : BitVec
    2) (d4 a4 b4 k4 : Fin 16) (wt : Bool),
    ¬ s.enables g →
    (∀ i ∈ [Instr.add g d a b, .sub g d a b, .and g d a b, .or g d a b, .xor g d a b, .sll g d a b, .srl g d a
        b, .sra g d a b, .mul g d a b, .mulh g d a b, .mulhu g d a b, .div g d a b, .divu g d a b, .rem g d
        a b, .remu g d a b, .min g d a b, .max g d a b, .minu g d a b, .maxu g d a b, .clz g d a, .ctz g d
        a, .popc g d a, .rev g d a, .bfx g d a b, .bfxs g d a b, .bfi g d a b, .cmpEq g d6 a b, .cmpNe g d6
        a b, .cmpLt g d6 a b, .cmpLtu g d6 a b, .cmpLe g d6 a b, .cmpLeu g d6 a b, .gand g d6 a3 b3, .gor g
        d6 a3 b3, .addi g d a i9, .andi g d a uw6, .ori g d a uw6, .xori g d a uw6, .slli g d a uw6, .srli g
        d a uw6, .srai g d a uw6, .li g d iw15, .lis g d iw15, .loop g k2 iw15, .faddF64 g d a b, .fsubF64 g
        d a b, .fmulF64 g d a b, .fdivF64 g d a b, .fminF64 g d a b, .fmaxF64 g d a b, .fmaF64 g d a b,
        .fsqrtF64 g d a, .faddF32 g d a b, .fsubF32 g d a b, .fmulF32 g d a b, .fdivF32 g d a b, .fminF32 g
        d a b, .fmaxF32 g d a b, .fmaF32 g d a b, .fsqrtF32 g d a, .fcmpEqF64 g d6 a b, .fcmpLtF64 g d6 a b,
        .fcmpLeF64 g d6 a b, .fcmpEqF32 g d6 a b, .fcmpLtF32 g d6 a b, .fcmpLeF32 g d6 a b, .fcvt g d a t3
        sc3, .b g iw21, .jal g iw21, .jr g d a, .spawn g d a b, .await g k6 a b, .yield g k6 b, .fin g, .sys
        g h6 l6, .ldB64 g d a i9, .ldB32 g d a i9, .stB64 g d a i9, .stB32 g d a i9, .ldB8 g d a iw6, .ldB16
        g d a iw6, .ldI8 g d a iw6, .ldI16 g d a iw6, .ldI32 g d a iw6, .stB8 g d a iw6, .stB16 g d a iw6,
        .ldWp g d a h3 w2 iw4, .ldAcq g d a sc3 w2 iw2, .stRel g d a sc3 w2 iw2, .atomAdd g d4 a sc3 o2 wt,
        .atomMin g d4 a sc3 o2 wt, .atomMax g d4 a sc3 o2 wt, .atomMinu g d4 a sc3 o2 wt, .atomMaxu g d4 a
        sc3 o2 wt, .atomAnd g d4 a sc3 o2 wt, .atomOr g d4 a sc3 o2 wt, .atomXor g d4 a sc3 o2 wt, .atomSwap
        g d4 a sc3 o2 wt, .atomCas g d4 a sc3 o2 wt, .bnew g d a, .bfree g d a, .bsig g a b, .bsigOneOperand
        g a, .bsigErr g a b, .bqry g d a, .barm g a b, .barmRel g a b, .rcopy g h3 a4 b4, .rcopyShape g h3
        a6 b, .rwp g d h3, .rcancel g h3, .rqry g d h3, .amsend g a, .amreply g a, .amreg g a b, .swquota g
        d a, .pxw g a b, .pxinv g a b, .pxret g, .dsadv g d6 a b, .dstrunc g a b, .dsframe g d a b, .dsplay
        g a b, .vcfg g d r2 w2, .spsplit g d k4, .stripBegin g a, .stripCommit g, .fence g k2 sc3], exec i s = .next s.passed) ∧
    (s.core.run.priv = true → ∀ i ∈ [Instr.swalloc g d a b, .swfree g d a, .pxwSh g a k3, .launch g d a, .cancel g d a, .asidBind g d a,
        .asidRetire g d a, .xlinvVa g d a b, .xlinvAsid g d a, .xlinvGlob g d], exec i s = .next s.passed) ∧
    (∀ r : Fin 64, r.val < 27 → exec (.cget g d r) s = .next s.passed ∧
      (r.val ∉ [5, 6, 7, 20, 21, 22, 25] → exec (.cset g r a) s = .next s.passed))

/-! ## The machine -/

/-- spec/08 R201 and R208: where the core in focus moves and its fetch and checks give a word that decodes to `i`, the
step is `exec i` in the state that they leave; in particular, for an instruction of no convoy at an aligned program
counter, in the state that holds the word, no convoy, and the word's page in the fetch cache where the core's cache
holds it (spec/01 R48). A step of the schedule or of the agenda is `exec` of that step; the schedule, the inputs, the
focus and the agenda are the model's interleaving (log 3). -/
def Obligations.StepRunsTheDecodedInstruction : Prop :=
  ∀ (s : State) (w : Nat) (i : Instr), s.stopped = false →
    (∀ s1 s2 : State, s.nextMove = (.core, s1) → s1.core.run.deferred = none → s1.core.run.pending = [] →
      s1.core.drain = none → s1.ready traitsOf = .run w s2 →
      decode w = .ok i → step s = exec i s2) ∧
    (∀ ts, s.sched = .core :: ts → s.ordinary → s.core.run.deferred = none → s.core.run.pending = [] → s.core.run.ecc = [] →
      s.core.run.pc.toNat % 4 = 0 → s.core.run.nextWord = none →
      State.fetchWord { s with sched := ts } s.me s.core.run.pc = .ok w → decode w = .ok i → i.member = none →
      s.sys.svc = 2 →
      let fed := ({ s with sched := ts } : State).refilled s.core.run.pc
      step s = exec i { fed with
        core := { fed.core with insn := BitVec.ofNat 32 w, run := { s.core.run with convoy := none } } }) ∧
    (∀ ts k e, s.sched = .event k :: ts → s.agenda[k]? = some e →
      step s = exec (eventInstr e) { s with sched := ts, agenda := s.agenda.eraseIdx k }) ∧
    (∀ ts e, s.sched = .input e :: ts → step s = exec (eventInstr e) { s with sched := ts }) ∧
    (∀ ts id, s.sched = .focus id :: ts → id < 6144 → step s = .next ({ s with sched := ts }.focus id)) ∧
    (∀ e es, s.sched = [] → s.agenda = e :: es → background e = false → s.enabled e = true →
      step s = exec (eventInstr e) { s with agenda := es })

/-- spec/18 R416: the module stops for nothing but its own thermal stop: every other step has a next state, and after
it none has. -/
def Obligations.StepsGoOnUntilTheModuleStops : Prop :=
  ∀ s : State, (s.stopped = false → ∃ t, step s = .next t) ∧ (s.stopped = true → step s = .fault .moduleStopped)

/-- The model's form of memory (log 1): a step from a state whose memory is canonical leaves it canonical. -/
def Obligations.MemoryStaysCanonical : Prop :=
  ∀ s t : State, s.Inv → step s = .next t → t.Inv

/-- The steps of a core act on the core that they name: wherever the focus is, they do there what they do with that
core in focus, and the focus comes back (the model's one interleaving, log 3). -/
def Obligations.CoreStepsActOnTheirCore : Prop :=
  ∀ (s : State) (k n m : Nat) (v : Word) (bad : Bool) (why : PreemptWhy) (cut : List Nat),
    ∀ i ∈ [Instr.deferredStoreFailure k, .pendingDatumArrival k n m v bad, .preemption k ⟨why, cut⟩, .pacerDecision k,
      .pacerPreemption ⟨k, cut⟩, .contextSpill k n, .contextReturn k n, .clusterWindowRequest k, .activeMessageHandler k,
      .handlerLimit k, .batonPoll k n, .relayChunk k n, .relayBeat k n, .relayComplete k n, .relayCancelComplete k n,
      .translationWalk k n v, .runAheadTranslation k v, .machineCheck ⟨k, false⟩, .vwaitRound k n],
    Goes (exec i (s.focus k)) (fun t => exec i s = .next (t.focus s.core.id))

/-- spec/18 Table 2, spec/02 Table 5, spec/03 Table 5, spec/14 Table 4, spec/15 Table 2, spec/06 R161 and spec/02 R49:
after reset the registers of the register space and of the cores hold the values of their field maps, no coroutine
runs, no baton is live, and memory is canonical. -/
def Obligations.ResetValues : Prop :=
  let s := State.reset
  let reads (o v : Nat) : Prop := s.regRead (0xFF00000000000 + o) = BitVec.ofNat 64 v
  (reads 0x100000 0 ∧ reads 0x100040 0 ∧ reads 0x100068 1 ∧ reads 0x100080 0 ∧ reads 0x110208 0 ∧ reads 0x110210 0 ∧
    reads 0x120000 0 ∧ reads 0x120200 1 ∧ reads 0x120208 8 ∧ reads 0x120210 0 ∧ reads 0x140000 0 ∧
    reads 0x140008 (0x10000 * 2 ^ 32) ∧ reads 0x140018 (400 * 16) ∧ reads 0x140020 0 ∧ reads 0x140030 1 ∧
    reads 0x140050 8 ∧ reads 0x140058 0 ∧ reads 0x140070 3600 ∧ reads 0x140078 0) ∧
  (∀ d, d < 1024 → reads (0x102000 + 8 * d) (0xFFFFFFFF * 2 ^ 16 + if 1021 ≤ d then 2 else 0) ∧ reads (0x106000 + 8 * d) d) ∧
  (s.asidEn = false ∧ s.core.live = .idle ∧ s.others = [] ∧ s.core.lanemask = 0xF ∧ s.core.spways = 0 ∧
    (∀ die, (s.fqAt die).en = false ∧ (s.fqAt die).log = 6) ∧ (∀ h, s.liveHere h = false) ∧
    (∀ i : Fin 8, (s.core.chans[i]).state = .idle) ∧ s.stopped = false) ∧
  s.Inv

/-! ## Encodings -/

/-- spec/08 R202, R205 and R208: the word of a well-formed instruction decodes to it. -/
def Obligations.DecodeInvertsEncode : Prop :=
  ∀ (i : Instr) (w : Nat), i.wellFormed = true → encode i = some w → decode w = .ok i

/-- spec/08 R206 and R208: a word that decodes is the word of its instruction, which is well formed: every reserved
bit is zero, and no two words decode to one instruction. -/
def Obligations.DecodedWordsAreTheirOwn : Prop :=
  ∀ (i : Instr) (w : Nat), decode w = .ok i → i.wellFormed = true ∧ encode i = some w

/-- spec/08 Table 16, spec/09 Table 7, spec/10 Table 8, spec/11 Table 11 and spec/12 Table 9: words of the spec's
tables decode to the instructions that the tables give them, and reserved ones to their causes. -/
def Obligations.TableWordsDecode : Prop :=
  let on := Guard.always
  decode 0x03C00000 = .ok .nop ∧ decode 0x15C30C01 = .ok (.addi on 6 6 1) ∧
  decode 0x11C88A42 = .ok (.cmpLt on 17 5 8) ∧ decode 0x0CC29228 = .ok (.sel ⟨false, 3⟩ 5 9 5) ∧
  decode 0x3DC00004 = .ok (.fin on) ∧ decode 0x3DC0091D = .ok (.sys on 4 35) ∧
  decode 0xE1C28412 = .ok (.vcfg on 5 2 2) ∧ decode 0x40820210 = .ok (.vadd ⟨false, 2⟩ false 4 1 2) ∧
  decode 0x45E28818 = .ok (.vmul on true 5 4 3) ∧ decode 0xA1C3091A = .ok (.ldAcq on 6 4 4 2 2) ∧
  decode 0xA5C18B68 = .ok (.atomAdd on 1 5 5 2 true) ∧ decode 0xC1C02160 = .ok (.mmk on false 0 1 2 12) ∧
  decode 0xD1C30A48 = .ok (.pxl on 6 5 9) ∧ decode 0xD9C18800 = .ok (.launch on 3 4) ∧
  decode 0x03C00001 = .error .reservedField ∧ decode 0x78000000 = .error .illegalInstruction
end

