-- ==== Sys2Proof/Laws/Encoding.lean ====
section
/-! SUPPORT. What the encoder's formats hold in each field (spec/08_encoding.md R202, R205). -/

namespace Sys2Proof

theorem bit01_lt (b : Bool) : bit01 b < 2 := by cases b <;> decide

theorem bitAt_eq {w i : Nat} {b : Bool} (h : w / 2 ^ i % 2 = bit01 b) : bitAt w i = b := by
  cases b <;> simp [bitAt, h, bit01]

theorem fieldAt_eq {w lo n : Nat} [NeZero n] (d : Fin n) (h : w / 2 ^ lo % n = d.val) : fieldAt w lo n = d := Fin.ext h

theorem immOf_eq {w n : Nat} (i : BitVec n) (h : w % 2 ^ n = i.toNat) : immOf w n = i := by
  apply BitVec.eq_of_toNat_eq
  simpa [immOf] using h

theorem guardOf_eq {w : Nat} {g : Guard} (h1 : w / 2 ^ 25 % 2 = bit01 g.neg) (h2 : w / 2 ^ 22 % 8 = g.idx.val) :
    guardOf w = g := by
  cases g
  simp only [guardOf, Guard.mk.injEq]
  exact ⟨bitAt_eq h1, Fin.ext h2⟩

/-- Bits 31 to 22 of a word give its major and its guard; `r` is what stands below. -/
theorem head_fields {w M r : Nat} {g : Guard} (h : w = head M g + r) (hM : M < 64) (hr : r < 2 ^ 22) :
    w / 2 ^ 26 % 64 = M ∧ guardOf w = g ∧ w % 2 ^ 22 = r := by
  have h1 := bit01_lt g.neg
  have h2 := g.idx.isLt
  subst h
  refine ⟨?_, guardOf_eq ?_ ?_, ?_⟩ <;> (unfold head; omega)

/-- What a word of format R holds. -/
structure FieldsR (x M : Nat) (g : Guard) (c : Bool) (d a b m : Nat) : Prop where
  major : x / 2 ^ 26 % 64 = M
  guard : guardOf x = g
  conv : bitAt x 21 = c
  fd : x / 2 ^ 15 % 64 = d
  fa : x / 2 ^ 9 % 64 = a
  fb : x / 2 ^ 3 % 64 = b
  fm : x % 8 = m

theorem wordR_fields {M : Nat} {g : Guard} {c : Bool} {d a b m : Nat} (hM : M < 64)
    (hd : d < 64) (ha : a < 64) (hb : b < 64) (hm : m < 8) :
    FieldsR (wordR M g c d a b m) M g c d a b m := by
  have hc := bit01_lt c
  obtain ⟨h1, h2, h3⟩ := head_fields (w := wordR M g c d a b m) (M := M) (g := g) (r := bit01 c * 2 ^ 21 + d * 2 ^ 15 + a * 2 ^ 9 + b * 2 ^ 3 + m)
    (by unfold wordR; omega) hM (by omega)
  exact ⟨h1, h2, bitAt_eq (by omega), by omega, by omega, by omega, by omega⟩

/-- What a word of format RO holds. -/
structure FieldsRO (x M : Nat) (g : Guard) (c : Bool) (d a sc o m : Nat) : Prop where
  major : x / 2 ^ 26 % 64 = M
  guard : guardOf x = g
  conv : bitAt x 21 = c
  fd : x / 2 ^ 15 % 64 = d
  fa : x / 2 ^ 9 % 64 = a
  fsc : x / 2 ^ 6 % 8 = sc
  fo : x / 2 ^ 4 % 4 = o
  fm : x % 8 = m

theorem wordRO_fields {M : Nat} {g : Guard} {c : Bool} {d a sc o m : Nat} (hM : M < 64)
    (hd : d < 64) (ha : a < 64) (hsc : sc < 8) (ho : o < 4) (hm : m < 8) :
    FieldsRO (wordRO M g c d a sc o m) M g c d a sc o m := by
  have hc := bit01_lt c
  obtain ⟨h1, h2, h3⟩ := head_fields (w := wordRO M g c d a sc o m) (M := M) (g := g) (r := bit01 c * 2 ^ 21 + d * 2 ^ 15 + a * 2 ^ 9 + sc * 2 ^ 6 + o * 2 ^ 4 + m)
    (by unfold wordRO; omega) hM (by omega)
  exact ⟨h1, h2, bitAt_eq (by omega), by omega, by omega, by omega, by omega, by omega⟩

/-- What a word of format I holds. -/
structure FieldsI (x M : Nat) (g : Guard) (d a i : Nat) : Prop where
  major : x / 2 ^ 26 % 64 = M
  guard : guardOf x = g
  fd : x / 2 ^ 15 % 64 = d
  fa : x / 2 ^ 9 % 64 = a
  fi : x % 512 = i

theorem wordI_fields {M : Nat} {g : Guard} {d a i : Nat} (hM : M < 64)
    (hd : d < 64) (ha : a < 64) (hi : i < 512) :
    FieldsI (wordI M g d a i) M g d a i := by
  obtain ⟨h1, h2, h3⟩ := head_fields (w := wordI M g d a i) (M := M) (g := g) (r := d * 2 ^ 15 + a * 2 ^ 9 + i)
    (by unfold wordI; omega) hM (by omega)
  exact ⟨h1, h2, by omega, by omega, by omega⟩

/-- What a word of format L holds. -/
structure FieldsL (x M : Nat) (g : Guard) (d i : Nat) : Prop where
  major : x / 2 ^ 26 % 64 = M
  guard : guardOf x = g
  fd : x / 2 ^ 15 % 64 = d
  fi : x % 32768 = i

theorem wordL_fields {M : Nat} {g : Guard} {d i : Nat} (hM : M < 64)
    (hd : d < 64) (hi : i < 32768) :
    FieldsL (wordL M g d i) M g d i := by
  obtain ⟨h1, h2, h3⟩ := head_fields (w := wordL M g d i) (M := M) (g := g) (r := d * 2 ^ 15 + i)
    (by unfold wordL; omega) hM (by omega)
  exact ⟨h1, h2, by omega, by omega⟩

/-- What a word of format B holds. -/
structure FieldsB (x M : Nat) (g : Guard) (i : Nat) : Prop where
  major : x / 2 ^ 26 % 64 = M
  guard : guardOf x = g
  fi : x % 2097152 = i

theorem wordB_fields {M : Nat} {g : Guard} {i : Nat} (hM : M < 64)
    (hi : i < 2097152) :
    FieldsB (wordB M g i) M g i := by
  obtain ⟨h1, h2, h3⟩ := head_fields (w := wordB M g i) (M := M) (g := g) (r := i)
    (by unfold wordB; omega) hM (by omega)
  exact ⟨h1, h2, by omega⟩

/-- What a word of format MS holds. -/
structure FieldsMS (x M : Nat) (g : Guard) (d a t i : Nat) : Prop where
  major : x / 2 ^ 26 % 64 = M
  guard : guardOf x = g
  fd : x / 2 ^ 15 % 64 = d
  fa : x / 2 ^ 9 % 64 = a
  ft : x / 2 ^ 6 % 8 = t
  fi : x % 64 = i

theorem wordMS_fields {M : Nat} {g : Guard} {d a t i : Nat} (hM : M < 64)
    (hd : d < 64) (ha : a < 64) (ht : t < 8) (hi : i < 64) :
    FieldsMS (wordMS M g d a t i) M g d a t i := by
  obtain ⟨h1, h2, h3⟩ := head_fields (w := wordMS M g d a t i) (M := M) (g := g) (r := d * 2 ^ 15 + a * 2 ^ 9 + t * 2 ^ 6 + i)
    (by unfold wordMS; omega) hM (by omega)
  exact ⟨h1, h2, by omega, by omega, by omega, by omega⟩

/-- What a word of format MW holds. -/
structure FieldsMW (x M : Nat) (g : Guard) (d a h w i : Nat) : Prop where
  major : x / 2 ^ 26 % 64 = M
  guard : guardOf x = g
  fd : x / 2 ^ 15 % 64 = d
  fa : x / 2 ^ 9 % 64 = a
  fh : x / 2 ^ 6 % 8 = h
  fw : x / 2 ^ 4 % 4 = w
  fi : x % 16 = i

theorem wordMW_fields {M : Nat} {g : Guard} {d a h w i : Nat} (hM : M < 64)
    (hd : d < 64) (ha : a < 64) (hh : h < 8) (hw : w < 4) (hi : i < 16) :
    FieldsMW (wordMW M g d a h w i) M g d a h w i := by
  obtain ⟨h1, h2, h3⟩ := head_fields (w := wordMW M g d a h w i) (M := M) (g := g) (r := d * 2 ^ 15 + a * 2 ^ 9 + h * 2 ^ 6 + w * 2 ^ 4 + i)
    (by unfold wordMW; omega) hM (by omega)
  exact ⟨h1, h2, by omega, by omega, by omega, by omega, by omega⟩

/-- What a word of format MO holds. -/
structure FieldsMO (x M : Nat) (g : Guard) (d a sc o w i : Nat) : Prop where
  major : x / 2 ^ 26 % 64 = M
  guard : guardOf x = g
  fd : x / 2 ^ 15 % 64 = d
  fa : x / 2 ^ 9 % 64 = a
  fsc : x / 2 ^ 6 % 8 = sc
  fo : x / 2 ^ 4 % 4 = o
  fw : x / 2 ^ 2 % 4 = w
  fi : x % 4 = i

theorem wordMO_fields {M : Nat} {g : Guard} {d a sc o w i : Nat} (hM : M < 64)
    (hd : d < 64) (ha : a < 64) (hsc : sc < 8) (ho : o < 4) (hw : w < 4) (hi : i < 4) :
    FieldsMO (wordMO M g d a sc o w i) M g d a sc o w i := by
  obtain ⟨h1, h2, h3⟩ := head_fields (w := wordMO M g d a sc o w i) (M := M) (g := g) (r := d * 2 ^ 15 + a * 2 ^ 9 + sc * 2 ^ 6 + o * 2 ^ 4 + w * 2 ^ 2 + i)
    (by unfold wordMO; omega) hM (by omega)
  exact ⟨h1, h2, by omega, by omega, by omega, by omega, by omega, by omega⟩

/-- What a word of format A holds. -/
structure FieldsA (x M : Nat) (g : Guard) (d a sc o w op : Nat) : Prop where
  major : x / 2 ^ 26 % 64 = M
  guard : guardOf x = g
  fd : x / 2 ^ 16 % 16 = d
  fa : x / 2 ^ 9 % 64 = a
  fsc : x / 2 ^ 6 % 8 = sc
  fo : x / 2 ^ 4 % 4 = o
  fw : x / 2 ^ 3 % 2 = w
  fop : x % 8 = op

theorem wordA_fields {M : Nat} {g : Guard} {d a sc o w op : Nat} (hM : M < 64)
    (hd : d < 16) (ha : a < 64) (hsc : sc < 8) (ho : o < 4) (hw : w < 2) (hop : op < 8) :
    FieldsA (wordA M g d a sc o w op) M g d a sc o w op := by
  obtain ⟨h1, h2, h3⟩ := head_fields (w := wordA M g d a sc o w op) (M := M) (g := g) (r := (d * 2 + 1) * 2 ^ 15 + a * 2 ^ 9 + sc * 2 ^ 6 + o * 2 ^ 4 + w * 2 ^ 3 + op)
    (by unfold wordA; omega) hM (by omega)
  exact ⟨h1, h2, by omega, by omega, by omega, by omega, by omega, by omega⟩

/-- What a word of format VA holds. -/
structure FieldsVA (x M : Nat) (g : Guard) (d a sc o op : Nat) : Prop where
  major : x / 2 ^ 26 % 64 = M
  guard : guardOf x = g
  fd : x / 2 ^ 15 % 64 = d
  fa : x / 2 ^ 9 % 64 = a
  fsc : x / 2 ^ 6 % 8 = sc
  fo : x / 2 ^ 4 % 4 = o
  fop : x / 2 % 8 = op

theorem wordVA_fields {M : Nat} {g : Guard} {d a sc o op : Nat} (hM : M < 64)
    (hd : d < 64) (ha : a < 64) (hsc : sc < 8) (ho : o < 4) (hop : op < 8) :
    FieldsVA (wordVA M g d a sc o op) M g d a sc o op := by
  obtain ⟨h1, h2, h3⟩ := head_fields (w := wordVA M g d a sc o op) (M := M) (g := g) (r := d * 2 ^ 15 + a * 2 ^ 9 + sc * 2 ^ 6 + o * 2 ^ 4 + op * 2)
    (by unfold wordVA; omega) hM (by omega)
  exact ⟨h1, h2, by omega, by omega, by omega, by omega, by omega⟩

/-- What a word of format X holds. -/
structure FieldsX (x M : Nat) (g : Guard) (c : Bool) (e a b t k : Nat) : Prop where
  major : x / 2 ^ 26 % 64 = M
  guard : guardOf x = g
  conv : bitAt x 21 = c
  fe : x / 2 ^ 19 % 4 = e
  fa : x / 2 ^ 13 % 64 = a
  fb : x / 2 ^ 7 % 64 = b
  ft : x / 2 ^ 3 % 16 = t
  fk : x / 2 ^ 2 % 2 = k

theorem wordX_fields {M : Nat} {g : Guard} {c : Bool} {e a b t k : Nat} (hM : M < 64)
    (he : e < 4) (ha : a < 64) (hb : b < 64) (ht : t < 16) (hk : k < 2) :
    FieldsX (wordX M g c e a b t k) M g c e a b t k := by
  have hc := bit01_lt c
  obtain ⟨h1, h2, h3⟩ := head_fields (w := wordX M g c e a b t k) (M := M) (g := g) (r := bit01 c * 2 ^ 21 + e * 2 ^ 19 + a * 2 ^ 13 + b * 2 ^ 7 + t * 2 ^ 3 + k * 2 ^ 2)
    (by unfold wordX; omega) hM (by omega)
  exact ⟨h1, h2, bitAt_eq (by omega), by omega, by omega, by omega, by omega, by omega⟩

/-! ## The decoder of each major -/

theorem decodeRaw_00 {w : Nat} (h : w / 2 ^ 26 % 64 = 0x00) : decodeRaw w = dec00 w := by
  rw [decodeRaw, h, if_pos (by decide), decodeLow, h]; rfl
theorem decodeRaw_01 {w : Nat} (h : w / 2 ^ 26 % 64 = 0x01) : decodeRaw w = dec01 w := by
  rw [decodeRaw, h, if_pos (by decide), decodeLow, h]; rfl
theorem decodeRaw_02 {w : Nat} (h : w / 2 ^ 26 % 64 = 0x02) : decodeRaw w = dec02 w := by
  rw [decodeRaw, h, if_pos (by decide), decodeLow, h]; rfl
theorem decodeRaw_03 {w : Nat} (h : w / 2 ^ 26 % 64 = 0x03) : decodeRaw w = dec03 w := by
  rw [decodeRaw, h, if_pos (by decide), decodeLow, h]; rfl
theorem decodeRaw_04 {w : Nat} (h : w / 2 ^ 26 % 64 = 0x04) : decodeRaw w = dec04 w := by
  rw [decodeRaw, h, if_pos (by decide), decodeLow, h]; rfl
theorem decodeRaw_05 {w : Nat} (h : w / 2 ^ 26 % 64 = 0x05) : decodeRaw w = dec05 w := by
  rw [decodeRaw, h, if_pos (by decide), decodeLow, h]; rfl
theorem decodeRaw_06 {w : Nat} (h : w / 2 ^ 26 % 64 = 0x06) : decodeRaw w = dec06 w := by
  rw [decodeRaw, h, if_pos (by decide), decodeLow, h]; rfl
theorem decodeRaw_07 {w : Nat} (h : w / 2 ^ 26 % 64 = 0x07) : decodeRaw w = dec07 w := by
  rw [decodeRaw, h, if_pos (by decide), decodeLow, h]; rfl
theorem decodeRaw_08 {w : Nat} (h : w / 2 ^ 26 % 64 = 0x08) : decodeRaw w = dec08 w := by
  rw [decodeRaw, h, if_pos (by decide), decodeLow, h]; rfl
theorem decodeRaw_09 {w : Nat} (h : w / 2 ^ 26 % 64 = 0x09) : decodeRaw w = dec09 w := by
  rw [decodeRaw, h, if_pos (by decide), decodeLow, h]; rfl
theorem decodeRaw_0A {w : Nat} (h : w / 2 ^ 26 % 64 = 0x0A) : decodeRaw w = dec0A w := by
  rw [decodeRaw, h, if_pos (by decide), decodeLow, h]; rfl
theorem decodeRaw_0B {w : Nat} (h : w / 2 ^ 26 % 64 = 0x0B) : decodeRaw w = dec0B w := by
  rw [decodeRaw, h, if_pos (by decide), decodeLow, h]; rfl
theorem decodeRaw_0C {w : Nat} (h : w / 2 ^ 26 % 64 = 0x0C) : decodeRaw w = dec0C w := by
  rw [decodeRaw, h, if_pos (by decide), decodeLow, h]; rfl
theorem decodeRaw_0D {w : Nat} (h : w / 2 ^ 26 % 64 = 0x0D) : decodeRaw w = dec0D w := by
  rw [decodeRaw, h, if_pos (by decide), decodeLow, h]; rfl
theorem decodeRaw_0E {w : Nat} (h : w / 2 ^ 26 % 64 = 0x0E) : decodeRaw w = dec0E w := by
  rw [decodeRaw, h, if_pos (by decide), decodeLow, h]; rfl
theorem decodeRaw_0F {w : Nat} (h : w / 2 ^ 26 % 64 = 0x0F) : decodeRaw w = dec0F w := by
  rw [decodeRaw, h, if_pos (by decide), decodeLow, h]; rfl
theorem decodeRaw_10 {w : Nat} (h : w / 2 ^ 26 % 64 = 0x10) : decodeRaw w = dec10 w := by
  rw [decodeRaw, h, if_pos (by decide), decodeLow, h]; rfl
theorem decodeRaw_11 {w : Nat} (h : w / 2 ^ 26 % 64 = 0x11) : decodeRaw w = dec11 w := by
  rw [decodeRaw, h, if_pos (by decide), decodeLow, h]; rfl
theorem decodeRaw_12 {w : Nat} (h : w / 2 ^ 26 % 64 = 0x12) : decodeRaw w = dec12 w := by
  rw [decodeRaw, h, if_pos (by decide), decodeLow, h]; rfl
theorem decodeRaw_13 {w : Nat} (h : w / 2 ^ 26 % 64 = 0x13) : decodeRaw w = dec13 w := by
  rw [decodeRaw, h, if_pos (by decide), decodeLow, h]; rfl
theorem decodeRaw_14 {w : Nat} (h : w / 2 ^ 26 % 64 = 0x14) : decodeRaw w = dec14 w := by
  rw [decodeRaw, h, if_pos (by decide), decodeLow, h]; rfl
theorem decodeRaw_15 {w : Nat} (h : w / 2 ^ 26 % 64 = 0x15) : decodeRaw w = dec15 w := by
  rw [decodeRaw, h, if_pos (by decide), decodeLow, h]; rfl
theorem decodeRaw_16 {w : Nat} (h : w / 2 ^ 26 % 64 = 0x16) : decodeRaw w = dec16 w := by
  rw [decodeRaw, h, if_pos (by decide), decodeLow, h]; rfl
theorem decodeRaw_17 {w : Nat} (h : w / 2 ^ 26 % 64 = 0x17) : decodeRaw w = dec17 w := by
  rw [decodeRaw, h, if_pos (by decide), decodeLow, h]; rfl
theorem decodeRaw_18 {w : Nat} (h : w / 2 ^ 26 % 64 = 0x18) : decodeRaw w = dec18 w := by
  rw [decodeRaw, h, if_pos (by decide), decodeLow, h]; rfl
theorem decodeRaw_19 {w : Nat} (h : w / 2 ^ 26 % 64 = 0x19) : decodeRaw w = dec19 w := by
  rw [decodeRaw, h, if_pos (by decide), decodeLow, h]; rfl
theorem decodeRaw_1A {w : Nat} (h : w / 2 ^ 26 % 64 = 0x1A) : decodeRaw w = dec1A w := by
  rw [decodeRaw, h, if_pos (by decide), decodeLow, h]; rfl
theorem decodeRaw_1B {w : Nat} (h : w / 2 ^ 26 % 64 = 0x1B) : decodeRaw w = dec1B w := by
  rw [decodeRaw, h, if_pos (by decide), decodeLow, h]; rfl
theorem decodeRaw_1C {w : Nat} (h : w / 2 ^ 26 % 64 = 0x1C) : decodeRaw w = dec1C w := by
  rw [decodeRaw, h, if_pos (by decide), decodeLow, h]; rfl
theorem decodeRaw_1D {w : Nat} (h : w / 2 ^ 26 % 64 = 0x1D) : decodeRaw w = dec1D w := by
  rw [decodeRaw, h, if_pos (by decide), decodeLow, h]; rfl
theorem decodeRaw_20 {w : Nat} (h : w / 2 ^ 26 % 64 = 0x20) : decodeRaw w = dec20 w := by
  rw [decodeRaw, h, if_pos (by decide), decodeLow, h]; rfl
theorem decodeRaw_21 {w : Nat} (h : w / 2 ^ 26 % 64 = 0x21) : decodeRaw w = dec21 w := by
  rw [decodeRaw, h, if_pos (by decide), decodeLow, h]; rfl
theorem decodeRaw_22 {w : Nat} (h : w / 2 ^ 26 % 64 = 0x22) : decodeRaw w = dec22 w := by
  rw [decodeRaw, h, if_pos (by decide), decodeLow, h]; rfl
theorem decodeRaw_23 {w : Nat} (h : w / 2 ^ 26 % 64 = 0x23) : decodeRaw w = dec23 w := by
  rw [decodeRaw, h, if_pos (by decide), decodeLow, h]; rfl
theorem decodeRaw_24 {w : Nat} (h : w / 2 ^ 26 % 64 = 0x24) : decodeRaw w = dec24 w := by
  rw [decodeRaw, h, if_pos (by decide), decodeLow, h]; rfl
theorem decodeRaw_25 {w : Nat} (h : w / 2 ^ 26 % 64 = 0x25) : decodeRaw w = dec25 w := by
  rw [decodeRaw, h, if_pos (by decide), decodeLow, h]; rfl
theorem decodeRaw_26 {w : Nat} (h : w / 2 ^ 26 % 64 = 0x26) : decodeRaw w = dec26 w := by
  rw [decodeRaw, h, if_pos (by decide), decodeLow, h]; rfl
theorem decodeRaw_27 {w : Nat} (h : w / 2 ^ 26 % 64 = 0x27) : decodeRaw w = dec27 w := by
  rw [decodeRaw, h, if_pos (by decide), decodeLow, h]; rfl
theorem decodeRaw_28 {w : Nat} (h : w / 2 ^ 26 % 64 = 0x28) : decodeRaw w = dec28 w := by
  rw [decodeRaw, h, if_pos (by decide), decodeLow, h]; rfl
theorem decodeRaw_29 {w : Nat} (h : w / 2 ^ 26 % 64 = 0x29) : decodeRaw w = dec29 w := by
  rw [decodeRaw, h, if_pos (by decide), decodeLow, h]; rfl
theorem decodeRaw_2A {w : Nat} (h : w / 2 ^ 26 % 64 = 0x2A) : decodeRaw w = dec2A w := by
  rw [decodeRaw, h, if_pos (by decide), decodeLow, h]; rfl
theorem decodeRaw_2B {w : Nat} (h : w / 2 ^ 26 % 64 = 0x2B) : decodeRaw w = dec2B w := by
  rw [decodeRaw, h, if_pos (by decide), decodeLow, h]; rfl
theorem decodeRaw_2C {w : Nat} (h : w / 2 ^ 26 % 64 = 0x2C) : decodeRaw w = dec2C w := by
  rw [decodeRaw, h, if_pos (by decide), decodeLow, h]; rfl
theorem decodeRaw_2D {w : Nat} (h : w / 2 ^ 26 % 64 = 0x2D) : decodeRaw w = dec2D w := by
  rw [decodeRaw, h, if_pos (by decide), decodeLow, h]; rfl
theorem decodeRaw_2E {w : Nat} (h : w / 2 ^ 26 % 64 = 0x2E) : decodeRaw w = dec2E w := by
  rw [decodeRaw, h, if_pos (by decide), decodeLow, h]; rfl
theorem decodeRaw_2F {w : Nat} (h : w / 2 ^ 26 % 64 = 0x2F) : decodeRaw w = dec2F w := by
  rw [decodeRaw, h, if_pos (by decide), decodeLow, h]; rfl
theorem decodeRaw_30 {w : Nat} (h : w / 2 ^ 26 % 64 = 0x30) : decodeRaw w = dec30 w := by
  rw [decodeRaw, h, if_neg (by decide), decodeHigh, h]; rfl
theorem decodeRaw_31 {w : Nat} (h : w / 2 ^ 26 % 64 = 0x31) : decodeRaw w = dec31 w := by
  rw [decodeRaw, h, if_neg (by decide), decodeHigh, h]; rfl
theorem decodeRaw_32 {w : Nat} (h : w / 2 ^ 26 % 64 = 0x32) : decodeRaw w = dec32 w := by
  rw [decodeRaw, h, if_neg (by decide), decodeHigh, h]; rfl
theorem decodeRaw_33 {w : Nat} (h : w / 2 ^ 26 % 64 = 0x33) : decodeRaw w = dec33 w := by
  rw [decodeRaw, h, if_neg (by decide), decodeHigh, h]; rfl
theorem decodeRaw_34 {w : Nat} (h : w / 2 ^ 26 % 64 = 0x34) : decodeRaw w = dec34 w := by
  rw [decodeRaw, h, if_neg (by decide), decodeHigh, h]; rfl
theorem decodeRaw_35 {w : Nat} (h : w / 2 ^ 26 % 64 = 0x35) : decodeRaw w = dec35 w := by
  rw [decodeRaw, h, if_neg (by decide), decodeHigh, h]; rfl
theorem decodeRaw_36 {w : Nat} (h : w / 2 ^ 26 % 64 = 0x36) : decodeRaw w = dec36 w := by
  rw [decodeRaw, h, if_neg (by decide), decodeHigh, h]; rfl
theorem decodeRaw_38 {w : Nat} (h : w / 2 ^ 26 % 64 = 0x38) : decodeRaw w = dec38 w := by
  rw [decodeRaw, h, if_neg (by decide), decodeHigh, h]; rfl
theorem decodeRaw_39 {w : Nat} (h : w / 2 ^ 26 % 64 = 0x39) : decodeRaw w = dec39 w := by
  rw [decodeRaw, h, if_neg (by decide), decodeHigh, h]; rfl

/-- A word decodes to an instruction whose own it is, when `decodeRaw` gives it and its guard is permitted. -/
theorem roundTrip {i : Instr} {W : Nat} {g : Guard} (he : encode i = some W) (hG : guardOf W = g)
    (hg : i.wellFormed = true → g.ok = true) (hr : decodeRaw W = some i) (hw : i.wellFormed = true) (w : Nat)
    (h : encode i = some w) : decode w = .ok i := by
  obtain rfl : W = w := Option.some.inj (he.symm.trans h)
  have hg' : (guardOf W).ok = true := by rw [hG]; exact hg hw
  have hn' : W ≠ 0x03C00000 := by
    rintro rfl
    exact absurd hg' (by decide)
  simp [decode, hn', hr, hg', hw, he]

theorem fin_lt {n N : Nat} (x : Fin n) (h : n ≤ N) : x.val < N := Nat.lt_of_lt_of_le x.isLt h

/-- A field that takes `n` values, of a place that holds more. -/
theorem fieldAt_of {w lo n N : Nat} [NeZero n] (d : Fin n) (h : w / 2 ^ lo % N = d.val) (hd : n ∣ N) :
    fieldAt w lo n = d := by
  apply fieldAt_eq
  rw [← Nat.mod_mod_of_dvd (w / 2 ^ lo) hd, h, Nat.mod_eq_of_lt d.isLt]

theorem oddOf_eq (k : Nat) : oddOf k = k * 2 + 1 := rfl

theorem and_left {x y : Bool} (h : (x && y) = true) : x = true := (Bool.and_eq_true_iff.1 h).1

end Sys2Proof
end

