-- ==== Sys2Proof/Laws/Memory.lean ====
section
/-! SUPPORT. Memory: reads after writes, and every operation keeps the canonical form. -/

namespace Sys2Proof.Machine

@[simp] theorem Memory.get_nil (a : Nat) : Memory.get [] a = Memory.unlisted := rfl

theorem Memory.wfFrom_cons (lo : Nat) (c : Host.Cell) (m : Memory) :
    Memory.wfFrom lo (c :: m) = true ↔ lo ≤ c.1 ∧ c.2 ≠ Memory.unlisted ∧ Memory.wfFrom (c.1 + 1) m = true := by
  simp [Memory.wfFrom, and_assoc]

theorem Memory.wfFrom_mono {lo lo' : Nat} {m : Memory} (h : Memory.wfFrom lo m = true) (hl : lo' ≤ lo) :
    Memory.wfFrom lo' m = true := by
  cases m with
  | nil => rfl
  | cons c m =>
    rw [wfFrom_cons] at h ⊢
    exact ⟨hl.trans h.1, h.2⟩

/-- Below its first entry a memory reads as empty. -/
theorem Memory.get_below {lo a : Nat} {m : Memory} (h : Memory.wfFrom lo m = true) (ha : a < lo) :
    m.get a = Memory.unlisted := by
  cases m with
  | nil => rfl
  | cons c m =>
    rw [wfFrom_cons] at h
    have : a < c.1 := by omega
    simp [Memory.get, this]

theorem Memory.wfFrom_set {lo a : Nat} {m : Memory} (b : Byte) (h : Memory.wfFrom lo m = true) (ha : lo ≤ a) :
    Memory.wfFrom lo (m.set a b) = true := by
  induction m generalizing lo with
  | nil =>
    unfold Memory.set
    split
    · rfl
    · rename_i hb; exact (wfFrom_cons ..).2 ⟨ha, hb, rfl⟩
  | cons c m ih =>
    have h' := (wfFrom_cons ..).1 h
    unfold Memory.set
    split
    · split
      · exact h
      · rename_i hl hb
        exact (wfFrom_cons ..).2 ⟨ha, hb, (wfFrom_cons ..).2 ⟨hl, h'.2⟩⟩
    · split
      · rename_i e
        split
        · exact wfFrom_mono h'.2.2 (by omega)
        · rename_i hb
          exact (wfFrom_cons ..).2 ⟨ha, hb, by rw [e]; exact h'.2.2⟩
      · exact (wfFrom_cons ..).2 ⟨h'.1, h'.2.1, ih h'.2.2 (by omega)⟩

theorem Memory.get_set {lo : Nat} {m : Memory} (a x : Nat) (b : Byte) (h : Memory.wfFrom lo m = true) :
    (m.set a b).get x = if x = a then b else m.get x := by
  induction m generalizing lo with
  | nil =>
    unfold Memory.set
    split
    · rename_i hb; subst hb; simp
    · simp only [Memory.get]
      split
      · rw [if_neg (by omega)]
      · rfl
  | cons c m ih =>
    have h' := (wfFrom_cons ..).1 h
    have below : ∀ y, y < c.1 + 1 → Memory.get m y = Memory.unlisted := fun y hy => get_below h'.2.2 hy
    unfold Memory.set
    split
    · rename_i hl
      split
      · rename_i hb; subst hb
        split
        · rename_i hx; subst hx; simp [Memory.get, hl]
        · rfl
      · rw [Memory.get]
        split
        · have : x < c.1 := by omega
          simp [Memory.get, this, show x ≠ a by omega]
        · split <;> simp
    · split
      · rename_i hl e
        split
        · rename_i hb; subst hb
          split
          · rename_i hx; rw [below x (by omega)]
          · rename_i hx
            rw [Memory.get]
            split
            · exact below x (by omega)
            · rw [if_neg (by omega)]
        · rw [Memory.get, Memory.get]
          split
          · rw [if_neg (by omega), if_pos (by omega)]
          · split
            · rfl
            · rename_i hx; rw [if_neg (by omega), if_neg (by omega)]
      · rename_i hl e
        rw [Memory.get, Memory.get, ih h'.2.2]
        split
        · rw [if_neg (by omega)]
        · split
          · rw [if_neg (by omega)]
          · rfl

theorem Memory.wf_set {m : Memory} (a : Nat) (b : Byte) (h : m.wf = true) : (m.set a b).wf = true :=
  wfFrom_set b h (Nat.zero_le a)

theorem Memory.wf_write {m : Memory} (a : Nat) (bs : List Byte) (h : m.wf = true) : (m.write a bs).wf = true := by
  induction bs generalizing m a with
  | nil => exact h
  | cons b bs ih => exact ih (a + 1) (wf_set a b h)

theorem Memory.wfFrom_filter {lo : Nat} {m : Memory} (p : Host.Cell → Bool) (h : Memory.wfFrom lo m = true) :
    Memory.wfFrom lo (m.filter p) = true := by
  induction m generalizing lo with
  | nil => rfl
  | cons c m ih =>
    have h' := (wfFrom_cons ..).1 h
    rw [List.filter_cons]
    split
    · exact (wfFrom_cons ..).2 ⟨h'.1, h'.2.1, ih h'.2.2⟩
    · exact ih (wfFrom_mono h'.2.2 (by omega))

theorem Memory.wf_erase {m : Memory} (lo hi : Nat) (h : m.wf = true) : (m.erase lo hi).wf = true :=
  wfFrom_filter _ h

/-- Two lists in canonical form, the second beyond the first. -/
theorem Memory.wfFrom_append {lo k : Nat} {m n : Memory} (hl : lo ≤ k) (hm : Memory.wfFrom lo m = true)
    (hk : ∀ c ∈ m, c.1 < k) (hn : Memory.wfFrom k n = true) : Memory.wfFrom lo (m ++ n) = true := by
  induction m generalizing lo with
  | nil => exact wfFrom_mono hn hl
  | cons c m ih =>
    have h' := (wfFrom_cons ..).1 hm
    exact (wfFrom_cons ..).2 ⟨h'.1, h'.2.1,
      ih (hk c List.mem_cons_self) h'.2.2 (fun d hd => hk d (List.mem_cons_of_mem c hd))⟩

theorem Memory.wfFrom_above {lo k : Nat} {m : Memory} (h : Memory.wfFrom lo m = true) (hk : ∀ c ∈ m, k ≤ c.1) :
    Memory.wfFrom k m = true := by
  cases m with
  | nil => rfl
  | cons c m =>
    have h' := (wfFrom_cons ..).1 h
    exact (wfFrom_cons ..).2 ⟨hk c List.mem_cons_self, h'.2⟩

theorem Memory.wfFrom_listing (a : Nat) (bs : List Byte) :
    Memory.wfFrom a (Memory.listing a bs) = true ∧ ∀ c ∈ Memory.listing a bs, c.1 < a + bs.length := by
  induction bs generalizing a with
  | nil => exact ⟨rfl, by simp [Memory.listing]⟩
  | cons b bs ih =>
    have h := ih (a + 1)
    rw [Memory.listing]
    split
    · exact ⟨wfFrom_mono h.1 (by omega), fun c hc => by have := h.2 c hc; simp; omega⟩
    · rename_i hb
      refine ⟨(wfFrom_cons ..).2 ⟨Nat.le_refl _, hb, h.1⟩, fun c hc => ?_⟩
      rcases List.mem_cons.1 hc with rfl | hc
      · simp
      · have := h.2 c hc; simp; omega

theorem Memory.wf_splice {m : Memory} (a : Nat) (bs : List Byte) (h : m.wf = true) : (m.splice a bs).wf = true := by
  have l := wfFrom_listing a bs
  refine wfFrom_append (k := a + bs.length) (Nat.zero_le _)
    (wfFrom_append (k := a) (Nat.zero_le a) (wfFrom_filter _ h) (fun c hc => by simpa using (List.mem_filter.1 hc).2) l.1)
    (fun c hc => ?_) (wfFrom_above (wfFrom_filter _ h) (fun c hc => by simpa using (List.mem_filter.1 hc).2))
  rcases List.mem_append.1 hc with hc | hc
  · have := (List.mem_filter.1 hc).2
    simp at this
    omega
  · exact l.2 c hc

theorem Memory.wf_foldl_set {m : Memory} (l : List (Nat × Byte)) (h : m.wf = true) :
    (l.foldl (fun m b => m.set b.1 b.2) m).wf = true := by
  induction l generalizing m with
  | nil => exact h
  | cons b l ih => exact ih (wf_set b.1 b.2 h)

/-- A read of one byte after a store of a byte. -/
theorem Memory.get_set_wf {m : Memory} (a x : Nat) (b : Byte) (h : m.wf = true) :
    (m.set a b).get x = if x = a then b else m.get x := get_set a x b h

/-- A read of one byte after a store: that byte of what was stored, or what was there. -/
theorem Memory.get_write {m : Memory} (a x : Nat) (bs : List Byte) (h : m.wf = true) :
    (m.write a bs).get x = if a ≤ x ∧ x < a + bs.length then (bs[x - a]?).getD Memory.unlisted else m.get x := by
  induction bs generalizing m a with
  | nil => simp [Memory.write]
  | cons b bs ih =>
    rw [Memory.write, ih (a + 1) (wf_set a b h), get_set_wf a x b h]
    by_cases hx : x = a
    · subst hx; simp
    · by_cases h1 : a + 1 ≤ x ∧ x < a + 1 + bs.length
      · have h2 : a ≤ x ∧ x < a + (b :: bs).length := by simp; omega
        rw [if_pos h1, if_pos h2, show x - a = x - (a + 1) + 1 by omega, List.getElem?_cons_succ]
      · have h2 : ¬ (a ≤ x ∧ x < a + (b :: bs).length) := by simp; omega
        rw [if_neg h1, if_neg h2, if_neg hx]

theorem Memory.get_erase {m : Memory} (lo hi x : Nat) (h : m.wf = true) :
    (m.erase lo hi).get x = if lo ≤ x ∧ x < hi then Memory.unlisted else m.get x := by
  have key : ∀ (m : Memory) (k : Nat), Memory.wfFrom k m = true →
      Memory.get (m.filter (fun c => c.1 < lo || hi ≤ c.1)) x =
        if lo ≤ x ∧ x < hi then Memory.unlisted else m.get x := by
    intro m
    induction m with
    | nil => intro k _; simp
    | cons c m ih =>
      intro k hk
      have h' := (wfFrom_cons ..).1 hk
      have e := ih _ h'.2.2
      have below : x < c.1 + 1 → Memory.get m x = Memory.unlisted := fun hy => get_below h'.2.2 hy
      rw [List.filter_cons]
      split
      · rename_i hc
        rw [Memory.get, e, Memory.get]
        simp only [Bool.or_eq_true, decide_eq_true_eq] at hc
        split
        · split <;> rfl
        · split
          · rename_i hx; rw [if_neg (by omega)]
          · rfl
      · rename_i hc
        rw [e, Memory.get]
        simp only [Bool.or_eq_true, decide_eq_true_eq, not_or, not_lt, not_le] at hc
        split
        · rfl
        · split
          · exact below (by omega)
          · rw [if_neg (by omega)]
  exact key m 0 h

@[simp] theorem Memory.length_read (m : Memory) (a n : Nat) : (m.read a n).length = n := by
  induction n generalizing a with
  | zero => rfl
  | succ n ih => simp [Memory.read, ih]

theorem Memory.getElem?_read (m : Memory) (a n i : Nat) (h : i < n) : (m.read a n)[i]? = some (m.get (a + i)) := by
  induction n generalizing a i with
  | zero => omega
  | succ n ih =>
    cases i with
    | zero => simp [Memory.read]
    | succ i =>
      rw [Memory.read, List.getElem?_cons_succ, ih (a + 1) i (by omega)]
      congr 2; omega

/-- Bytes just stored read back. -/
theorem Memory.read_write {m : Memory} (a : Nat) (bs : List Byte) (h : m.wf = true) :
    (m.write a bs).read a bs.length = bs := by
  apply List.ext_getElem?
  intro i
  by_cases hi : i < bs.length
  · rw [getElem?_read _ _ _ _ hi, get_write _ _ _ h, if_pos ⟨by omega, by omega⟩]
    simp [hi]
  · rw [List.getElem?_eq_none (by simp; omega), List.getElem?_eq_none (by omega)]

/-- Two memories in canonical form that read alike are the same data. -/
theorem Memory.ext_wf {lo : Nat} {m n : Memory} (hm : Memory.wfFrom lo m = true) (hn : Memory.wfFrom lo n = true)
    (h : ∀ a, m.get a = n.get a) : m = n := by
  induction m generalizing lo n with
  | nil =>
    cases n with
    | nil => rfl
    | cons c n =>
      have h' := (wfFrom_cons ..).1 hn
      have := h c.1
      simp [Memory.get] at this
      exact absurd this.symm h'.2.1
  | cons c m ih =>
    have hc := (wfFrom_cons ..).1 hm
    cases n with
    | nil =>
      have := h c.1
      simp [Memory.get] at this
      exact absurd this hc.2.1
    | cons d n =>
      have hd := (wfFrom_cons ..).1 hn
      have e1 : c.1 = d.1 := by
        rcases Nat.lt_trichotomy c.1 d.1 with hl | he | hl
        · have := h c.1
          simp [Memory.get, hl] at this
          exact absurd this hc.2.1
        · exact he
        · have := h d.1
          simp [Memory.get, hl] at this
          exact absurd this.symm hd.2.1
      have e2 : c.2 = d.2 := by
        have := h c.1
        simpa [Memory.get, e1] using this
      have e3 : m = n := by
        refine ih hc.2.2 (by rw [e1]; exact hd.2.2) (fun a => ?_)
        by_cases ha : a < c.1 + 1
        · rw [get_below hc.2.2 ha, get_below (by rw [e1]; exact hd.2.2) ha]
        · have := h a
          simpa [Memory.get, show ¬ a < c.1 by omega, show ¬ a = c.1 by omega, show ¬ a < d.1 by omega,
            show ¬ a = d.1 by omega] using this
      rw [e3, Prod.ext e1 e2]

end Sys2Proof.Machine
end

