-- ==== Sys2Proof/Laws/State.lean ====
section
/-! SUPPORT. What each update of the state leaves in each field. -/

namespace Sys2Proof.Machine

/-! ### `s.modCore f` -/

@[simp] theorem State.modCore_mem (s : State) (f : Core → Core) : (s.modCore f).mem = s.mem := rfl
@[simp] theorem State.modCore_poison (s : State) (f : Core → Core) : (s.modCore f).poison = s.poison := rfl
@[simp] theorem State.modCore_padPoison (s : State) (f : Core → Core) : (s.modCore f).padPoison = s.padPoison := rfl
@[simp] theorem State.modCore_sealKeys (s : State) (f : Core → Core) : (s.modCore f).sealKeys = s.sealKeys := rfl
@[simp] theorem State.modCore_core (s : State) (f : Core → Core) : (s.modCore f).core = f s.core := rfl
@[simp] theorem State.modCore_others (s : State) (f : Core → Core) : (s.modCore f).others = s.others := rfl
@[simp] theorem State.modCore_asidBase (s : State) (f : Core → Core) : (s.modCore f).asidBase = s.asidBase := rfl
@[simp] theorem State.modCore_asidEn (s : State) (f : Core → Core) : (s.modCore f).asidEn = s.asidEn := rfl
@[simp] theorem State.modCore_fq (s : State) (f : Core → Core) : (s.modCore f).fq = s.fq := rfl
@[simp] theorem State.modCore_batons (s : State) (f : Core → Core) : (s.modCore f).batons = s.batons := rfl
@[simp] theorem State.modCore_memRegs (s : State) (f : Core → Core) : (s.modCore f).memRegs = s.memRegs := rfl
@[simp] theorem State.modCore_domains (s : State) (f : Core → Core) : (s.modCore f).domains = s.domains := rfl
@[simp] theorem State.modCore_planes (s : State) (f : Core → Core) : (s.modCore f).planes = s.planes := rfl
@[simp] theorem State.modCore_allocs (s : State) (f : Core → Core) : (s.modCore f).allocs = s.allocs := rfl
@[simp] theorem State.modCore_swRegs (s : State) (f : Core → Core) : (s.modCore f).swRegs = s.swRegs := rfl
@[simp] theorem State.modCore_lastGrant (s : State) (f : Core → Core) : (s.modCore f).lastGrant = s.lastGrant := rfl
@[simp] theorem State.modCore_starter (s : State) (f : Core → Core) : (s.modCore f).starter = s.starter := rfl
@[simp] theorem State.modCore_ccb (s : State) (f : Core → Core) : (s.modCore f).ccb = s.ccb := rfl
@[simp] theorem State.modCore_sys (s : State) (f : Core → Core) : (s.modCore f).sys = s.sys := rfl
@[simp] theorem State.modCore_keys (s : State) (f : Core → Core) : (s.modCore f).keys = s.keys := rfl
@[simp] theorem State.modCore_maint (s : State) (f : Core → Core) : (s.modCore f).maint = s.maint := rfl
@[simp] theorem State.modCore_cleanups (s : State) (f : Core → Core) : (s.modCore f).cleanups = s.cleanups := rfl
@[simp] theorem State.modCore_hostOut (s : State) (f : Core → Core) : (s.modCore f).hostOut = s.hostOut := rfl
@[simp] theorem State.modCore_linkOut (s : State) (f : Core → Core) : (s.modCore f).linkOut = s.linkOut := rfl
@[simp] theorem State.modCore_fabric (s : State) (f : Core → Core) : (s.modCore f).fabric = s.fabric := rfl
@[simp] theorem State.modCore_aborts (s : State) (f : Core → Core) : (s.modCore f).aborts = s.aborts := rfl
@[simp] theorem State.modCore_hostDirty (s : State) (f : Core → Core) : (s.modCore f).hostDirty = s.hostDirty := rfl
@[simp] theorem State.modCore_peers (s : State) (f : Core → Core) : (s.modCore f).peers = s.peers := rfl
@[simp] theorem State.modCore_caches (s : State) (f : Core → Core) : (s.modCore f).caches = s.caches := rfl
@[simp] theorem State.modCore_engines (s : State) (f : Core → Core) : (s.modCore f).engines = s.engines := rfl
@[simp] theorem State.modCore_lastChan (s : State) (f : Core → Core) : (s.modCore f).lastChan = s.lastChan := rfl
@[simp] theorem State.modCore_agenda (s : State) (f : Core → Core) : (s.modCore f).agenda = s.agenda := rfl
@[simp] theorem State.modCore_sched (s : State) (f : Core → Core) : (s.modCore f).sched = s.sched := rfl
@[simp] theorem State.modCore_phase (s : State) (f : Core → Core) : (s.modCore f).phase = s.phase := rfl
@[simp] theorem State.modCore_fresh (s : State) (f : Core → Core) : (s.modCore f).fresh = s.fresh := rfl
@[simp] theorem State.modCore_stamp (s : State) (f : Core → Core) : (s.modCore f).stamp = s.stamp := rfl
@[simp] theorem State.modCore_stopped (s : State) (f : Core → Core) : (s.modCore f).stopped = s.stopped := rfl

/-! ### `s.modRun f` -/

@[simp] theorem State.modRun_mem (s : State) (f : Coro → Coro) : (s.modRun f).mem = s.mem := rfl
@[simp] theorem State.modRun_poison (s : State) (f : Coro → Coro) : (s.modRun f).poison = s.poison := rfl
@[simp] theorem State.modRun_padPoison (s : State) (f : Coro → Coro) : (s.modRun f).padPoison = s.padPoison := rfl
@[simp] theorem State.modRun_sealKeys (s : State) (f : Coro → Coro) : (s.modRun f).sealKeys = s.sealKeys := rfl
@[simp] theorem State.modRun_core (s : State) (f : Coro → Coro) : (s.modRun f).core = { s.core with run := f s.core.run } := rfl
@[simp] theorem State.modRun_others (s : State) (f : Coro → Coro) : (s.modRun f).others = s.others := rfl
@[simp] theorem State.modRun_asidBase (s : State) (f : Coro → Coro) : (s.modRun f).asidBase = s.asidBase := rfl
@[simp] theorem State.modRun_asidEn (s : State) (f : Coro → Coro) : (s.modRun f).asidEn = s.asidEn := rfl
@[simp] theorem State.modRun_fq (s : State) (f : Coro → Coro) : (s.modRun f).fq = s.fq := rfl
@[simp] theorem State.modRun_batons (s : State) (f : Coro → Coro) : (s.modRun f).batons = s.batons := rfl
@[simp] theorem State.modRun_memRegs (s : State) (f : Coro → Coro) : (s.modRun f).memRegs = s.memRegs := rfl
@[simp] theorem State.modRun_domains (s : State) (f : Coro → Coro) : (s.modRun f).domains = s.domains := rfl
@[simp] theorem State.modRun_planes (s : State) (f : Coro → Coro) : (s.modRun f).planes = s.planes := rfl
@[simp] theorem State.modRun_allocs (s : State) (f : Coro → Coro) : (s.modRun f).allocs = s.allocs := rfl
@[simp] theorem State.modRun_swRegs (s : State) (f : Coro → Coro) : (s.modRun f).swRegs = s.swRegs := rfl
@[simp] theorem State.modRun_lastGrant (s : State) (f : Coro → Coro) : (s.modRun f).lastGrant = s.lastGrant := rfl
@[simp] theorem State.modRun_starter (s : State) (f : Coro → Coro) : (s.modRun f).starter = s.starter := rfl
@[simp] theorem State.modRun_ccb (s : State) (f : Coro → Coro) : (s.modRun f).ccb = s.ccb := rfl
@[simp] theorem State.modRun_sys (s : State) (f : Coro → Coro) : (s.modRun f).sys = s.sys := rfl
@[simp] theorem State.modRun_keys (s : State) (f : Coro → Coro) : (s.modRun f).keys = s.keys := rfl
@[simp] theorem State.modRun_maint (s : State) (f : Coro → Coro) : (s.modRun f).maint = s.maint := rfl
@[simp] theorem State.modRun_cleanups (s : State) (f : Coro → Coro) : (s.modRun f).cleanups = s.cleanups := rfl
@[simp] theorem State.modRun_hostOut (s : State) (f : Coro → Coro) : (s.modRun f).hostOut = s.hostOut := rfl
@[simp] theorem State.modRun_linkOut (s : State) (f : Coro → Coro) : (s.modRun f).linkOut = s.linkOut := rfl
@[simp] theorem State.modRun_fabric (s : State) (f : Coro → Coro) : (s.modRun f).fabric = s.fabric := rfl
@[simp] theorem State.modRun_aborts (s : State) (f : Coro → Coro) : (s.modRun f).aborts = s.aborts := rfl
@[simp] theorem State.modRun_hostDirty (s : State) (f : Coro → Coro) : (s.modRun f).hostDirty = s.hostDirty := rfl
@[simp] theorem State.modRun_peers (s : State) (f : Coro → Coro) : (s.modRun f).peers = s.peers := rfl
@[simp] theorem State.modRun_caches (s : State) (f : Coro → Coro) : (s.modRun f).caches = s.caches := rfl
@[simp] theorem State.modRun_engines (s : State) (f : Coro → Coro) : (s.modRun f).engines = s.engines := rfl
@[simp] theorem State.modRun_lastChan (s : State) (f : Coro → Coro) : (s.modRun f).lastChan = s.lastChan := rfl
@[simp] theorem State.modRun_agenda (s : State) (f : Coro → Coro) : (s.modRun f).agenda = s.agenda := rfl
@[simp] theorem State.modRun_sched (s : State) (f : Coro → Coro) : (s.modRun f).sched = s.sched := rfl
@[simp] theorem State.modRun_phase (s : State) (f : Coro → Coro) : (s.modRun f).phase = s.phase := rfl
@[simp] theorem State.modRun_fresh (s : State) (f : Coro → Coro) : (s.modRun f).fresh = s.fresh := rfl
@[simp] theorem State.modRun_stamp (s : State) (f : Coro → Coro) : (s.modRun f).stamp = s.stamp := rfl
@[simp] theorem State.modRun_stopped (s : State) (f : Coro → Coro) : (s.modRun f).stopped = s.stopped := rfl

/-! ### `s.push e` -/

@[simp] theorem State.push_mem (s : State) (e : Event) : (s.push e).mem = s.mem := rfl
@[simp] theorem State.push_poison (s : State) (e : Event) : (s.push e).poison = s.poison := rfl
@[simp] theorem State.push_padPoison (s : State) (e : Event) : (s.push e).padPoison = s.padPoison := rfl
@[simp] theorem State.push_sealKeys (s : State) (e : Event) : (s.push e).sealKeys = s.sealKeys := rfl
@[simp] theorem State.push_core (s : State) (e : Event) : (s.push e).core = s.core := rfl
@[simp] theorem State.push_others (s : State) (e : Event) : (s.push e).others = s.others := rfl
@[simp] theorem State.push_asidBase (s : State) (e : Event) : (s.push e).asidBase = s.asidBase := rfl
@[simp] theorem State.push_asidEn (s : State) (e : Event) : (s.push e).asidEn = s.asidEn := rfl
@[simp] theorem State.push_fq (s : State) (e : Event) : (s.push e).fq = s.fq := rfl
@[simp] theorem State.push_batons (s : State) (e : Event) : (s.push e).batons = s.batons := rfl
@[simp] theorem State.push_memRegs (s : State) (e : Event) : (s.push e).memRegs = s.memRegs := rfl
@[simp] theorem State.push_domains (s : State) (e : Event) : (s.push e).domains = s.domains := rfl
@[simp] theorem State.push_planes (s : State) (e : Event) : (s.push e).planes = s.planes := rfl
@[simp] theorem State.push_allocs (s : State) (e : Event) : (s.push e).allocs = s.allocs := rfl
@[simp] theorem State.push_swRegs (s : State) (e : Event) : (s.push e).swRegs = s.swRegs := rfl
@[simp] theorem State.push_lastGrant (s : State) (e : Event) : (s.push e).lastGrant = s.lastGrant := rfl
@[simp] theorem State.push_starter (s : State) (e : Event) : (s.push e).starter = s.starter := rfl
@[simp] theorem State.push_ccb (s : State) (e : Event) : (s.push e).ccb = s.ccb := rfl
@[simp] theorem State.push_sys (s : State) (e : Event) : (s.push e).sys = s.sys := rfl
@[simp] theorem State.push_keys (s : State) (e : Event) : (s.push e).keys = s.keys := rfl
@[simp] theorem State.push_maint (s : State) (e : Event) : (s.push e).maint = s.maint := rfl
@[simp] theorem State.push_cleanups (s : State) (e : Event) : (s.push e).cleanups = s.cleanups := rfl
@[simp] theorem State.push_hostOut (s : State) (e : Event) : (s.push e).hostOut = s.hostOut := rfl
@[simp] theorem State.push_linkOut (s : State) (e : Event) : (s.push e).linkOut = s.linkOut := rfl
@[simp] theorem State.push_fabric (s : State) (e : Event) : (s.push e).fabric = s.fabric := rfl
@[simp] theorem State.push_aborts (s : State) (e : Event) : (s.push e).aborts = s.aborts := rfl
@[simp] theorem State.push_hostDirty (s : State) (e : Event) : (s.push e).hostDirty = s.hostDirty := rfl
@[simp] theorem State.push_peers (s : State) (e : Event) : (s.push e).peers = s.peers := rfl
@[simp] theorem State.push_caches (s : State) (e : Event) : (s.push e).caches = s.caches := rfl
@[simp] theorem State.push_engines (s : State) (e : Event) : (s.push e).engines = s.engines := rfl
@[simp] theorem State.push_lastChan (s : State) (e : Event) : (s.push e).lastChan = s.lastChan := rfl
@[simp] theorem State.push_agenda (s : State) (e : Event) : (s.push e).agenda = s.agenda ++ [e] := rfl
@[simp] theorem State.push_sched (s : State) (e : Event) : (s.push e).sched = s.sched := rfl
@[simp] theorem State.push_phase (s : State) (e : Event) : (s.push e).phase = s.phase := rfl
@[simp] theorem State.push_fresh (s : State) (e : Event) : (s.push e).fresh = s.fresh := rfl
@[simp] theorem State.push_stamp (s : State) (e : Event) : (s.push e).stamp = s.stamp := rfl
@[simp] theorem State.push_stopped (s : State) (e : Event) : (s.push e).stopped = s.stopped := rfl

/-! ### `s.setBaton k b` -/

@[simp] theorem State.setBaton_mem (s : State) (k : Nat) (b : Baton) : (s.setBaton k b).mem = s.mem := rfl
@[simp] theorem State.setBaton_poison (s : State) (k : Nat) (b : Baton) : (s.setBaton k b).poison = s.poison := rfl
@[simp] theorem State.setBaton_padPoison (s : State) (k : Nat) (b : Baton) : (s.setBaton k b).padPoison = s.padPoison := rfl
@[simp] theorem State.setBaton_sealKeys (s : State) (k : Nat) (b : Baton) : (s.setBaton k b).sealKeys = s.sealKeys := rfl
@[simp] theorem State.setBaton_core (s : State) (k : Nat) (b : Baton) : (s.setBaton k b).core = s.core := rfl
@[simp] theorem State.setBaton_others (s : State) (k : Nat) (b : Baton) : (s.setBaton k b).others = s.others := rfl
@[simp] theorem State.setBaton_asidBase (s : State) (k : Nat) (b : Baton) : (s.setBaton k b).asidBase = s.asidBase := rfl
@[simp] theorem State.setBaton_asidEn (s : State) (k : Nat) (b : Baton) : (s.setBaton k b).asidEn = s.asidEn := rfl
@[simp] theorem State.setBaton_fq (s : State) (k : Nat) (b : Baton) : (s.setBaton k b).fq = s.fq := rfl
@[simp] theorem State.setBaton_batons (s : State) (k : Nat) (b : Baton) : (s.setBaton k b).batons = (k, b) :: s.batons.filter (·.1 != k) := rfl
@[simp] theorem State.setBaton_memRegs (s : State) (k : Nat) (b : Baton) : (s.setBaton k b).memRegs = s.memRegs := rfl
@[simp] theorem State.setBaton_domains (s : State) (k : Nat) (b : Baton) : (s.setBaton k b).domains = s.domains := rfl
@[simp] theorem State.setBaton_planes (s : State) (k : Nat) (b : Baton) : (s.setBaton k b).planes = s.planes := rfl
@[simp] theorem State.setBaton_allocs (s : State) (k : Nat) (b : Baton) : (s.setBaton k b).allocs = s.allocs := rfl
@[simp] theorem State.setBaton_swRegs (s : State) (k : Nat) (b : Baton) : (s.setBaton k b).swRegs = s.swRegs := rfl
@[simp] theorem State.setBaton_lastGrant (s : State) (k : Nat) (b : Baton) : (s.setBaton k b).lastGrant = s.lastGrant := rfl
@[simp] theorem State.setBaton_starter (s : State) (k : Nat) (b : Baton) : (s.setBaton k b).starter = s.starter := rfl
@[simp] theorem State.setBaton_ccb (s : State) (k : Nat) (b : Baton) : (s.setBaton k b).ccb = s.ccb := rfl
@[simp] theorem State.setBaton_sys (s : State) (k : Nat) (b : Baton) : (s.setBaton k b).sys = s.sys := rfl
@[simp] theorem State.setBaton_keys (s : State) (k : Nat) (b : Baton) : (s.setBaton k b).keys = s.keys := rfl
@[simp] theorem State.setBaton_maint (s : State) (k : Nat) (b : Baton) : (s.setBaton k b).maint = s.maint := rfl
@[simp] theorem State.setBaton_cleanups (s : State) (k : Nat) (b : Baton) : (s.setBaton k b).cleanups = s.cleanups := rfl
@[simp] theorem State.setBaton_hostOut (s : State) (k : Nat) (b : Baton) : (s.setBaton k b).hostOut = s.hostOut := rfl
@[simp] theorem State.setBaton_linkOut (s : State) (k : Nat) (b : Baton) : (s.setBaton k b).linkOut = s.linkOut := rfl
@[simp] theorem State.setBaton_fabric (s : State) (k : Nat) (b : Baton) : (s.setBaton k b).fabric = s.fabric := rfl
@[simp] theorem State.setBaton_aborts (s : State) (k : Nat) (b : Baton) : (s.setBaton k b).aborts = s.aborts := rfl
@[simp] theorem State.setBaton_hostDirty (s : State) (k : Nat) (b : Baton) : (s.setBaton k b).hostDirty = s.hostDirty := rfl
@[simp] theorem State.setBaton_peers (s : State) (k : Nat) (b : Baton) : (s.setBaton k b).peers = s.peers := rfl
@[simp] theorem State.setBaton_caches (s : State) (k : Nat) (b : Baton) : (s.setBaton k b).caches = s.caches := rfl
@[simp] theorem State.setBaton_engines (s : State) (k : Nat) (b : Baton) : (s.setBaton k b).engines = s.engines := rfl
@[simp] theorem State.setBaton_lastChan (s : State) (k : Nat) (b : Baton) : (s.setBaton k b).lastChan = s.lastChan := rfl
@[simp] theorem State.setBaton_agenda (s : State) (k : Nat) (b : Baton) : (s.setBaton k b).agenda = s.agenda := rfl
@[simp] theorem State.setBaton_sched (s : State) (k : Nat) (b : Baton) : (s.setBaton k b).sched = s.sched := rfl
@[simp] theorem State.setBaton_phase (s : State) (k : Nat) (b : Baton) : (s.setBaton k b).phase = s.phase := rfl
@[simp] theorem State.setBaton_fresh (s : State) (k : Nat) (b : Baton) : (s.setBaton k b).fresh = s.fresh := rfl
@[simp] theorem State.setBaton_stamp (s : State) (k : Nat) (b : Baton) : (s.setBaton k b).stamp = s.stamp := rfl
@[simp] theorem State.setBaton_stopped (s : State) (k : Nat) (b : Baton) : (s.setBaton k b).stopped = s.stopped := rfl

/-! ### `s.setFq die q` -/

@[simp] theorem State.setFq_mem (s : State) (die : Nat) (q : FaultQueue) : (s.setFq die q).mem = s.mem := rfl
@[simp] theorem State.setFq_poison (s : State) (die : Nat) (q : FaultQueue) : (s.setFq die q).poison = s.poison := rfl
@[simp] theorem State.setFq_padPoison (s : State) (die : Nat) (q : FaultQueue) : (s.setFq die q).padPoison = s.padPoison := rfl
@[simp] theorem State.setFq_sealKeys (s : State) (die : Nat) (q : FaultQueue) : (s.setFq die q).sealKeys = s.sealKeys := rfl
@[simp] theorem State.setFq_core (s : State) (die : Nat) (q : FaultQueue) : (s.setFq die q).core = s.core := rfl
@[simp] theorem State.setFq_others (s : State) (die : Nat) (q : FaultQueue) : (s.setFq die q).others = s.others := rfl
@[simp] theorem State.setFq_asidBase (s : State) (die : Nat) (q : FaultQueue) : (s.setFq die q).asidBase = s.asidBase := rfl
@[simp] theorem State.setFq_asidEn (s : State) (die : Nat) (q : FaultQueue) : (s.setFq die q).asidEn = s.asidEn := rfl
@[simp] theorem State.setFq_fq (s : State) (die : Nat) (q : FaultQueue) : (s.setFq die q).fq = s.fq.setIfInBounds (die % 16) q := rfl
@[simp] theorem State.setFq_batons (s : State) (die : Nat) (q : FaultQueue) : (s.setFq die q).batons = s.batons := rfl
@[simp] theorem State.setFq_memRegs (s : State) (die : Nat) (q : FaultQueue) : (s.setFq die q).memRegs = s.memRegs := rfl
@[simp] theorem State.setFq_domains (s : State) (die : Nat) (q : FaultQueue) : (s.setFq die q).domains = s.domains := rfl
@[simp] theorem State.setFq_planes (s : State) (die : Nat) (q : FaultQueue) : (s.setFq die q).planes = s.planes := rfl
@[simp] theorem State.setFq_allocs (s : State) (die : Nat) (q : FaultQueue) : (s.setFq die q).allocs = s.allocs := rfl
@[simp] theorem State.setFq_swRegs (s : State) (die : Nat) (q : FaultQueue) : (s.setFq die q).swRegs = s.swRegs := rfl
@[simp] theorem State.setFq_lastGrant (s : State) (die : Nat) (q : FaultQueue) : (s.setFq die q).lastGrant = s.lastGrant := rfl
@[simp] theorem State.setFq_starter (s : State) (die : Nat) (q : FaultQueue) : (s.setFq die q).starter = s.starter := rfl
@[simp] theorem State.setFq_ccb (s : State) (die : Nat) (q : FaultQueue) : (s.setFq die q).ccb = s.ccb := rfl
@[simp] theorem State.setFq_sys (s : State) (die : Nat) (q : FaultQueue) : (s.setFq die q).sys = s.sys := rfl
@[simp] theorem State.setFq_keys (s : State) (die : Nat) (q : FaultQueue) : (s.setFq die q).keys = s.keys := rfl
@[simp] theorem State.setFq_maint (s : State) (die : Nat) (q : FaultQueue) : (s.setFq die q).maint = s.maint := rfl
@[simp] theorem State.setFq_cleanups (s : State) (die : Nat) (q : FaultQueue) : (s.setFq die q).cleanups = s.cleanups := rfl
@[simp] theorem State.setFq_hostOut (s : State) (die : Nat) (q : FaultQueue) : (s.setFq die q).hostOut = s.hostOut := rfl
@[simp] theorem State.setFq_linkOut (s : State) (die : Nat) (q : FaultQueue) : (s.setFq die q).linkOut = s.linkOut := rfl
@[simp] theorem State.setFq_fabric (s : State) (die : Nat) (q : FaultQueue) : (s.setFq die q).fabric = s.fabric := rfl
@[simp] theorem State.setFq_aborts (s : State) (die : Nat) (q : FaultQueue) : (s.setFq die q).aborts = s.aborts := rfl
@[simp] theorem State.setFq_hostDirty (s : State) (die : Nat) (q : FaultQueue) : (s.setFq die q).hostDirty = s.hostDirty := rfl
@[simp] theorem State.setFq_peers (s : State) (die : Nat) (q : FaultQueue) : (s.setFq die q).peers = s.peers := rfl
@[simp] theorem State.setFq_caches (s : State) (die : Nat) (q : FaultQueue) : (s.setFq die q).caches = s.caches := rfl
@[simp] theorem State.setFq_engines (s : State) (die : Nat) (q : FaultQueue) : (s.setFq die q).engines = s.engines := rfl
@[simp] theorem State.setFq_lastChan (s : State) (die : Nat) (q : FaultQueue) : (s.setFq die q).lastChan = s.lastChan := rfl
@[simp] theorem State.setFq_agenda (s : State) (die : Nat) (q : FaultQueue) : (s.setFq die q).agenda = s.agenda := rfl
@[simp] theorem State.setFq_sched (s : State) (die : Nat) (q : FaultQueue) : (s.setFq die q).sched = s.sched := rfl
@[simp] theorem State.setFq_phase (s : State) (die : Nat) (q : FaultQueue) : (s.setFq die q).phase = s.phase := rfl
@[simp] theorem State.setFq_fresh (s : State) (die : Nat) (q : FaultQueue) : (s.setFq die q).fresh = s.fresh := rfl
@[simp] theorem State.setFq_stamp (s : State) (die : Nat) (q : FaultQueue) : (s.setFq die q).stamp = s.stamp := rfl
@[simp] theorem State.setFq_stopped (s : State) (die : Nat) (q : FaultQueue) : (s.setFq die q).stopped = s.stopped := rfl

/-! ### `s.storeHbm pa bs` -/

@[simp] theorem State.storeHbm_padPoison (s : State) (pa : Nat) (bs : List Byte) : (s.storeHbm pa bs).padPoison = s.padPoison := by
  unfold State.storeHbm; split <;> rfl
@[simp] theorem State.storeHbm_core (s : State) (pa : Nat) (bs : List Byte) : (s.storeHbm pa bs).core = s.core := by
  unfold State.storeHbm; split <;> rfl
@[simp] theorem State.storeHbm_others (s : State) (pa : Nat) (bs : List Byte) : (s.storeHbm pa bs).others = s.others := by
  unfold State.storeHbm; split <;> rfl
@[simp] theorem State.storeHbm_asidBase (s : State) (pa : Nat) (bs : List Byte) : (s.storeHbm pa bs).asidBase = s.asidBase := by
  unfold State.storeHbm; split <;> rfl
@[simp] theorem State.storeHbm_asidEn (s : State) (pa : Nat) (bs : List Byte) : (s.storeHbm pa bs).asidEn = s.asidEn := by
  unfold State.storeHbm; split <;> rfl
@[simp] theorem State.storeHbm_fq (s : State) (pa : Nat) (bs : List Byte) : (s.storeHbm pa bs).fq = s.fq := by
  unfold State.storeHbm; split <;> rfl
@[simp] theorem State.storeHbm_batons (s : State) (pa : Nat) (bs : List Byte) : (s.storeHbm pa bs).batons = s.batons := by
  unfold State.storeHbm; split <;> rfl
@[simp] theorem State.storeHbm_memRegs (s : State) (pa : Nat) (bs : List Byte) : (s.storeHbm pa bs).memRegs = s.memRegs := by
  unfold State.storeHbm; split <;> rfl
@[simp] theorem State.storeHbm_domains (s : State) (pa : Nat) (bs : List Byte) : (s.storeHbm pa bs).domains = s.domains := by
  unfold State.storeHbm; split <;> rfl
@[simp] theorem State.storeHbm_planes (s : State) (pa : Nat) (bs : List Byte) : (s.storeHbm pa bs).planes = s.planes := by
  unfold State.storeHbm; split <;> rfl
@[simp] theorem State.storeHbm_allocs (s : State) (pa : Nat) (bs : List Byte) : (s.storeHbm pa bs).allocs = s.allocs := by
  unfold State.storeHbm; split <;> rfl
@[simp] theorem State.storeHbm_swRegs (s : State) (pa : Nat) (bs : List Byte) : (s.storeHbm pa bs).swRegs = s.swRegs := by
  unfold State.storeHbm; split <;> rfl
@[simp] theorem State.storeHbm_lastGrant (s : State) (pa : Nat) (bs : List Byte) : (s.storeHbm pa bs).lastGrant = s.lastGrant := by
  unfold State.storeHbm; split <;> rfl
@[simp] theorem State.storeHbm_starter (s : State) (pa : Nat) (bs : List Byte) : (s.storeHbm pa bs).starter = s.starter := by
  unfold State.storeHbm; split <;> rfl
@[simp] theorem State.storeHbm_ccb (s : State) (pa : Nat) (bs : List Byte) : (s.storeHbm pa bs).ccb = s.ccb := by
  unfold State.storeHbm; split <;> rfl
@[simp] theorem State.storeHbm_sys (s : State) (pa : Nat) (bs : List Byte) : (s.storeHbm pa bs).sys = s.sys := by
  unfold State.storeHbm; split <;> rfl
@[simp] theorem State.storeHbm_keys (s : State) (pa : Nat) (bs : List Byte) : (s.storeHbm pa bs).keys = s.keys := by
  unfold State.storeHbm; split <;> rfl
@[simp] theorem State.storeHbm_maint (s : State) (pa : Nat) (bs : List Byte) : (s.storeHbm pa bs).maint = s.maint := by
  unfold State.storeHbm; split <;> rfl
@[simp] theorem State.storeHbm_cleanups (s : State) (pa : Nat) (bs : List Byte) : (s.storeHbm pa bs).cleanups = s.cleanups := by
  unfold State.storeHbm; split <;> rfl
@[simp] theorem State.storeHbm_hostOut (s : State) (pa : Nat) (bs : List Byte) : (s.storeHbm pa bs).hostOut = s.hostOut := by
  unfold State.storeHbm; split <;> rfl
@[simp] theorem State.storeHbm_linkOut (s : State) (pa : Nat) (bs : List Byte) : (s.storeHbm pa bs).linkOut = s.linkOut := by
  unfold State.storeHbm; split <;> rfl
@[simp] theorem State.storeHbm_fabric (s : State) (pa : Nat) (bs : List Byte) : (s.storeHbm pa bs).fabric = s.fabric := by
  unfold State.storeHbm; split <;> rfl
@[simp] theorem State.storeHbm_aborts (s : State) (pa : Nat) (bs : List Byte) : (s.storeHbm pa bs).aborts = s.aborts := by
  unfold State.storeHbm; split <;> rfl
@[simp] theorem State.storeHbm_hostDirty (s : State) (pa : Nat) (bs : List Byte) : (s.storeHbm pa bs).hostDirty = s.hostDirty := by
  unfold State.storeHbm; split <;> rfl
@[simp] theorem State.storeHbm_peers (s : State) (pa : Nat) (bs : List Byte) : (s.storeHbm pa bs).peers = s.peers := by
  unfold State.storeHbm; split <;> rfl
@[simp] theorem State.storeHbm_engines (s : State) (pa : Nat) (bs : List Byte) : (s.storeHbm pa bs).engines = s.engines := by
  unfold State.storeHbm; split <;> rfl
@[simp] theorem State.storeHbm_lastChan (s : State) (pa : Nat) (bs : List Byte) : (s.storeHbm pa bs).lastChan = s.lastChan := by
  unfold State.storeHbm; split <;> rfl
@[simp] theorem State.storeHbm_agenda (s : State) (pa : Nat) (bs : List Byte) : (s.storeHbm pa bs).agenda = s.agenda := by
  unfold State.storeHbm; split <;> rfl
@[simp] theorem State.storeHbm_sched (s : State) (pa : Nat) (bs : List Byte) : (s.storeHbm pa bs).sched = s.sched := by
  unfold State.storeHbm; split <;> rfl
@[simp] theorem State.storeHbm_phase (s : State) (pa : Nat) (bs : List Byte) : (s.storeHbm pa bs).phase = s.phase := by
  unfold State.storeHbm; split <;> rfl
@[simp] theorem State.storeHbm_fresh (s : State) (pa : Nat) (bs : List Byte) : (s.storeHbm pa bs).fresh = s.fresh := by
  unfold State.storeHbm; split <;> rfl
@[simp] theorem State.storeHbm_stamp (s : State) (pa : Nat) (bs : List Byte) : (s.storeHbm pa bs).stamp = s.stamp := by
  unfold State.storeHbm; split <;> rfl
@[simp] theorem State.storeHbm_stopped (s : State) (pa : Nat) (bs : List Byte) : (s.storeHbm pa bs).stopped = s.stopped := by
  unfold State.storeHbm; split <;> rfl

/-- The words that a device's write covers have left every L1 (R115), unless either end lies in a spill region. -/
theorem State.storeHbm_caches (s : State) (pa : Nat) (bs : List Byte) : (s.storeHbm pa bs).caches =
    if s.inSpillRegion pa || s.inSpillRegion (pa + bs.length - 1) then s.caches
    else s.caches.revoke (fun _ => true) pa bs.length := by
  unfold State.storeHbm; split <;> rfl

/-- The bytes of a device's write: none where either end lies in a spill region (R68). -/
theorem State.storeHbm_mem (s : State) (pa : Nat) (bs : List Byte) : (s.storeHbm pa bs).mem =
    if s.inSpillRegion pa || s.inSpillRegion (pa + bs.length - 1) then s.mem else s.mem.write pa bs := by
  unfold State.storeHbm; split <;> rfl

/-! ### `s.acquireCore k` -/

@[simp] theorem State.acquireCore_mem (s : State) (k : Nat) : (s.acquireCore k).mem = s.mem := rfl
@[simp] theorem State.acquireCore_poison (s : State) (k : Nat) : (s.acquireCore k).poison = s.poison := rfl
@[simp] theorem State.acquireCore_padPoison (s : State) (k : Nat) : (s.acquireCore k).padPoison = s.padPoison := rfl
@[simp] theorem State.acquireCore_sealKeys (s : State) (k : Nat) : (s.acquireCore k).sealKeys = s.sealKeys := rfl
@[simp] theorem State.acquireCore_core (s : State) (k : Nat) : (s.acquireCore k).core = s.core := rfl
@[simp] theorem State.acquireCore_others (s : State) (k : Nat) : (s.acquireCore k).others = s.others := rfl
@[simp] theorem State.acquireCore_asidBase (s : State) (k : Nat) : (s.acquireCore k).asidBase = s.asidBase := rfl
@[simp] theorem State.acquireCore_asidEn (s : State) (k : Nat) : (s.acquireCore k).asidEn = s.asidEn := rfl
@[simp] theorem State.acquireCore_fq (s : State) (k : Nat) : (s.acquireCore k).fq = s.fq := rfl
@[simp] theorem State.acquireCore_batons (s : State) (k : Nat) : (s.acquireCore k).batons = s.batons := rfl
@[simp] theorem State.acquireCore_memRegs (s : State) (k : Nat) : (s.acquireCore k).memRegs = s.memRegs := rfl
@[simp] theorem State.acquireCore_domains (s : State) (k : Nat) : (s.acquireCore k).domains = s.domains := rfl
@[simp] theorem State.acquireCore_planes (s : State) (k : Nat) : (s.acquireCore k).planes = s.planes := rfl
@[simp] theorem State.acquireCore_allocs (s : State) (k : Nat) : (s.acquireCore k).allocs = s.allocs := rfl
@[simp] theorem State.acquireCore_swRegs (s : State) (k : Nat) : (s.acquireCore k).swRegs = s.swRegs := rfl
@[simp] theorem State.acquireCore_lastGrant (s : State) (k : Nat) : (s.acquireCore k).lastGrant = s.lastGrant := rfl
@[simp] theorem State.acquireCore_starter (s : State) (k : Nat) : (s.acquireCore k).starter = s.starter := rfl
@[simp] theorem State.acquireCore_ccb (s : State) (k : Nat) : (s.acquireCore k).ccb = s.ccb := rfl
@[simp] theorem State.acquireCore_sys (s : State) (k : Nat) : (s.acquireCore k).sys = s.sys := rfl
@[simp] theorem State.acquireCore_keys (s : State) (k : Nat) : (s.acquireCore k).keys = s.keys := rfl
@[simp] theorem State.acquireCore_maint (s : State) (k : Nat) : (s.acquireCore k).maint = s.maint := rfl
@[simp] theorem State.acquireCore_cleanups (s : State) (k : Nat) : (s.acquireCore k).cleanups = s.cleanups := rfl
@[simp] theorem State.acquireCore_hostOut (s : State) (k : Nat) : (s.acquireCore k).hostOut = s.hostOut := rfl
@[simp] theorem State.acquireCore_linkOut (s : State) (k : Nat) : (s.acquireCore k).linkOut = s.linkOut := rfl
@[simp] theorem State.acquireCore_fabric (s : State) (k : Nat) : (s.acquireCore k).fabric = s.fabric := rfl
@[simp] theorem State.acquireCore_aborts (s : State) (k : Nat) : (s.acquireCore k).aborts = s.aborts := rfl
@[simp] theorem State.acquireCore_hostDirty (s : State) (k : Nat) : (s.acquireCore k).hostDirty = s.hostDirty := rfl
@[simp] theorem State.acquireCore_peers (s : State) (k : Nat) : (s.acquireCore k).peers = s.peers := rfl
@[simp] theorem State.acquireCore_engines (s : State) (k : Nat) : (s.acquireCore k).engines = s.engines := rfl
@[simp] theorem State.acquireCore_lastChan (s : State) (k : Nat) : (s.acquireCore k).lastChan = s.lastChan := rfl
@[simp] theorem State.acquireCore_agenda (s : State) (k : Nat) : (s.acquireCore k).agenda = s.agenda := rfl
@[simp] theorem State.acquireCore_sched (s : State) (k : Nat) : (s.acquireCore k).sched = s.sched := rfl
@[simp] theorem State.acquireCore_phase (s : State) (k : Nat) : (s.acquireCore k).phase = s.phase := rfl
@[simp] theorem State.acquireCore_fresh (s : State) (k : Nat) : (s.acquireCore k).fresh = s.fresh := rfl
@[simp] theorem State.acquireCore_stamp (s : State) (k : Nat) : (s.acquireCore k).stamp = s.stamp := rfl
@[simp] theorem State.acquireCore_stopped (s : State) (k : Nat) : (s.acquireCore k).stopped = s.stopped := rfl

/-! ### `s.landed` -/

@[simp] theorem State.landed_mem (s : State) : (s.landed).mem = s.mem := by
  unfold State.landed; split <;> rfl
@[simp] theorem State.landed_poison (s : State) : (s.landed).poison = s.poison := by
  unfold State.landed; split <;> rfl
@[simp] theorem State.landed_padPoison (s : State) : (s.landed).padPoison = s.padPoison := by
  unfold State.landed; split <;> rfl
@[simp] theorem State.landed_sealKeys (s : State) : (s.landed).sealKeys = s.sealKeys := by
  unfold State.landed; split <;> rfl
@[simp] theorem State.landed_others (s : State) : (s.landed).others = s.others := by
  unfold State.landed; split <;> rfl
@[simp] theorem State.landed_asidBase (s : State) : (s.landed).asidBase = s.asidBase := by
  unfold State.landed; split <;> rfl
@[simp] theorem State.landed_asidEn (s : State) : (s.landed).asidEn = s.asidEn := by
  unfold State.landed; split <;> rfl
@[simp] theorem State.landed_fq (s : State) : (s.landed).fq = s.fq := by
  unfold State.landed; split <;> rfl
@[simp] theorem State.landed_batons (s : State) : (s.landed).batons = s.batons := by
  unfold State.landed; split <;> rfl
@[simp] theorem State.landed_memRegs (s : State) : (s.landed).memRegs = s.memRegs := by
  unfold State.landed; split <;> rfl
@[simp] theorem State.landed_domains (s : State) : (s.landed).domains = s.domains := by
  unfold State.landed; split <;> rfl
@[simp] theorem State.landed_planes (s : State) : (s.landed).planes = s.planes := by
  unfold State.landed; split <;> rfl
@[simp] theorem State.landed_allocs (s : State) : (s.landed).allocs = s.allocs := by
  unfold State.landed; split <;> rfl
@[simp] theorem State.landed_swRegs (s : State) : (s.landed).swRegs = s.swRegs := by
  unfold State.landed; split <;> rfl
@[simp] theorem State.landed_lastGrant (s : State) : (s.landed).lastGrant = s.lastGrant := by
  unfold State.landed; split <;> rfl
@[simp] theorem State.landed_starter (s : State) : (s.landed).starter = s.starter := by
  unfold State.landed; split <;> rfl
@[simp] theorem State.landed_ccb (s : State) : (s.landed).ccb = s.ccb := by
  unfold State.landed; split <;> rfl
@[simp] theorem State.landed_sys (s : State) : (s.landed).sys = s.sys := by
  unfold State.landed; split <;> rfl
@[simp] theorem State.landed_keys (s : State) : (s.landed).keys = s.keys := by
  unfold State.landed; split <;> rfl
@[simp] theorem State.landed_maint (s : State) : (s.landed).maint = s.maint := by
  unfold State.landed; split <;> rfl
@[simp] theorem State.landed_cleanups (s : State) : (s.landed).cleanups = s.cleanups := by
  unfold State.landed; split <;> rfl
@[simp] theorem State.landed_hostOut (s : State) : (s.landed).hostOut = s.hostOut := by
  unfold State.landed; split <;> rfl
@[simp] theorem State.landed_linkOut (s : State) : (s.landed).linkOut = s.linkOut := by
  unfold State.landed; split <;> rfl
@[simp] theorem State.landed_fabric (s : State) : (s.landed).fabric = s.fabric := by
  unfold State.landed; split <;> rfl
@[simp] theorem State.landed_aborts (s : State) : (s.landed).aborts = s.aborts := by
  unfold State.landed; split <;> rfl
@[simp] theorem State.landed_hostDirty (s : State) : (s.landed).hostDirty = s.hostDirty := by
  unfold State.landed; split <;> rfl
@[simp] theorem State.landed_peers (s : State) : (s.landed).peers = s.peers := by
  unfold State.landed; split <;> rfl
@[simp] theorem State.landed_caches (s : State) : (s.landed).caches = s.caches := by
  unfold State.landed; split <;> rfl
@[simp] theorem State.landed_engines (s : State) : (s.landed).engines = s.engines := by
  unfold State.landed; split <;> rfl
@[simp] theorem State.landed_lastChan (s : State) : (s.landed).lastChan = s.lastChan := by
  unfold State.landed; split <;> rfl
@[simp] theorem State.landed_agenda (s : State) : (s.landed).agenda = s.agenda := by
  unfold State.landed; split <;> rfl
@[simp] theorem State.landed_sched (s : State) : (s.landed).sched = s.sched := by
  unfold State.landed; split <;> rfl
@[simp] theorem State.landed_phase (s : State) : (s.landed).phase = s.phase := by
  unfold State.landed; split <;> rfl
@[simp] theorem State.landed_fresh (s : State) : (s.landed).fresh = s.fresh := by
  unfold State.landed; split <;> rfl
@[simp] theorem State.landed_stamp (s : State) : (s.landed).stamp = s.stamp := by
  unfold State.landed; split <;> rfl
@[simp] theorem State.landed_stopped (s : State) : (s.landed).stopped = s.stopped := by
  unfold State.landed; split <;> rfl

/-! ### Writes of one field of the running coroutine are changes of it -/

@[simp] theorem State.setS_eq (s : State) (d : Fin 32) (v : Word) : s.setS d v = s.modRun (·.setS d v) := rfl
@[simp] theorem State.setG_eq (s : State) (i : Fin 8) (b : Bool) : s.setG i b = s.modRun (·.setG i b) := rfl
@[simp] theorem State.setPc_eq (s : State) (v : Word) : s.setPc v = s.modRun (fun c => { c with pc := v }) := rfl
@[simp] theorem State.advance_eq (s : State) : s.advance = s.modRun (fun c => { c with pc := c.pc + 4 }) := rfl
theorem State.finishV_eq (s : State) (h : s.core.cut = none) : s.finishV = s.landed.modRun Coro.finishV := by
  simp [State.finishV, h]
@[simp] theorem State.modRun_modRun (s : State) (f h : Coro → Coro) :
    (s.modRun f).modRun h = s.modRun (fun c => h (f c)) := rfl

/-! ### `setS` and `setG` of a coroutine change one register -/

@[simp] theorem Coro.setS_cnum (c : Coro) (d : Fin 32) (v : Word) : (c.setS d v).cnum = c.cnum := by
  unfold Coro.setS; split <;> rfl
@[simp] theorem Coro.setS_priv (c : Coro) (d : Fin 32) (v : Word) : (c.setS d v).priv = c.priv := by
  unfold Coro.setS; split <;> rfl
@[simp] theorem Coro.setS_asid (c : Coro) (d : Fin 32) (v : Word) : (c.setS d v).asid = c.asid := by
  unfold Coro.setS; split <;> rfl
@[simp] theorem Coro.setS_inc (c : Coro) (d : Fin 32) (v : Word) : (c.setS d v).inc = c.inc := by
  unfold Coro.setS; split <;> rfl
@[simp] theorem Coro.setS_launch (c : Coro) (d : Fin 32) (v : Word) : (c.setS d v).launch = c.launch := by
  unfold Coro.setS; split <;> rfl
@[simp] theorem Coro.setS_obj (c : Coro) (d : Fin 32) (v : Word) : (c.setS d v).obj = c.obj := by
  unfold Coro.setS; split <;> rfl
@[simp] theorem Coro.setS_g (c : Coro) (d : Fin 32) (v : Word) : (c.setS d v).g = c.g := by
  unfold Coro.setS; split <;> rfl
@[simp] theorem Coro.setS_pc (c : Coro) (d : Fin 32) (v : Word) : (c.setS d v).pc = c.pc := by
  unfold Coro.setS; split <;> rfl
@[simp] theorem Coro.setS_vl (c : Coro) (d : Fin 32) (v : Word) : (c.setS d v).vl = c.vl := by
  unfold Coro.setS; split <;> rfl
@[simp] theorem Coro.setS_rc (c : Coro) (d : Fin 32) (v : Word) : (c.setS d v).rc = c.rc := by
  unfold Coro.setS; split <;> rfl
@[simp] theorem Coro.setS_vstride (c : Coro) (d : Fin 32) (v : Word) : (c.setS d v).vstride = c.vstride := by
  unfold Coro.setS; split <;> rfl
@[simp] theorem Coro.setS_rstride (c : Coro) (d : Fin 32) (v : Word) : (c.setS d v).rstride = c.rstride := by
  unfold Coro.setS; split <;> rfl
@[simp] theorem Coro.setS_vtype (c : Coro) (d : Fin 32) (v : Word) : (c.setS d v).vtype = c.vtype := by
  unfold Coro.setS; split <;> rfl
@[simp] theorem Coro.setS_nreg (c : Coro) (d : Fin 32) (v : Word) : (c.setS d v).nreg = c.nreg := by
  unfold Coro.setS; split <;> rfl
@[simp] theorem Coro.setS_wmax (c : Coro) (d : Fin 32) (v : Word) : (c.setS d v).wmax = c.wmax := by
  unfold Coro.setS; split <;> rfl
@[simp] theorem Coro.setS_mshape (c : Coro) (d : Fin 32) (v : Word) : (c.setS d v).mshape = c.mshape := by
  unfold Coro.setS; split <;> rfl
@[simp] theorem Coro.setS_vstart (c : Coro) (d : Fin 32) (v : Word) : (c.setS d v).vstart = c.vstart := by
  unfold Coro.setS; split <;> rfl
@[simp] theorem Coro.setS_vcarry (c : Coro) (d : Fin 32) (v : Word) : (c.setS d v).vcarry = c.vcarry := by
  unfold Coro.setS; split <;> rfl
@[simp] theorem Coro.setS_fflags (c : Coro) (d : Fin 32) (v : Word) : (c.setS d v).fflags = c.fflags := by
  unfold Coro.setS; split <;> rfl
@[simp] theorem Coro.setS_frm (c : Coro) (d : Fin 32) (v : Word) : (c.setS d v).frm = c.frm := by
  unfold Coro.setS; split <;> rfl
@[simp] theorem Coro.setS_lc (c : Coro) (d : Fin 32) (v : Word) : (c.setS d v).lc = c.lc := by
  unfold Coro.setS; split <;> rfl
@[simp] theorem Coro.setS_prio (c : Coro) (d : Fin 32) (v : Word) : (c.setS d v).prio = c.prio := by
  unfold Coro.setS; split <;> rfl
@[simp] theorem Coro.setS_ceil (c : Coro) (d : Fin 32) (v : Word) : (c.setS d v).ceil = c.ceil := by
  unfold Coro.setS; split <;> rfl
@[simp] theorem Coro.setS_stripBase (c : Coro) (d : Fin 32) (v : Word) : (c.setS d v).stripBase = c.stripBase := by
  unfold Coro.setS; split <;> rfl
@[simp] theorem Coro.setS_errV (c : Coro) (d : Fin 32) (v : Word) : (c.setS d v).errV = c.errV := by
  unfold Coro.setS; split <;> rfl
@[simp] theorem Coro.setS_errLane (c : Coro) (d : Fin 32) (v : Word) : (c.setS d v).errLane = c.errLane := by
  unfold Coro.setS; split <;> rfl
@[simp] theorem Coro.setS_errRow (c : Coro) (d : Fin 32) (v : Word) : (c.setS d v).errRow = c.errRow := by
  unfold Coro.setS; split <;> rfl
@[simp] theorem Coro.setS_errElem (c : Coro) (d : Fin 32) (v : Word) : (c.setS d v).errElem = c.errElem := by
  unfold Coro.setS; split <;> rfl
@[simp] theorem Coro.setS_msegEn (c : Coro) (d : Fin 32) (v : Word) : (c.setS d v).msegEn = c.msegEn := by
  unfold Coro.setS; split <;> rfl
@[simp] theorem Coro.setS_msegToff (c : Coro) (d : Fin 32) (v : Word) : (c.setS d v).msegToff = c.msegToff := by
  unfold Coro.setS; split <;> rfl
@[simp] theorem Coro.setS_msegNseg (c : Coro) (d : Fin 32) (v : Word) : (c.setS d v).msegNseg = c.msegNseg := by
  unfold Coro.setS; split <;> rfl
@[simp] theorem Coro.setS_msegCur (c : Coro) (d : Fin 32) (v : Word) : (c.setS d v).msegCur = c.msegCur := by
  unfold Coro.setS; split <;> rfl
@[simp] theorem Coro.setS_v (c : Coro) (d : Fin 32) (v : Word) : (c.setS d v).v = c.v := by
  unfold Coro.setS; split <;> rfl
@[simp] theorem Coro.setS_m (c : Coro) (d : Fin 32) (v : Word) : (c.setS d v).m = c.m := by
  unfold Coro.setS; split <;> rfl
@[simp] theorem Coro.setS_acc (c : Coro) (d : Fin 32) (v : Word) : (c.setS d v).acc = c.acc := by
  unfold Coro.setS; split <;> rfl
@[simp] theorem Coro.setS_armed (c : Coro) (d : Fin 32) (v : Word) : (c.setS d v).armed = c.armed := by
  unfold Coro.setS; split <;> rfl
@[simp] theorem Coro.setS_woken (c : Coro) (d : Fin 32) (v : Word) : (c.setS d v).woken = c.woken := by
  unfold Coro.setS; split <;> rfl
@[simp] theorem Coro.setS_tags (c : Coro) (d : Fin 32) (v : Word) : (c.setS d v).tags = c.tags := by
  unfold Coro.setS; split <;> rfl
@[simp] theorem Coro.setS_strip (c : Coro) (d : Fin 32) (v : Word) : (c.setS d v).strip = c.strip := by
  unfold Coro.setS; split <;> rfl
@[simp] theorem Coro.setS_convoy (c : Coro) (d : Fin 32) (v : Word) : (c.setS d v).convoy = c.convoy := by
  unfold Coro.setS; split <;> rfl
@[simp] theorem Coro.setS_state (c : Coro) (d : Fin 32) (v : Word) : (c.setS d v).state = c.state := by
  unfold Coro.setS; split <;> rfl
@[simp] theorem Coro.setS_place (c : Coro) (d : Fin 32) (v : Word) : (c.setS d v).place = c.place := by
  unfold Coro.setS; split <;> rfl
@[simp] theorem Coro.setS_bytes (c : Coro) (d : Fin 32) (v : Word) : (c.setS d v).bytes = c.bytes := by
  unfold Coro.setS; split <;> rfl
@[simp] theorem Coro.setS_hasVec (c : Coro) (d : Fin 32) (v : Word) : (c.setS d v).hasVec = c.hasVec := by
  unfold Coro.setS; split <;> rfl
@[simp] theorem Coro.setS_lostVec (c : Coro) (d : Fin 32) (v : Word) : (c.setS d v).lostVec = c.lostVec := by
  unfold Coro.setS; split <;> rfl
@[simp] theorem Coro.setS_passed (c : Coro) (d : Fin 32) (v : Word) : (c.setS d v).passed = c.passed := by
  unfold Coro.setS; split <;> rfl
@[simp] theorem Coro.setS_lastRun (c : Coro) (d : Fin 32) (v : Word) : (c.setS d v).lastRun = c.lastRun := by
  unfold Coro.setS; split <;> rfl
@[simp] theorem Coro.setS_since (c : Coro) (d : Fin 32) (v : Word) : (c.setS d v).since = c.since := by
  unfold Coro.setS; split <;> rfl
@[simp] theorem Coro.setS_pending (c : Coro) (d : Fin 32) (v : Word) : (c.setS d v).pending = c.pending := by
  unfold Coro.setS; split <;> rfl
@[simp] theorem Coro.setS_flight (c : Coro) (d : Fin 32) (v : Word) : (c.setS d v).flight = c.flight := by
  unfold Coro.setS; split <;> rfl
@[simp] theorem Coro.setS_spillAt (c : Coro) (d : Fin 32) (v : Word) : (c.setS d v).spillAt = c.spillAt := by
  unfold Coro.setS; split <;> rfl
@[simp] theorem Coro.setS_deferred (c : Coro) (d : Fin 32) (v : Word) : (c.setS d v).deferred = c.deferred := by
  unfold Coro.setS; split <;> rfl
@[simp] theorem Coro.setS_ecc (c : Coro) (d : Fin 32) (v : Word) : (c.setS d v).ecc = c.ecc := by
  unfold Coro.setS; split <;> rfl
@[simp] theorem Coro.setS_badCtx (c : Coro) (d : Fin 32) (v : Word) : (c.setS d v).badCtx = c.badCtx := by
  unfold Coro.setS; split <;> rfl
@[simp] theorem Coro.setS_killed (c : Coro) (d : Fin 32) (v : Word) : (c.setS d v).killed = c.killed := by
  unfold Coro.setS; split <;> rfl

@[simp] theorem Coro.setG_cnum (c : Coro) (i : Fin 8) (b : Bool) : (c.setG i b).cnum = c.cnum := by
  unfold Coro.setG; split <;> rfl
@[simp] theorem Coro.setG_priv (c : Coro) (i : Fin 8) (b : Bool) : (c.setG i b).priv = c.priv := by
  unfold Coro.setG; split <;> rfl
@[simp] theorem Coro.setG_asid (c : Coro) (i : Fin 8) (b : Bool) : (c.setG i b).asid = c.asid := by
  unfold Coro.setG; split <;> rfl
@[simp] theorem Coro.setG_inc (c : Coro) (i : Fin 8) (b : Bool) : (c.setG i b).inc = c.inc := by
  unfold Coro.setG; split <;> rfl
@[simp] theorem Coro.setG_launch (c : Coro) (i : Fin 8) (b : Bool) : (c.setG i b).launch = c.launch := by
  unfold Coro.setG; split <;> rfl
@[simp] theorem Coro.setG_obj (c : Coro) (i : Fin 8) (b : Bool) : (c.setG i b).obj = c.obj := by
  unfold Coro.setG; split <;> rfl
@[simp] theorem Coro.setG_s (c : Coro) (i : Fin 8) (b : Bool) : (c.setG i b).s = c.s := by
  unfold Coro.setG; split <;> rfl
@[simp] theorem Coro.setG_pc (c : Coro) (i : Fin 8) (b : Bool) : (c.setG i b).pc = c.pc := by
  unfold Coro.setG; split <;> rfl
@[simp] theorem Coro.setG_vl (c : Coro) (i : Fin 8) (b : Bool) : (c.setG i b).vl = c.vl := by
  unfold Coro.setG; split <;> rfl
@[simp] theorem Coro.setG_rc (c : Coro) (i : Fin 8) (b : Bool) : (c.setG i b).rc = c.rc := by
  unfold Coro.setG; split <;> rfl
@[simp] theorem Coro.setG_vstride (c : Coro) (i : Fin 8) (b : Bool) : (c.setG i b).vstride = c.vstride := by
  unfold Coro.setG; split <;> rfl
@[simp] theorem Coro.setG_rstride (c : Coro) (i : Fin 8) (b : Bool) : (c.setG i b).rstride = c.rstride := by
  unfold Coro.setG; split <;> rfl
@[simp] theorem Coro.setG_vtype (c : Coro) (i : Fin 8) (b : Bool) : (c.setG i b).vtype = c.vtype := by
  unfold Coro.setG; split <;> rfl
@[simp] theorem Coro.setG_nreg (c : Coro) (i : Fin 8) (b : Bool) : (c.setG i b).nreg = c.nreg := by
  unfold Coro.setG; split <;> rfl
@[simp] theorem Coro.setG_wmax (c : Coro) (i : Fin 8) (b : Bool) : (c.setG i b).wmax = c.wmax := by
  unfold Coro.setG; split <;> rfl
@[simp] theorem Coro.setG_mshape (c : Coro) (i : Fin 8) (b : Bool) : (c.setG i b).mshape = c.mshape := by
  unfold Coro.setG; split <;> rfl
@[simp] theorem Coro.setG_vstart (c : Coro) (i : Fin 8) (b : Bool) : (c.setG i b).vstart = c.vstart := by
  unfold Coro.setG; split <;> rfl
@[simp] theorem Coro.setG_vcarry (c : Coro) (i : Fin 8) (b : Bool) : (c.setG i b).vcarry = c.vcarry := by
  unfold Coro.setG; split <;> rfl
@[simp] theorem Coro.setG_fflags (c : Coro) (i : Fin 8) (b : Bool) : (c.setG i b).fflags = c.fflags := by
  unfold Coro.setG; split <;> rfl
@[simp] theorem Coro.setG_frm (c : Coro) (i : Fin 8) (b : Bool) : (c.setG i b).frm = c.frm := by
  unfold Coro.setG; split <;> rfl
@[simp] theorem Coro.setG_lc (c : Coro) (i : Fin 8) (b : Bool) : (c.setG i b).lc = c.lc := by
  unfold Coro.setG; split <;> rfl
@[simp] theorem Coro.setG_prio (c : Coro) (i : Fin 8) (b : Bool) : (c.setG i b).prio = c.prio := by
  unfold Coro.setG; split <;> rfl
@[simp] theorem Coro.setG_ceil (c : Coro) (i : Fin 8) (b : Bool) : (c.setG i b).ceil = c.ceil := by
  unfold Coro.setG; split <;> rfl
@[simp] theorem Coro.setG_stripBase (c : Coro) (i : Fin 8) (b : Bool) : (c.setG i b).stripBase = c.stripBase := by
  unfold Coro.setG; split <;> rfl
@[simp] theorem Coro.setG_errV (c : Coro) (i : Fin 8) (b : Bool) : (c.setG i b).errV = c.errV := by
  unfold Coro.setG; split <;> rfl
@[simp] theorem Coro.setG_errLane (c : Coro) (i : Fin 8) (b : Bool) : (c.setG i b).errLane = c.errLane := by
  unfold Coro.setG; split <;> rfl
@[simp] theorem Coro.setG_errRow (c : Coro) (i : Fin 8) (b : Bool) : (c.setG i b).errRow = c.errRow := by
  unfold Coro.setG; split <;> rfl
@[simp] theorem Coro.setG_errElem (c : Coro) (i : Fin 8) (b : Bool) : (c.setG i b).errElem = c.errElem := by
  unfold Coro.setG; split <;> rfl
@[simp] theorem Coro.setG_msegEn (c : Coro) (i : Fin 8) (b : Bool) : (c.setG i b).msegEn = c.msegEn := by
  unfold Coro.setG; split <;> rfl
@[simp] theorem Coro.setG_msegToff (c : Coro) (i : Fin 8) (b : Bool) : (c.setG i b).msegToff = c.msegToff := by
  unfold Coro.setG; split <;> rfl
@[simp] theorem Coro.setG_msegNseg (c : Coro) (i : Fin 8) (b : Bool) : (c.setG i b).msegNseg = c.msegNseg := by
  unfold Coro.setG; split <;> rfl
@[simp] theorem Coro.setG_msegCur (c : Coro) (i : Fin 8) (b : Bool) : (c.setG i b).msegCur = c.msegCur := by
  unfold Coro.setG; split <;> rfl
@[simp] theorem Coro.setG_v (c : Coro) (i : Fin 8) (b : Bool) : (c.setG i b).v = c.v := by
  unfold Coro.setG; split <;> rfl
@[simp] theorem Coro.setG_m (c : Coro) (i : Fin 8) (b : Bool) : (c.setG i b).m = c.m := by
  unfold Coro.setG; split <;> rfl
@[simp] theorem Coro.setG_acc (c : Coro) (i : Fin 8) (b : Bool) : (c.setG i b).acc = c.acc := by
  unfold Coro.setG; split <;> rfl
@[simp] theorem Coro.setG_armed (c : Coro) (i : Fin 8) (b : Bool) : (c.setG i b).armed = c.armed := by
  unfold Coro.setG; split <;> rfl
@[simp] theorem Coro.setG_woken (c : Coro) (i : Fin 8) (b : Bool) : (c.setG i b).woken = c.woken := by
  unfold Coro.setG; split <;> rfl
@[simp] theorem Coro.setG_tags (c : Coro) (i : Fin 8) (b : Bool) : (c.setG i b).tags = c.tags := by
  unfold Coro.setG; split <;> rfl
@[simp] theorem Coro.setG_strip (c : Coro) (i : Fin 8) (b : Bool) : (c.setG i b).strip = c.strip := by
  unfold Coro.setG; split <;> rfl
@[simp] theorem Coro.setG_convoy (c : Coro) (i : Fin 8) (b : Bool) : (c.setG i b).convoy = c.convoy := by
  unfold Coro.setG; split <;> rfl
@[simp] theorem Coro.setG_state (c : Coro) (i : Fin 8) (b : Bool) : (c.setG i b).state = c.state := by
  unfold Coro.setG; split <;> rfl
@[simp] theorem Coro.setG_place (c : Coro) (i : Fin 8) (b : Bool) : (c.setG i b).place = c.place := by
  unfold Coro.setG; split <;> rfl
@[simp] theorem Coro.setG_bytes (c : Coro) (i : Fin 8) (b : Bool) : (c.setG i b).bytes = c.bytes := by
  unfold Coro.setG; split <;> rfl
@[simp] theorem Coro.setG_hasVec (c : Coro) (i : Fin 8) (b : Bool) : (c.setG i b).hasVec = c.hasVec := by
  unfold Coro.setG; split <;> rfl
@[simp] theorem Coro.setG_lostVec (c : Coro) (i : Fin 8) (b : Bool) : (c.setG i b).lostVec = c.lostVec := by
  unfold Coro.setG; split <;> rfl
@[simp] theorem Coro.setG_passed (c : Coro) (i : Fin 8) (b : Bool) : (c.setG i b).passed = c.passed := by
  unfold Coro.setG; split <;> rfl
@[simp] theorem Coro.setG_lastRun (c : Coro) (i : Fin 8) (b : Bool) : (c.setG i b).lastRun = c.lastRun := by
  unfold Coro.setG; split <;> rfl
@[simp] theorem Coro.setG_since (c : Coro) (i : Fin 8) (b : Bool) : (c.setG i b).since = c.since := by
  unfold Coro.setG; split <;> rfl
@[simp] theorem Coro.setG_pending (c : Coro) (i : Fin 8) (b : Bool) : (c.setG i b).pending = c.pending := by
  unfold Coro.setG; split <;> rfl
@[simp] theorem Coro.setG_flight (c : Coro) (i : Fin 8) (b : Bool) : (c.setG i b).flight = c.flight := by
  unfold Coro.setG; split <;> rfl
@[simp] theorem Coro.setG_spillAt (c : Coro) (i : Fin 8) (b : Bool) : (c.setG i b).spillAt = c.spillAt := by
  unfold Coro.setG; split <;> rfl
@[simp] theorem Coro.setG_deferred (c : Coro) (i : Fin 8) (b : Bool) : (c.setG i b).deferred = c.deferred := by
  unfold Coro.setG; split <;> rfl
@[simp] theorem Coro.setG_ecc (c : Coro) (i : Fin 8) (b : Bool) : (c.setG i b).ecc = c.ecc := by
  unfold Coro.setG; split <;> rfl
@[simp] theorem Coro.setG_badCtx (c : Coro) (i : Fin 8) (b : Bool) : (c.setG i b).badCtx = c.badCtx := by
  unfold Coro.setG; split <;> rfl
@[simp] theorem Coro.setG_killed (c : Coro) (i : Fin 8) (b : Bool) : (c.setG i b).killed = c.killed := by
  unfold Coro.setG; split <;> rfl

/-! ### Reading a register after a write (spec/06_execution_model.md R156) -/

@[simp] theorem Coro.getS_zero (c : Coro) : c.getS 0 = 0 := rfl

theorem Coro.getS_setS_same (c : Coro) (d : Fin 32) (v : Word) (h : d ≠ 0) : (c.setS d v).getS d = v := by
  simp [Coro.getS, Coro.setS, h]

theorem Coro.getS_setS_other (c : Coro) (d r : Fin 32) (v : Word) (h : r ≠ d) : (c.setS d v).getS r = c.getS r := by
  have h' : d.val ≠ r.val := fun e => h (Fin.ext e.symm)
  unfold Coro.getS Coro.setS
  split
  · rfl
  · split
    · rfl
    · simp [h']

@[simp] theorem Coro.setS_zero (c : Coro) (v : Word) : c.setS 0 v = c := rfl

@[simp] theorem Coro.getG_seven (c : Coro) : c.getG 7 = true := rfl

@[simp] theorem Coro.setG_seven (c : Coro) (b : Bool) : c.setG 7 b = c := rfl

end Sys2Proof.Machine
end

