-- ==== Sys2Proof/Laws/Ops.lean ====
section
/-! SUPPORT. What the shared operations do, in the words of the statements: registers, guards and the forms of scalar
instructions, and what each operation of Machine/Ops.lean does to memory. -/

namespace Sys2Proof.Machine

/-! ## Registers, guards and the program counter -/

theorem State.getS_eq_reg (s : State) (r : Fin 32) : s.getS r = s.reg r := rfl
theorem Coro.getS_eq_reg (s : State) (r : Fin 32) : s.core.run.getS r = s.reg r := rfl
theorem Coro.getG_eq_guard (s : State) (i : Fin 8) : s.core.run.getG i = s.guard i := rfl

theorem State.guardOn_of_enables {s : State} {g : Guard} (h : s.enables g) : s.core.run.guardOn g = true := by
  unfold Coro.guardOn
  rw [Coro.getG_eq_guard]
  simpa [State.enables, bne_iff_ne] using h

theorem State.guardOn_of_not_enables {s : State} {g : Guard} (h : ¬ s.enables g) : s.core.run.guardOn g = false := by
  unfold Coro.guardOn
  rw [Coro.getG_eq_guard]
  simpa [State.enables, bne_iff_ne] using h

theorem State.advance_eq_passed (s : State) : s.advance = s.passed := rfl

theorem State.guarded_on {s : State} {g : Guard} (h : s.enables g) (f : State → State) : s.guarded g f = f s := by
  simp [State.guarded, State.guardOn_of_enables h]

theorem State.guarded_off {s : State} {g : Guard} (h : ¬ s.enables g) (f : State → State) :
    s.guarded g f = s.passed := by
  unfold State.guarded
  rw [State.guardOn_of_not_enables h]
  rfl

theorem State.setS_advance (s : State) (d : Fin 32) (v : Word) : (s.setS d v).advance = s.wrote d v := by
  unfold State.wrote State.regsWith State.withRun
  simp only [State.setS, State.advance, State.setPc, State.modRun, Coro.setS]
  split <;> rfl

theorem State.privileged_on {s : State} (h : s.core.run.priv = true) (f : State → State) : s.privileged f = f s := by
  simp [State.privileged, h]

theorem State.privileged_off {s : State} (h : s.core.run.priv = false) (f : State → State) :
    s.privileged f = s.raise .privInstruction := by
  simp [State.privileged, h]

theorem State.noStrip_closed {s : State} (h : s.core.run.strip = none) (f : State → State) : s.noStrip f = f s := by
  simp [State.noStrip, h]

theorem State.noStrip_open {s : State} (h : s.core.run.strip.isSome = true) (f : State → State) :
    s.noStrip f = s.raise .stripSync := by
  simp [State.noStrip, h]

/-! ## The forms of scalar instructions -/

theorem State.alu_eq {s : State} {g : Guard} (h : s.enables g) (d a b : Fin 32) (f : Word → Word → Word) :
    s.alu g d a b f = s.wrote d (f (s.reg a) (s.reg b)) := by
  simp only [State.alu, State.guarded_on h, State.setS_advance, State.getS_eq_reg]

theorem State.alu1_eq {s : State} {g : Guard} (h : s.enables g) (d a : Fin 32) (f : Word → Word) :
    s.alu1 g d a f = s.wrote d (f (s.reg a)) := by
  simp only [State.alu1, State.guarded_on h, State.setS_advance, State.getS_eq_reg]

theorem State.alu_off {s : State} {g : Guard} (h : ¬ s.enables g) (d a b : Fin 32) (f : Word → Word → Word) :
    s.alu g d a b f = s.passed := State.guarded_off h _

theorem State.alu1_off {s : State} {g : Guard} (h : ¬ s.enables g) (d a : Fin 32) (f : Word → Word) :
    s.alu1 g d a f = s.passed := State.guarded_off h _

/-- A guard written reads as it was written, and the others as before; g7 is true whatever is written. -/
theorem Coro.getG_setG (c : Coro) (i j : Fin 8) (b : Bool) :
    (c.setG i b).getG j = if j = 7 then true else if j = i then b else c.getG j := by
  unfold Coro.setG Coro.getG
  by_cases hj : j = 7
  · simp [hj]
  · by_cases hi : i = 7
    · subst hi
      simp [hj]
    · simp only [hi, hj, if_false, decide_false, Bool.false_or]
      have hi' : i.val < 7 := by omega
      have hj' : j.val < 7 := by omega
      by_cases h : j = i
      · subst h
        cases b <;> simp [hj']
      · have hv : j.val ≠ i.val := fun e => h (Fin.ext e)
        have key : j < i ∨ j.val - i.val ≠ 0 := by
          rcases Nat.lt_or_ge j.val i.val with hl | hl
          · exact .inl hl
          · exact .inr (by omega)
        cases b <;> rcases key with k | k <;> simp [h, hj', k]

/-- A compare's two guards, the flags and the program counter (R230). -/
theorem State.setGPair_compared (s : State) {d : Fin 64} (h : pairOk d = true) (b : Bool) :
    s.Compared ((s.setGPair d b).advance) d b 0 := by
  simp only [pairOk, Bool.and_eq_true, bne_iff_ne] at h
  have hl : pairLo d ≠ 7 := fun e => h.1 (congrArg Fin.val e)
  have hh : pairHi d ≠ 7 := fun e => h.2 (congrArg Fin.val e)
  refine ⟨?_, fun i => ?_⟩
  · unfold State.setGPair State.setG Coro.setG
    simp only [hl, hh, if_false]
    split <;> simp [State.advance, State.setPc, State.modRun, State.withRun]
  · show (s.setGPair d b).core.run.getG i = _
    have h0 : i = 7 → i.val ≠ d.val % 8 ∧ i.val ≠ d.val / 8 := by
      rintro rfl
      exact ⟨fun e => h.1 e.symm, fun e => h.2 e.symm⟩
    have el : (i = pairLo d) = (i.val = d.val % 8) := propext Fin.ext_iff
    have eh : (i = pairHi d) = (i.val = d.val / 8) := propext Fin.ext_iff
    have ep : (pairLo d = pairHi d) = (d.val % 8 = d.val / 8) := propext Fin.ext_iff
    unfold State.setGPair
    split <;> rename_i hp <;> rw [ep] at hp <;> simp only [State.setG, State.modRun, Coro.getG_setG, el, eh, Coro.getG_eq_guard]
    · by_cases h7 : i = 7
      · rw [if_pos h7, if_neg (h0 h7).1, if_neg (h0 h7).2, h7]
        rfl
      · simp only [h7, if_false]
        split_ifs <;> first | rfl | omega
    · by_cases h7 : i = 7
      · rw [if_pos h7, if_neg (h0 h7).1, if_neg (h0 h7).2, h7]
        rfl
      · simp only [h7, if_false]
        split_ifs <;> first | rfl | omega

/-! ## What the operations do to memory -/

section
variable (s : State)

@[simp] theorem State.focus_mem (id : Nat) : (s.focus id).mem = s.mem := by
  unfold State.focus
  split <;> rfl

@[simp] theorem State.mapCores_mem (f : Core → Core) : (s.mapCores f).mem = s.mem := rfl
@[simp] theorem State.setS_mem (r : Fin 32) (v : Word) : (s.setS r v).mem = s.mem := rfl
@[simp] theorem State.setG_mem (i : Fin 8) (b : Bool) : (s.setG i b).mem = s.mem := rfl
@[simp] theorem State.setPc_mem (v : Word) : (s.setPc v).mem = s.mem := rfl
@[simp] theorem State.advance_mem : s.advance.mem = s.mem := rfl
@[simp] theorem State.askPacer_mem : s.askPacer.mem = s.mem := rfl

/-- An operation repeated over a list keeps what it keeps once. -/
theorem State.foldl_mem {α : Type} (f : State → α → State) (h : ∀ t a, (f t a).mem = t.mem) (l : List α) (t : State) :
    (l.foldl f t).mem = t.mem := by
  induction l generalizing t with
  | nil => rfl
  | cons a l ih => rw [List.foldl_cons, ih, h]

@[simp] theorem State.wakeAll_mem (scope : Nat) (p : Core → Coro → Bool) : (s.wakeAll scope p).mem = s.mem := by
  simp only [State.wakeAll, State.mapCores_mem]
  split
  · exact State.foldl_mem State.acquireCore (fun _ _ => rfl) _ s
  · rfl

@[simp] theorem State.setGPair_mem (d : Fin 64) (b : Bool) : (s.setGPair d b).mem = s.mem := by
  unfold State.setGPair
  split <;> rfl

@[simp] theorem State.notifyStarter_mem (h : Word) (b : Baton) : (s.notifyStarter h b).mem = s.mem := by
  simp only [State.notifyStarter]
  split
  · rfl
  · split <;> rfl

@[simp] theorem State.signalLocal_mem (h : Word) (n : Nat) : (s.signalLocal h n).mem = s.mem := by
  simp only [State.signalLocal]
  split <;> simp

@[simp] theorem State.errLocal_mem (h : Word) (n : Nat) : (s.errLocal h n).mem = s.mem := by
  simp only [State.errLocal]
  split <;> simp

@[simp] theorem State.sendRemote_mem (h : Word) (k : RemoteKind) : (s.sendRemote h k).mem = s.mem := rfl

@[simp] theorem State.modHolds_mem (h : Word) (f : Nat → Nat) : (s.modHolds h f).mem = s.mem := by
  unfold State.modHolds
  split_ifs <;> rfl

@[simp] theorem State.deviceSignal_mem (h : Word) (n : Nat) : (s.deviceSignal h n).mem = s.mem := by
  unfold State.deviceSignal
  split_ifs <;> simp

@[simp] theorem State.deviceErr_mem (h : Word) (n : Nat) : (s.deviceErr h n).mem = s.mem := by
  unfold State.deviceErr
  split_ifs <;> simp

@[simp] theorem State.registerSignal_mem (h : Word) (o : Bool) : (s.registerSignal h o).mem = s.mem := by
  unfold State.registerSignal
  split_ifs <;> simp

@[simp] theorem State.holdBaton_mem (h : Word) : (s.holdBaton h).mem = s.mem := by
  unfold State.holdBaton
  split_ifs <;> simp

@[simp] theorem State.releaseBaton_mem (h : Word) : (s.releaseBaton h).mem = s.mem := by
  unfold State.releaseBaton
  split_ifs <;> simp

@[simp] theorem State.leavePx_mem (p : PxRun) : (s.leavePx p).mem = s.mem := by
  unfold State.leavePx
  split <;> rfl
@[simp] theorem State.endRequest_mem (r : SlotRun) (n : Nat) (v : Word) : (s.endRequest r n v).mem = s.mem := rfl
@[simp] theorem State.restore_mem (k : Coro) : (s.restore k).mem = s.mem := rfl

@[simp] theorem State.unpark_mem (cnum : BitVec 10) : (s.unpark cnum).mem = s.mem := by
  simp only [State.unpark]
  split <;> rfl

/-- A record goes where the head of its queue points, and nowhere else (R364). -/
theorem State.writeRecord_mem (die : Nat) (r : Record) :
    (s.writeRecord die r).mem = (s.storeHbm
      ((s.fqAt die).base.toNat * 4096 + 64 * ((s.fqAt die).head.toNat % 2 ^ (s.fqAt die).log.toNat)) (recordBytes r)).mem := by
  simp [State.writeRecord]

@[simp] theorem State.askPending_mem (core : Nat) (ps : List Pending) : (s.askPending core ps).mem = s.mem := by
  unfold State.askPending
  exact State.foldl_mem (fun (t : State) (p : Pending) => t.push (.pendingDatumArrival core (bits p.coro.toNat 40 31) 0 0 false))
    (fun _ _ => rfl) _ s

end

/-! ## What the operations do to the canonical form of memory -/

theorem State.storeHbm_wf {s : State} (pa : Nat) (bs : List Byte) (h : s.Inv) : (s.storeHbm pa bs).Inv := by
  unfold State.storeHbm
  split
  · exact h
  · exact Memory.wf_write pa bs h

theorem State.Inv.of_mem {s t : State} (e : t.mem = s.mem) (h : s.Inv) : t.Inv := by
  unfold State.Inv
  rw [e]
  exact h

theorem State.foldl_wf {α : Type} {f : State → α → State} (h : ∀ t a, t.Inv → (f t a).Inv) (l : List α) {t : State}
    (ht : t.Inv) : (l.foldl f t).Inv := by
  induction l generalizing t with
  | nil => exact ht
  | cons a l ih => exact ih (h t a ht)

theorem State.writeRecord_wf {s : State} (die : Nat) (r : Record) (h : s.Inv) : (s.writeRecord die r).Inv :=
  State.Inv.of_mem (State.writeRecord_mem s die r) (State.storeHbm_wf _ _ h)

theorem State.appendRecord_wf {s : State} (die : Nat) (trap : Bool) (r : Record) (h : s.Inv) :
    (s.appendRecord die trap r).Inv := by
  simp only [State.appendRecord]
  split
  · exact State.writeRecord_wf die r h
  · split <;> exact State.Inv.of_mem rfl h

theorem State.writeSpill_wf {s : State} (base : Nat) (k : Coro) (h : s.Inv) : (s.writeSpill base k).Inv := by
  unfold State.writeSpill
  refine State.foldl_wf (fun t b ht => ?_) _ h
  exact Memory.wf_splice _ _ ht

theorem State.writeSpills_wf {s : State} (old : List Coro) (h : s.Inv) : (s.writeSpills old).Inv := by
  unfold State.writeSpills
  exact State.foldl_wf (fun _ k ht => State.writeSpill_wf _ k ht) _ h

theorem State.saveContext_wf {s : State} (k : Coro) (st : CState) (why : HeldWhy) (h : s.Inv) :
    (s.saveContext k st why).Inv := by
  have h1 : ∀ ps, (s.askPending s.core.id ps).Inv := fun ps => State.Inv.of_mem (State.askPending_mem s _ ps) h
  simp only [State.saveContext]
  split
  · exact State.Inv.of_mem rfl (State.writeSpills_wf _ (State.Inv.of_mem rfl (h1 _)))
  · exact State.appendRecord_wf _ _ _ (State.Inv.of_mem rfl (h1 _))

theorem State.takeTrap_wf {s : State} (t : Trap) (h : s.Inv) : (s.takeTrap t).Inv :=
  State.appendRecord_wf _ _ _ (State.saveContext_wf _ _ _ h)

/-- A trap that waits for posted stores changes no memory (R106). -/
theorem State.trapDrained_wf {s : State} (t : Trap) (h : s.Inv) : (s.trapDrained t).Inv := by
  unfold State.trapDrained
  split
  · exact State.Inv.of_mem rfl h
  · exact State.takeTrap_wf t h

/-- Whatever mode a cause meets, memory keeps its form (R361, R362). -/
theorem State.raiseTrap_wf {s : State} (t : Trap) (h : s.Inv) : (s.raiseTrap t).Inv := by
  have h1 : s.landed.Inv := State.Inv.of_mem (State.landed_mem s) h
  unfold State.raiseTrap
  dsimp only
  split
  · exact State.Inv.of_mem rfl h1
  · split
    · exact State.trapDrained_wf _ (State.Inv.of_mem (State.leavePx_mem _ _) h1)
    · exact State.trapDrained_wf _ h1

theorem State.raise_wf {s : State} (c : Cause) (h : s.Inv) : (s.raise c).Inv := State.raiseTrap_wf _ h
theorem State.raiseAt_wf {s : State} (c : Cause) (i : Nat) (a : Word) (h : s.Inv) : (s.raiseAt c i a).Inv :=
  State.raiseTrap_wf _ h

theorem State.raiseDataTrap_wf {s : State} (t : Trap) (h : s.Inv) : (s.raiseDataTrap t).Inv :=
  State.raiseTrap_wf _ (State.Inv.of_mem rfl h)

theorem State.raiseAccess_wf {s : State} (c : Cause) (i : Nat) (a : Word) (h : s.Inv) : (s.raiseAccess c i a).Inv := by
  unfold State.raiseAccess State.raiseData
  split
  · exact State.raiseDataTrap_wf _ h
  · exact State.raiseAt_wf _ _ _ h

theorem State.guarded_wf {s : State} (g : Guard) (f : State → State) (h : s.Inv) (hf : (f s).Inv) :
    (s.guarded g f).Inv := by
  unfold State.guarded
  split
  · exact hf
  · exact State.Inv.of_mem rfl h

theorem State.privileged_wf {s : State} (f : State → State) (h : s.Inv) (hf : (f s).Inv) : (s.privileged f).Inv := by
  unfold State.privileged
  split
  · exact hf
  · exact State.raise_wf _ h

theorem State.noStrip_wf {s : State} (f : State → State) (h : s.Inv) (hf : (f s).Inv) : (s.noStrip f).Inv := by
  unfold State.noStrip
  split
  · exact State.raise_wf _ h
  · exact hf

theorem State.onCore_wf {s : State} (id : Nat) (f : State → State) (hf : ∀ t : State, t.mem = s.mem → (f t).Inv) :
    (s.onCore id f).Inv :=
  State.Inv.of_mem (State.focus_mem _ _) (hf _ (State.focus_mem _ _))

end Sys2Proof.Machine
end

