-- ==== Sys2Proof/Laws/PerInstr.lean ====
section
/-! SUPPORT. Facts about every instruction, constructor by constructor: its word decodes to it (spec/08_encoding.md
R202, R205, R208). -/

namespace Sys2Proof.Laws

/-- The word of a well-formed instruction decodes to it. -/
def RoundTrip.Statement (i : Instr) : Prop :=
  i.wellFormed = true → ∀ w, encode i = some w → decode w = .ok i


theorem RoundTrip.nop : RoundTrip.Statement .nop := by
  intro _ w h; cases h; rfl
theorem RoundTrip.add (g : Guard) (d a b : Fin 32) : RoundTrip.Statement (.add g d a b) :=
  have F := wordR_fields (M := 0x00) (g := g) (c := false) (by decide) (fin_lt d (by decide)) (fin_lt a (by decide)) (fin_lt b (by decide)) (by decide)
  roundTrip rfl F.guard id (by
    rw [decodeRaw_00 F.major, dec00, F.fm]
    simp only
    rw [F.guard, fieldAt_of d F.fd (by decide), fieldAt_of a F.fa (by decide), fieldAt_of b F.fb (by decide)])
theorem RoundTrip.sub (g : Guard) (d a b : Fin 32) : RoundTrip.Statement (.sub g d a b) :=
  have F := wordR_fields (M := 0x00) (g := g) (c := false) (by decide) (fin_lt d (by decide)) (fin_lt a (by decide)) (fin_lt b (by decide)) (by decide)
  roundTrip rfl F.guard id (by
    rw [decodeRaw_00 F.major, dec00, F.fm]
    simp only
    rw [F.guard, fieldAt_of d F.fd (by decide), fieldAt_of a F.fa (by decide), fieldAt_of b F.fb (by decide)])
theorem RoundTrip.and (g : Guard) (d a b : Fin 32) : RoundTrip.Statement (.and g d a b) :=
  have F := wordR_fields (M := 0x00) (g := g) (c := false) (by decide) (fin_lt d (by decide)) (fin_lt a (by decide)) (fin_lt b (by decide)) (by decide)
  roundTrip rfl F.guard id (by
    rw [decodeRaw_00 F.major, dec00, F.fm]
    simp only
    rw [F.guard, fieldAt_of d F.fd (by decide), fieldAt_of a F.fa (by decide), fieldAt_of b F.fb (by decide)])
theorem RoundTrip.or (g : Guard) (d a b : Fin 32) : RoundTrip.Statement (.or g d a b) :=
  have F := wordR_fields (M := 0x00) (g := g) (c := false) (by decide) (fin_lt d (by decide)) (fin_lt a (by decide)) (fin_lt b (by decide)) (by decide)
  roundTrip rfl F.guard id (by
    rw [decodeRaw_00 F.major, dec00, F.fm]
    simp only
    rw [F.guard, fieldAt_of d F.fd (by decide), fieldAt_of a F.fa (by decide), fieldAt_of b F.fb (by decide)])
theorem RoundTrip.xor (g : Guard) (d a b : Fin 32) : RoundTrip.Statement (.xor g d a b) :=
  have F := wordR_fields (M := 0x00) (g := g) (c := false) (by decide) (fin_lt d (by decide)) (fin_lt a (by decide)) (fin_lt b (by decide)) (by decide)
  roundTrip rfl F.guard id (by
    rw [decodeRaw_00 F.major, dec00, F.fm]
    simp only
    rw [F.guard, fieldAt_of d F.fd (by decide), fieldAt_of a F.fa (by decide), fieldAt_of b F.fb (by decide)])
theorem RoundTrip.sll (g : Guard) (d a b : Fin 32) : RoundTrip.Statement (.sll g d a b) :=
  have F := wordR_fields (M := 0x00) (g := g) (c := false) (by decide) (fin_lt d (by decide)) (fin_lt a (by decide)) (fin_lt b (by decide)) (by decide)
  roundTrip rfl F.guard id (by
    rw [decodeRaw_00 F.major, dec00, F.fm]
    simp only
    rw [F.guard, fieldAt_of d F.fd (by decide), fieldAt_of a F.fa (by decide), fieldAt_of b F.fb (by decide)])
theorem RoundTrip.srl (g : Guard) (d a b : Fin 32) : RoundTrip.Statement (.srl g d a b) :=
  have F := wordR_fields (M := 0x00) (g := g) (c := false) (by decide) (fin_lt d (by decide)) (fin_lt a (by decide)) (fin_lt b (by decide)) (by decide)
  roundTrip rfl F.guard id (by
    rw [decodeRaw_00 F.major, dec00, F.fm]
    simp only
    rw [F.guard, fieldAt_of d F.fd (by decide), fieldAt_of a F.fa (by decide), fieldAt_of b F.fb (by decide)])
theorem RoundTrip.sra (g : Guard) (d a b : Fin 32) : RoundTrip.Statement (.sra g d a b) :=
  have F := wordR_fields (M := 0x00) (g := g) (c := false) (by decide) (fin_lt d (by decide)) (fin_lt a (by decide)) (fin_lt b (by decide)) (by decide)
  roundTrip rfl F.guard id (by
    rw [decodeRaw_00 F.major, dec00, F.fm]
    simp only
    rw [F.guard, fieldAt_of d F.fd (by decide), fieldAt_of a F.fa (by decide), fieldAt_of b F.fb (by decide)])
theorem RoundTrip.mul (g : Guard) (d a b : Fin 32) : RoundTrip.Statement (.mul g d a b) :=
  have F := wordR_fields (M := 0x01) (g := g) (c := false) (by decide) (fin_lt d (by decide)) (fin_lt a (by decide)) (fin_lt b (by decide)) (by decide)
  roundTrip rfl F.guard id (by
    rw [decodeRaw_01 F.major, dec01, F.fm]
    simp only
    rw [F.guard, fieldAt_of d F.fd (by decide), fieldAt_of a F.fa (by decide), fieldAt_of b F.fb (by decide)])
theorem RoundTrip.mulh (g : Guard) (d a b : Fin 32) : RoundTrip.Statement (.mulh g d a b) :=
  have F := wordR_fields (M := 0x01) (g := g) (c := false) (by decide) (fin_lt d (by decide)) (fin_lt a (by decide)) (fin_lt b (by decide)) (by decide)
  roundTrip rfl F.guard id (by
    rw [decodeRaw_01 F.major, dec01, F.fm]
    simp only
    rw [F.guard, fieldAt_of d F.fd (by decide), fieldAt_of a F.fa (by decide), fieldAt_of b F.fb (by decide)])
theorem RoundTrip.mulhu (g : Guard) (d a b : Fin 32) : RoundTrip.Statement (.mulhu g d a b) :=
  have F := wordR_fields (M := 0x01) (g := g) (c := false) (by decide) (fin_lt d (by decide)) (fin_lt a (by decide)) (fin_lt b (by decide)) (by decide)
  roundTrip rfl F.guard id (by
    rw [decodeRaw_01 F.major, dec01, F.fm]
    simp only
    rw [F.guard, fieldAt_of d F.fd (by decide), fieldAt_of a F.fa (by decide), fieldAt_of b F.fb (by decide)])
theorem RoundTrip.div (g : Guard) (d a b : Fin 32) : RoundTrip.Statement (.div g d a b) :=
  have F := wordR_fields (M := 0x01) (g := g) (c := false) (by decide) (fin_lt d (by decide)) (fin_lt a (by decide)) (fin_lt b (by decide)) (by decide)
  roundTrip rfl F.guard id (by
    rw [decodeRaw_01 F.major, dec01, F.fm]
    simp only
    rw [F.guard, fieldAt_of d F.fd (by decide), fieldAt_of a F.fa (by decide), fieldAt_of b F.fb (by decide)])
theorem RoundTrip.divu (g : Guard) (d a b : Fin 32) : RoundTrip.Statement (.divu g d a b) :=
  have F := wordR_fields (M := 0x01) (g := g) (c := false) (by decide) (fin_lt d (by decide)) (fin_lt a (by decide)) (fin_lt b (by decide)) (by decide)
  roundTrip rfl F.guard id (by
    rw [decodeRaw_01 F.major, dec01, F.fm]
    simp only
    rw [F.guard, fieldAt_of d F.fd (by decide), fieldAt_of a F.fa (by decide), fieldAt_of b F.fb (by decide)])
theorem RoundTrip.rem (g : Guard) (d a b : Fin 32) : RoundTrip.Statement (.rem g d a b) :=
  have F := wordR_fields (M := 0x01) (g := g) (c := false) (by decide) (fin_lt d (by decide)) (fin_lt a (by decide)) (fin_lt b (by decide)) (by decide)
  roundTrip rfl F.guard id (by
    rw [decodeRaw_01 F.major, dec01, F.fm]
    simp only
    rw [F.guard, fieldAt_of d F.fd (by decide), fieldAt_of a F.fa (by decide), fieldAt_of b F.fb (by decide)])
theorem RoundTrip.remu (g : Guard) (d a b : Fin 32) : RoundTrip.Statement (.remu g d a b) :=
  have F := wordR_fields (M := 0x01) (g := g) (c := false) (by decide) (fin_lt d (by decide)) (fin_lt a (by decide)) (fin_lt b (by decide)) (by decide)
  roundTrip rfl F.guard id (by
    rw [decodeRaw_01 F.major, dec01, F.fm]
    simp only
    rw [F.guard, fieldAt_of d F.fd (by decide), fieldAt_of a F.fa (by decide), fieldAt_of b F.fb (by decide)])
theorem RoundTrip.min (g : Guard) (d a b : Fin 32) : RoundTrip.Statement (.min g d a b) :=
  have F := wordR_fields (M := 0x02) (g := g) (c := false) (by decide) (fin_lt d (by decide)) (fin_lt a (by decide)) (fin_lt b (by decide)) (by decide)
  roundTrip rfl F.guard id (by
    rw [decodeRaw_02 F.major, dec02, F.fm]
    simp only
    rw [F.guard, fieldAt_of d F.fd (by decide), fieldAt_of a F.fa (by decide), fieldAt_of b F.fb (by decide)])
theorem RoundTrip.max (g : Guard) (d a b : Fin 32) : RoundTrip.Statement (.max g d a b) :=
  have F := wordR_fields (M := 0x02) (g := g) (c := false) (by decide) (fin_lt d (by decide)) (fin_lt a (by decide)) (fin_lt b (by decide)) (by decide)
  roundTrip rfl F.guard id (by
    rw [decodeRaw_02 F.major, dec02, F.fm]
    simp only
    rw [F.guard, fieldAt_of d F.fd (by decide), fieldAt_of a F.fa (by decide), fieldAt_of b F.fb (by decide)])
theorem RoundTrip.minu (g : Guard) (d a b : Fin 32) : RoundTrip.Statement (.minu g d a b) :=
  have F := wordR_fields (M := 0x02) (g := g) (c := false) (by decide) (fin_lt d (by decide)) (fin_lt a (by decide)) (fin_lt b (by decide)) (by decide)
  roundTrip rfl F.guard id (by
    rw [decodeRaw_02 F.major, dec02, F.fm]
    simp only
    rw [F.guard, fieldAt_of d F.fd (by decide), fieldAt_of a F.fa (by decide), fieldAt_of b F.fb (by decide)])
theorem RoundTrip.maxu (g : Guard) (d a b : Fin 32) : RoundTrip.Statement (.maxu g d a b) :=
  have F := wordR_fields (M := 0x02) (g := g) (c := false) (by decide) (fin_lt d (by decide)) (fin_lt a (by decide)) (fin_lt b (by decide)) (by decide)
  roundTrip rfl F.guard id (by
    rw [decodeRaw_02 F.major, dec02, F.fm]
    simp only
    rw [F.guard, fieldAt_of d F.fd (by decide), fieldAt_of a F.fa (by decide), fieldAt_of b F.fb (by decide)])
theorem RoundTrip.clz (g : Guard) (d a : Fin 32) : RoundTrip.Statement (.clz g d a) :=
  have F := wordR_fields (M := 0x02) (g := g) (c := false) (by decide) (fin_lt d (by decide)) (fin_lt a (by decide)) (by decide) (by decide)
  roundTrip rfl F.guard id (by
    rw [decodeRaw_02 F.major, dec02, F.fm]
    simp only
    rw [F.guard, fieldAt_of d F.fd (by decide), fieldAt_of a F.fa (by decide)])
theorem RoundTrip.ctz (g : Guard) (d a : Fin 32) : RoundTrip.Statement (.ctz g d a) :=
  have F := wordR_fields (M := 0x02) (g := g) (c := false) (by decide) (fin_lt d (by decide)) (fin_lt a (by decide)) (by decide) (by decide)
  roundTrip rfl F.guard id (by
    rw [decodeRaw_02 F.major, dec02, F.fm]
    simp only
    rw [F.guard, fieldAt_of d F.fd (by decide), fieldAt_of a F.fa (by decide)])
theorem RoundTrip.popc (g : Guard) (d a : Fin 32) : RoundTrip.Statement (.popc g d a) :=
  have F := wordR_fields (M := 0x02) (g := g) (c := false) (by decide) (fin_lt d (by decide)) (fin_lt a (by decide)) (by decide) (by decide)
  roundTrip rfl F.guard id (by
    rw [decodeRaw_02 F.major, dec02, F.fm]
    simp only
    rw [F.guard, fieldAt_of d F.fd (by decide), fieldAt_of a F.fa (by decide)])
theorem RoundTrip.rev (g : Guard) (d a : Fin 32) : RoundTrip.Statement (.rev g d a) :=
  have F := wordR_fields (M := 0x02) (g := g) (c := false) (by decide) (fin_lt d (by decide)) (fin_lt a (by decide)) (by decide) (by decide)
  roundTrip rfl F.guard id (by
    rw [decodeRaw_02 F.major, dec02, F.fm]
    simp only
    rw [F.guard, fieldAt_of d F.fd (by decide), fieldAt_of a F.fa (by decide)])
theorem RoundTrip.sel (g : Guard) (d a b : Fin 32) : RoundTrip.Statement (.sel g d a b) :=
  have F := wordR_fields (M := 0x03) (g := g) (c := false) (by decide) (fin_lt d (by decide)) (fin_lt a (by decide)) (fin_lt b (by decide)) (by decide)
  roundTrip rfl F.guard id (by
    rw [decodeRaw_03 F.major, dec03, F.fm]
    simp only
    rw [F.guard, fieldAt_of d F.fd (by decide), fieldAt_of a F.fa (by decide), fieldAt_of b F.fb (by decide)])
theorem RoundTrip.bfx (g : Guard) (d a b : Fin 32) : RoundTrip.Statement (.bfx g d a b) :=
  have F := wordR_fields (M := 0x03) (g := g) (c := false) (by decide) (fin_lt d (by decide)) (fin_lt a (by decide)) (fin_lt b (by decide)) (by decide)
  roundTrip rfl F.guard id (by
    rw [decodeRaw_03 F.major, dec03, F.fm]
    simp only
    rw [F.guard, fieldAt_of d F.fd (by decide), fieldAt_of a F.fa (by decide), fieldAt_of b F.fb (by decide)])
theorem RoundTrip.bfxs (g : Guard) (d a b : Fin 32) : RoundTrip.Statement (.bfxs g d a b) :=
  have F := wordR_fields (M := 0x03) (g := g) (c := false) (by decide) (fin_lt d (by decide)) (fin_lt a (by decide)) (fin_lt b (by decide)) (by decide)
  roundTrip rfl F.guard id (by
    rw [decodeRaw_03 F.major, dec03, F.fm]
    simp only
    rw [F.guard, fieldAt_of d F.fd (by decide), fieldAt_of a F.fa (by decide), fieldAt_of b F.fb (by decide)])
theorem RoundTrip.bfi (g : Guard) (d a b : Fin 32) : RoundTrip.Statement (.bfi g d a b) :=
  have F := wordR_fields (M := 0x03) (g := g) (c := false) (by decide) (fin_lt d (by decide)) (fin_lt a (by decide)) (fin_lt b (by decide)) (by decide)
  roundTrip rfl F.guard id (by
    rw [decodeRaw_03 F.major, dec03, F.fm]
    simp only
    rw [F.guard, fieldAt_of d F.fd (by decide), fieldAt_of a F.fa (by decide), fieldAt_of b F.fb (by decide)])
theorem RoundTrip.cmpEq (g : Guard) (d : Fin 64) (a b : Fin 32) : RoundTrip.Statement (.cmpEq g d a b) :=
  have F := wordR_fields (M := 0x04) (g := g) (c := false) (by decide) (fin_lt d (by decide)) (fin_lt a (by decide)) (fin_lt b (by decide)) (by decide)
  roundTrip rfl F.guard (fun h => and_left h) (by
    rw [decodeRaw_04 F.major, dec04, F.fm]
    simp only
    rw [F.guard, fieldAt_of d F.fd (by decide), fieldAt_of a F.fa (by decide), fieldAt_of b F.fb (by decide)])
theorem RoundTrip.cmpNe (g : Guard) (d : Fin 64) (a b : Fin 32) : RoundTrip.Statement (.cmpNe g d a b) :=
  have F := wordR_fields (M := 0x04) (g := g) (c := false) (by decide) (fin_lt d (by decide)) (fin_lt a (by decide)) (fin_lt b (by decide)) (by decide)
  roundTrip rfl F.guard (fun h => and_left h) (by
    rw [decodeRaw_04 F.major, dec04, F.fm]
    simp only
    rw [F.guard, fieldAt_of d F.fd (by decide), fieldAt_of a F.fa (by decide), fieldAt_of b F.fb (by decide)])
theorem RoundTrip.cmpLt (g : Guard) (d : Fin 64) (a b : Fin 32) : RoundTrip.Statement (.cmpLt g d a b) :=
  have F := wordR_fields (M := 0x04) (g := g) (c := false) (by decide) (fin_lt d (by decide)) (fin_lt a (by decide)) (fin_lt b (by decide)) (by decide)
  roundTrip rfl F.guard (fun h => and_left h) (by
    rw [decodeRaw_04 F.major, dec04, F.fm]
    simp only
    rw [F.guard, fieldAt_of d F.fd (by decide), fieldAt_of a F.fa (by decide), fieldAt_of b F.fb (by decide)])
theorem RoundTrip.cmpLtu (g : Guard) (d : Fin 64) (a b : Fin 32) : RoundTrip.Statement (.cmpLtu g d a b) :=
  have F := wordR_fields (M := 0x04) (g := g) (c := false) (by decide) (fin_lt d (by decide)) (fin_lt a (by decide)) (fin_lt b (by decide)) (by decide)
  roundTrip rfl F.guard (fun h => and_left h) (by
    rw [decodeRaw_04 F.major, dec04, F.fm]
    simp only
    rw [F.guard, fieldAt_of d F.fd (by decide), fieldAt_of a F.fa (by decide), fieldAt_of b F.fb (by decide)])
theorem RoundTrip.cmpLe (g : Guard) (d : Fin 64) (a b : Fin 32) : RoundTrip.Statement (.cmpLe g d a b) :=
  have F := wordR_fields (M := 0x04) (g := g) (c := false) (by decide) (fin_lt d (by decide)) (fin_lt a (by decide)) (fin_lt b (by decide)) (by decide)
  roundTrip rfl F.guard (fun h => and_left h) (by
    rw [decodeRaw_04 F.major, dec04, F.fm]
    simp only
    rw [F.guard, fieldAt_of d F.fd (by decide), fieldAt_of a F.fa (by decide), fieldAt_of b F.fb (by decide)])
theorem RoundTrip.cmpLeu (g : Guard) (d : Fin 64) (a b : Fin 32) : RoundTrip.Statement (.cmpLeu g d a b) :=
  have F := wordR_fields (M := 0x04) (g := g) (c := false) (by decide) (fin_lt d (by decide)) (fin_lt a (by decide)) (fin_lt b (by decide)) (by decide)
  roundTrip rfl F.guard (fun h => and_left h) (by
    rw [decodeRaw_04 F.major, dec04, F.fm]
    simp only
    rw [F.guard, fieldAt_of d F.fd (by decide), fieldAt_of a F.fa (by decide), fieldAt_of b F.fb (by decide)])
theorem RoundTrip.gand (g : Guard) (d : Fin 64) (a b : Fin 8) : RoundTrip.Statement (.gand g d a b) :=
  have F := wordR_fields (M := 0x04) (g := g) (c := false) (by decide) (fin_lt d (by decide)) (fin_lt a (by decide)) (fin_lt b (by decide)) (by decide)
  roundTrip rfl F.guard (fun h => and_left h) (by
    rw [decodeRaw_04 F.major, dec04, F.fm]
    simp only
    rw [F.guard, fieldAt_of d F.fd (by decide), fieldAt_of a F.fa (by decide), fieldAt_of b F.fb (by decide)])
theorem RoundTrip.gor (g : Guard) (d : Fin 64) (a b : Fin 8) : RoundTrip.Statement (.gor g d a b) :=
  have F := wordR_fields (M := 0x04) (g := g) (c := false) (by decide) (fin_lt d (by decide)) (fin_lt a (by decide)) (fin_lt b (by decide)) (by decide)
  roundTrip rfl F.guard (fun h => and_left h) (by
    rw [decodeRaw_04 F.major, dec04, F.fm]
    simp only
    rw [F.guard, fieldAt_of d F.fd (by decide), fieldAt_of a F.fa (by decide), fieldAt_of b F.fb (by decide)])
theorem RoundTrip.addi (g : Guard) (d a : Fin 32) (i : BitVec 9) : RoundTrip.Statement (.addi g d a i) :=
  have F := wordI_fields (M := 0x05) (g := g) (by decide) (fin_lt d (by decide)) (fin_lt a (by decide)) i.isLt
  roundTrip rfl F.guard id (by
    rw [decodeRaw_05 F.major, dec05]
    rw [F.guard, fieldAt_of d F.fd (by decide), fieldAt_of a F.fa (by decide), immOf_eq i F.fi])
theorem RoundTrip.andi (g : Guard) (d a : Fin 32) (u : BitVec 6) : RoundTrip.Statement (.andi g d a u) :=
  have h0 := u.isLt
  have F := wordI_fields (M := 0x06) (g := g) (by decide) (fin_lt d (by decide)) (fin_lt a (by decide)) (by omega)
  roundTrip rfl F.guard id (by
    rw [decodeRaw_06 F.major, dec06, show (wordI 0x06 g d.val a.val (0 * 2 ^ 6 + u.toNat)) / 2 ^ 6 % 8 = 0 by have := F.fi; omega]
    simp only
    rw [F.guard, fieldAt_of d F.fd (by decide), fieldAt_of a F.fa (by decide), immOf_eq u (by have := F.fi; omega)])
theorem RoundTrip.ori (g : Guard) (d a : Fin 32) (u : BitVec 6) : RoundTrip.Statement (.ori g d a u) :=
  have h0 := u.isLt
  have F := wordI_fields (M := 0x06) (g := g) (by decide) (fin_lt d (by decide)) (fin_lt a (by decide)) (by omega)
  roundTrip rfl F.guard id (by
    rw [decodeRaw_06 F.major, dec06, show (wordI 0x06 g d.val a.val (1 * 2 ^ 6 + u.toNat)) / 2 ^ 6 % 8 = 1 by have := F.fi; omega]
    simp only
    rw [F.guard, fieldAt_of d F.fd (by decide), fieldAt_of a F.fa (by decide), immOf_eq u (by have := F.fi; omega)])
theorem RoundTrip.xori (g : Guard) (d a : Fin 32) (u : BitVec 6) : RoundTrip.Statement (.xori g d a u) :=
  have h0 := u.isLt
  have F := wordI_fields (M := 0x06) (g := g) (by decide) (fin_lt d (by decide)) (fin_lt a (by decide)) (by omega)
  roundTrip rfl F.guard id (by
    rw [decodeRaw_06 F.major, dec06, show (wordI 0x06 g d.val a.val (2 * 2 ^ 6 + u.toNat)) / 2 ^ 6 % 8 = 2 by have := F.fi; omega]
    simp only
    rw [F.guard, fieldAt_of d F.fd (by decide), fieldAt_of a F.fa (by decide), immOf_eq u (by have := F.fi; omega)])
theorem RoundTrip.slli (g : Guard) (d a : Fin 32) (u : BitVec 6) : RoundTrip.Statement (.slli g d a u) :=
  have h0 := u.isLt
  have F := wordI_fields (M := 0x06) (g := g) (by decide) (fin_lt d (by decide)) (fin_lt a (by decide)) (by omega)
  roundTrip rfl F.guard id (by
    rw [decodeRaw_06 F.major, dec06, show (wordI 0x06 g d.val a.val (3 * 2 ^ 6 + u.toNat)) / 2 ^ 6 % 8 = 3 by have := F.fi; omega]
    simp only
    rw [F.guard, fieldAt_of d F.fd (by decide), fieldAt_of a F.fa (by decide), immOf_eq u (by have := F.fi; omega)])
theorem RoundTrip.srli (g : Guard) (d a : Fin 32) (u : BitVec 6) : RoundTrip.Statement (.srli g d a u) :=
  have h0 := u.isLt
  have F := wordI_fields (M := 0x06) (g := g) (by decide) (fin_lt d (by decide)) (fin_lt a (by decide)) (by omega)
  roundTrip rfl F.guard id (by
    rw [decodeRaw_06 F.major, dec06, show (wordI 0x06 g d.val a.val (4 * 2 ^ 6 + u.toNat)) / 2 ^ 6 % 8 = 4 by have := F.fi; omega]
    simp only
    rw [F.guard, fieldAt_of d F.fd (by decide), fieldAt_of a F.fa (by decide), immOf_eq u (by have := F.fi; omega)])
theorem RoundTrip.srai (g : Guard) (d a : Fin 32) (u : BitVec 6) : RoundTrip.Statement (.srai g d a u) :=
  have h0 := u.isLt
  have F := wordI_fields (M := 0x06) (g := g) (by decide) (fin_lt d (by decide)) (fin_lt a (by decide)) (by omega)
  roundTrip rfl F.guard id (by
    rw [decodeRaw_06 F.major, dec06, show (wordI 0x06 g d.val a.val (5 * 2 ^ 6 + u.toNat)) / 2 ^ 6 % 8 = 5 by have := F.fi; omega]
    simp only
    rw [F.guard, fieldAt_of d F.fd (by decide), fieldAt_of a F.fa (by decide), immOf_eq u (by have := F.fi; omega)])
theorem RoundTrip.li (g : Guard) (d : Fin 32) (i : BitVec 15) : RoundTrip.Statement (.li g d i) :=
  have F := wordL_fields (M := 0x07) (g := g) (by decide) (fin_lt d (by decide)) i.isLt
  roundTrip rfl F.guard id (by
    rw [decodeRaw_07 F.major, dec07]
    rw [F.guard, fieldAt_of d F.fd (by decide), immOf_eq i F.fi])
theorem RoundTrip.lis (g : Guard) (d : Fin 32) (i : BitVec 15) : RoundTrip.Statement (.lis g d i) :=
  have F := wordL_fields (M := 0x08) (g := g) (by decide) (fin_lt d (by decide)) i.isLt
  roundTrip rfl F.guard id (by
    rw [decodeRaw_08 F.major, dec08]
    rw [F.guard, fieldAt_of d F.fd (by decide), immOf_eq i F.fi])
theorem RoundTrip.loop (g : Guard) (k : Fin 4) (i : BitVec 15) : RoundTrip.Statement (.loop g k i) :=
  have F := wordL_fields (M := 0x09) (g := g) (by decide) (fin_lt k (by decide)) i.isLt
  roundTrip rfl F.guard id (by
    rw [decodeRaw_09 F.major, dec09]
    rw [F.guard, fieldAt_of k F.fd (by decide), immOf_eq i F.fi])
theorem RoundTrip.faddF64 (g : Guard) (d a b : Fin 32) : RoundTrip.Statement (.faddF64 g d a b) :=
  have F := wordR_fields (M := 0x0A) (g := g) (c := false) (by decide) (fin_lt d (by decide)) (fin_lt a (by decide)) (fin_lt b (by decide)) (by decide)
  roundTrip rfl F.guard id (by
    rw [decodeRaw_0A F.major, dec0A, F.fm]
    simp only
    rw [F.guard, fieldAt_of d F.fd (by decide), fieldAt_of a F.fa (by decide), fieldAt_of b F.fb (by decide)])
theorem RoundTrip.fsubF64 (g : Guard) (d a b : Fin 32) : RoundTrip.Statement (.fsubF64 g d a b) :=
  have F := wordR_fields (M := 0x0A) (g := g) (c := false) (by decide) (fin_lt d (by decide)) (fin_lt a (by decide)) (fin_lt b (by decide)) (by decide)
  roundTrip rfl F.guard id (by
    rw [decodeRaw_0A F.major, dec0A, F.fm]
    simp only
    rw [F.guard, fieldAt_of d F.fd (by decide), fieldAt_of a F.fa (by decide), fieldAt_of b F.fb (by decide)])
theorem RoundTrip.fmulF64 (g : Guard) (d a b : Fin 32) : RoundTrip.Statement (.fmulF64 g d a b) :=
  have F := wordR_fields (M := 0x0A) (g := g) (c := false) (by decide) (fin_lt d (by decide)) (fin_lt a (by decide)) (fin_lt b (by decide)) (by decide)
  roundTrip rfl F.guard id (by
    rw [decodeRaw_0A F.major, dec0A, F.fm]
    simp only
    rw [F.guard, fieldAt_of d F.fd (by decide), fieldAt_of a F.fa (by decide), fieldAt_of b F.fb (by decide)])
theorem RoundTrip.fdivF64 (g : Guard) (d a b : Fin 32) : RoundTrip.Statement (.fdivF64 g d a b) :=
  have F := wordR_fields (M := 0x0A) (g := g) (c := false) (by decide) (fin_lt d (by decide)) (fin_lt a (by decide)) (fin_lt b (by decide)) (by decide)
  roundTrip rfl F.guard id (by
    rw [decodeRaw_0A F.major, dec0A, F.fm]
    simp only
    rw [F.guard, fieldAt_of d F.fd (by decide), fieldAt_of a F.fa (by decide), fieldAt_of b F.fb (by decide)])
theorem RoundTrip.fminF64 (g : Guard) (d a b : Fin 32) : RoundTrip.Statement (.fminF64 g d a b) :=
  have F := wordR_fields (M := 0x0A) (g := g) (c := false) (by decide) (fin_lt d (by decide)) (fin_lt a (by decide)) (fin_lt b (by decide)) (by decide)
  roundTrip rfl F.guard id (by
    rw [decodeRaw_0A F.major, dec0A, F.fm]
    simp only
    rw [F.guard, fieldAt_of d F.fd (by decide), fieldAt_of a F.fa (by decide), fieldAt_of b F.fb (by decide)])
theorem RoundTrip.fmaxF64 (g : Guard) (d a b : Fin 32) : RoundTrip.Statement (.fmaxF64 g d a b) :=
  have F := wordR_fields (M := 0x0A) (g := g) (c := false) (by decide) (fin_lt d (by decide)) (fin_lt a (by decide)) (fin_lt b (by decide)) (by decide)
  roundTrip rfl F.guard id (by
    rw [decodeRaw_0A F.major, dec0A, F.fm]
    simp only
    rw [F.guard, fieldAt_of d F.fd (by decide), fieldAt_of a F.fa (by decide), fieldAt_of b F.fb (by decide)])
theorem RoundTrip.fmaF64 (g : Guard) (d a b : Fin 32) : RoundTrip.Statement (.fmaF64 g d a b) :=
  have F := wordR_fields (M := 0x0A) (g := g) (c := false) (by decide) (fin_lt d (by decide)) (fin_lt a (by decide)) (fin_lt b (by decide)) (by decide)
  roundTrip rfl F.guard id (by
    rw [decodeRaw_0A F.major, dec0A, F.fm]
    simp only
    rw [F.guard, fieldAt_of d F.fd (by decide), fieldAt_of a F.fa (by decide), fieldAt_of b F.fb (by decide)])
theorem RoundTrip.fsqrtF64 (g : Guard) (d a : Fin 32) : RoundTrip.Statement (.fsqrtF64 g d a) :=
  have F := wordR_fields (M := 0x0A) (g := g) (c := false) (by decide) (fin_lt d (by decide)) (fin_lt a (by decide)) (by decide) (by decide)
  roundTrip rfl F.guard id (by
    rw [decodeRaw_0A F.major, dec0A, F.fm]
    simp only
    rw [F.guard, fieldAt_of d F.fd (by decide), fieldAt_of a F.fa (by decide)])
theorem RoundTrip.faddF32 (g : Guard) (d a b : Fin 32) : RoundTrip.Statement (.faddF32 g d a b) :=
  have F := wordR_fields (M := 0x0B) (g := g) (c := false) (by decide) (fin_lt d (by decide)) (fin_lt a (by decide)) (fin_lt b (by decide)) (by decide)
  roundTrip rfl F.guard id (by
    rw [decodeRaw_0B F.major, dec0B, F.fm]
    simp only
    rw [F.guard, fieldAt_of d F.fd (by decide), fieldAt_of a F.fa (by decide), fieldAt_of b F.fb (by decide)])
theorem RoundTrip.fsubF32 (g : Guard) (d a b : Fin 32) : RoundTrip.Statement (.fsubF32 g d a b) :=
  have F := wordR_fields (M := 0x0B) (g := g) (c := false) (by decide) (fin_lt d (by decide)) (fin_lt a (by decide)) (fin_lt b (by decide)) (by decide)
  roundTrip rfl F.guard id (by
    rw [decodeRaw_0B F.major, dec0B, F.fm]
    simp only
    rw [F.guard, fieldAt_of d F.fd (by decide), fieldAt_of a F.fa (by decide), fieldAt_of b F.fb (by decide)])
theorem RoundTrip.fmulF32 (g : Guard) (d a b : Fin 32) : RoundTrip.Statement (.fmulF32 g d a b) :=
  have F := wordR_fields (M := 0x0B) (g := g) (c := false) (by decide) (fin_lt d (by decide)) (fin_lt a (by decide)) (fin_lt b (by decide)) (by decide)
  roundTrip rfl F.guard id (by
    rw [decodeRaw_0B F.major, dec0B, F.fm]
    simp only
    rw [F.guard, fieldAt_of d F.fd (by decide), fieldAt_of a F.fa (by decide), fieldAt_of b F.fb (by decide)])
theorem RoundTrip.fdivF32 (g : Guard) (d a b : Fin 32) : RoundTrip.Statement (.fdivF32 g d a b) :=
  have F := wordR_fields (M := 0x0B) (g := g) (c := false) (by decide) (fin_lt d (by decide)) (fin_lt a (by decide)) (fin_lt b (by decide)) (by decide)
  roundTrip rfl F.guard id (by
    rw [decodeRaw_0B F.major, dec0B, F.fm]
    simp only
    rw [F.guard, fieldAt_of d F.fd (by decide), fieldAt_of a F.fa (by decide), fieldAt_of b F.fb (by decide)])
theorem RoundTrip.fminF32 (g : Guard) (d a b : Fin 32) : RoundTrip.Statement (.fminF32 g d a b) :=
  have F := wordR_fields (M := 0x0B) (g := g) (c := false) (by decide) (fin_lt d (by decide)) (fin_lt a (by decide)) (fin_lt b (by decide)) (by decide)
  roundTrip rfl F.guard id (by
    rw [decodeRaw_0B F.major, dec0B, F.fm]
    simp only
    rw [F.guard, fieldAt_of d F.fd (by decide), fieldAt_of a F.fa (by decide), fieldAt_of b F.fb (by decide)])
theorem RoundTrip.fmaxF32 (g : Guard) (d a b : Fin 32) : RoundTrip.Statement (.fmaxF32 g d a b) :=
  have F := wordR_fields (M := 0x0B) (g := g) (c := false) (by decide) (fin_lt d (by decide)) (fin_lt a (by decide)) (fin_lt b (by decide)) (by decide)
  roundTrip rfl F.guard id (by
    rw [decodeRaw_0B F.major, dec0B, F.fm]
    simp only
    rw [F.guard, fieldAt_of d F.fd (by decide), fieldAt_of a F.fa (by decide), fieldAt_of b F.fb (by decide)])
theorem RoundTrip.fmaF32 (g : Guard) (d a b : Fin 32) : RoundTrip.Statement (.fmaF32 g d a b) :=
  have F := wordR_fields (M := 0x0B) (g := g) (c := false) (by decide) (fin_lt d (by decide)) (fin_lt a (by decide)) (fin_lt b (by decide)) (by decide)
  roundTrip rfl F.guard id (by
    rw [decodeRaw_0B F.major, dec0B, F.fm]
    simp only
    rw [F.guard, fieldAt_of d F.fd (by decide), fieldAt_of a F.fa (by decide), fieldAt_of b F.fb (by decide)])
theorem RoundTrip.fsqrtF32 (g : Guard) (d a : Fin 32) : RoundTrip.Statement (.fsqrtF32 g d a) :=
  have F := wordR_fields (M := 0x0B) (g := g) (c := false) (by decide) (fin_lt d (by decide)) (fin_lt a (by decide)) (by decide) (by decide)
  roundTrip rfl F.guard id (by
    rw [decodeRaw_0B F.major, dec0B, F.fm]
    simp only
    rw [F.guard, fieldAt_of d F.fd (by decide), fieldAt_of a F.fa (by decide)])
theorem RoundTrip.fcmpEqF64 (g : Guard) (d : Fin 64) (a b : Fin 32) : RoundTrip.Statement (.fcmpEqF64 g d a b) :=
  have F := wordR_fields (M := 0x0C) (g := g) (c := false) (by decide) (fin_lt d (by decide)) (fin_lt a (by decide)) (fin_lt b (by decide)) (by decide)
  roundTrip rfl F.guard (fun h => and_left h) (by
    rw [decodeRaw_0C F.major, dec0C, F.fm]
    simp only
    rw [F.guard, fieldAt_of d F.fd (by decide), fieldAt_of a F.fa (by decide), fieldAt_of b F.fb (by decide)])
theorem RoundTrip.fcmpLtF64 (g : Guard) (d : Fin 64) (a b : Fin 32) : RoundTrip.Statement (.fcmpLtF64 g d a b) :=
  have F := wordR_fields (M := 0x0C) (g := g) (c := false) (by decide) (fin_lt d (by decide)) (fin_lt a (by decide)) (fin_lt b (by decide)) (by decide)
  roundTrip rfl F.guard (fun h => and_left h) (by
    rw [decodeRaw_0C F.major, dec0C, F.fm]
    simp only
    rw [F.guard, fieldAt_of d F.fd (by decide), fieldAt_of a F.fa (by decide), fieldAt_of b F.fb (by decide)])
theorem RoundTrip.fcmpLeF64 (g : Guard) (d : Fin 64) (a b : Fin 32) : RoundTrip.Statement (.fcmpLeF64 g d a b) :=
  have F := wordR_fields (M := 0x0C) (g := g) (c := false) (by decide) (fin_lt d (by decide)) (fin_lt a (by decide)) (fin_lt b (by decide)) (by decide)
  roundTrip rfl F.guard (fun h => and_left h) (by
    rw [decodeRaw_0C F.major, dec0C, F.fm]
    simp only
    rw [F.guard, fieldAt_of d F.fd (by decide), fieldAt_of a F.fa (by decide), fieldAt_of b F.fb (by decide)])
theorem RoundTrip.fcmpEqF32 (g : Guard) (d : Fin 64) (a b : Fin 32) : RoundTrip.Statement (.fcmpEqF32 g d a b) :=
  have F := wordR_fields (M := 0x0C) (g := g) (c := false) (by decide) (fin_lt d (by decide)) (fin_lt a (by decide)) (fin_lt b (by decide)) (by decide)
  roundTrip rfl F.guard (fun h => and_left h) (by
    rw [decodeRaw_0C F.major, dec0C, F.fm]
    simp only
    rw [F.guard, fieldAt_of d F.fd (by decide), fieldAt_of a F.fa (by decide), fieldAt_of b F.fb (by decide)])
theorem RoundTrip.fcmpLtF32 (g : Guard) (d : Fin 64) (a b : Fin 32) : RoundTrip.Statement (.fcmpLtF32 g d a b) :=
  have F := wordR_fields (M := 0x0C) (g := g) (c := false) (by decide) (fin_lt d (by decide)) (fin_lt a (by decide)) (fin_lt b (by decide)) (by decide)
  roundTrip rfl F.guard (fun h => and_left h) (by
    rw [decodeRaw_0C F.major, dec0C, F.fm]
    simp only
    rw [F.guard, fieldAt_of d F.fd (by decide), fieldAt_of a F.fa (by decide), fieldAt_of b F.fb (by decide)])
theorem RoundTrip.fcmpLeF32 (g : Guard) (d : Fin 64) (a b : Fin 32) : RoundTrip.Statement (.fcmpLeF32 g d a b) :=
  have F := wordR_fields (M := 0x0C) (g := g) (c := false) (by decide) (fin_lt d (by decide)) (fin_lt a (by decide)) (fin_lt b (by decide)) (by decide)
  roundTrip rfl F.guard (fun h => and_left h) (by
    rw [decodeRaw_0C F.major, dec0C, F.fm]
    simp only
    rw [F.guard, fieldAt_of d F.fd (by decide), fieldAt_of a F.fa (by decide), fieldAt_of b F.fb (by decide)])
theorem RoundTrip.fcvt (g : Guard) (d a : Fin 32) (t sc : Fin 8) : RoundTrip.Statement (.fcvt g d a t sc) :=
  have F := wordR_fields (M := 0x0C) (g := g) (c := false) (by decide) (fin_lt d (by decide)) (fin_lt a (by decide)) (by omega) (by decide)
  roundTrip rfl F.guard (fun h => and_left h) (by
    rw [decodeRaw_0C F.major, dec0C, F.fm]
    simp only
    rw [F.guard, fieldAt_of d F.fd (by decide), fieldAt_of a F.fa (by decide), fieldAt_eq t (by have := F.fb; omega), fieldAt_eq sc (by have := F.fb; omega)])
theorem RoundTrip.b (g : Guard) (i : BitVec 21) : RoundTrip.Statement (.b g i) :=
  have F := wordB_fields (M := 0x0D) (g := g) (by decide) i.isLt
  roundTrip rfl F.guard id (by
    rw [decodeRaw_0D F.major, dec0D]
    rw [F.guard, immOf_eq i F.fi])
theorem RoundTrip.jal (g : Guard) (i : BitVec 21) : RoundTrip.Statement (.jal g i) :=
  have F := wordB_fields (M := 0x0E) (g := g) (by decide) i.isLt
  roundTrip rfl F.guard id (by
    rw [decodeRaw_0E F.major, dec0E]
    rw [F.guard, immOf_eq i F.fi])
theorem RoundTrip.jr (g : Guard) (d a : Fin 32) : RoundTrip.Statement (.jr g d a) :=
  have F := wordR_fields (M := 0x0F) (g := g) (c := false) (by decide) (fin_lt d (by decide)) (fin_lt a (by decide)) (by decide) (by decide)
  roundTrip rfl F.guard id (by
    rw [decodeRaw_0F F.major, dec0F, F.fm]
    simp only
    rw [F.guard, fieldAt_of d F.fd (by decide), fieldAt_of a F.fa (by decide)])
theorem RoundTrip.spawn (g : Guard) (d a b : Fin 32) : RoundTrip.Statement (.spawn g d a b) :=
  have F := wordR_fields (M := 0x0F) (g := g) (c := false) (by decide) (fin_lt d (by decide)) (fin_lt a (by decide)) (fin_lt b (by decide)) (by decide)
  roundTrip rfl F.guard id (by
    rw [decodeRaw_0F F.major, dec0F, F.fm]
    simp only
    rw [F.guard, fieldAt_of d F.fd (by decide), fieldAt_of a F.fa (by decide), fieldAt_of b F.fb (by decide)])
theorem RoundTrip.await (g : Guard) (k : Fin 64) (a b : Fin 32) : RoundTrip.Statement (.await g k a b) :=
  have F := wordR_fields (M := 0x0F) (g := g) (c := false) (by decide) (fin_lt k (by decide)) (fin_lt a (by decide)) (fin_lt b (by decide)) (by decide)
  roundTrip rfl F.guard id (by
    rw [decodeRaw_0F F.major, dec0F, F.fm]
    simp only
    rw [F.guard, fieldAt_of k F.fd (by decide), fieldAt_of a F.fa (by decide), fieldAt_of b F.fb (by decide)])
theorem RoundTrip.yield (g : Guard) (k : Fin 64) (b : Fin 32) : RoundTrip.Statement (.yield g k b) :=
  have F := wordR_fields (M := 0x0F) (g := g) (c := false) (by decide) (fin_lt k (by decide)) (by decide) (fin_lt b (by decide)) (by decide)
  roundTrip rfl F.guard id (by
    rw [decodeRaw_0F F.major, dec0F, F.fm]
    simp only
    rw [F.guard, fieldAt_of k F.fd (by decide), fieldAt_of b F.fb (by decide)])
theorem RoundTrip.fin (g : Guard) : RoundTrip.Statement (.fin g) :=
  have F := wordR_fields (M := 0x0F) (g := g) (c := false) (by decide) (by decide) (by decide) (by decide) (by decide)
  roundTrip rfl F.guard id (by
    rw [decodeRaw_0F F.major, dec0F, F.fm]
    simp only
    rw [F.guard])
theorem RoundTrip.sys (g : Guard) (h l : Fin 64) : RoundTrip.Statement (.sys g h l) :=
  have F := wordR_fields (M := 0x0F) (g := g) (c := false) (by decide) (by decide) (fin_lt h (by decide)) (fin_lt l (by decide)) (by decide)
  roundTrip rfl F.guard id (by
    rw [decodeRaw_0F F.major, dec0F, F.fm]
    simp only
    rw [F.guard, fieldAt_of h F.fa (by decide), fieldAt_of l F.fb (by decide)])
theorem RoundTrip.vadd (g : Guard) (c : Bool) (d a b : Fin 64) : RoundTrip.Statement (.vadd g c d a b) :=
  have F := wordR_fields (M := 0x10) (g := g) (c := c) (by decide) (fin_lt d (by decide)) (fin_lt a (by decide)) (fin_lt b (by decide)) (by decide)
  roundTrip rfl F.guard id (by
    rw [decodeRaw_10 F.major, dec10, F.fm]
    simp only
    rw [F.guard, F.conv, fieldAt_of d F.fd (by decide), fieldAt_of a F.fa (by decide), fieldAt_of b F.fb (by decide)])
theorem RoundTrip.vsub (g : Guard) (c : Bool) (d a b : Fin 64) : RoundTrip.Statement (.vsub g c d a b) :=
  have F := wordR_fields (M := 0x10) (g := g) (c := c) (by decide) (fin_lt d (by decide)) (fin_lt a (by decide)) (fin_lt b (by decide)) (by decide)
  roundTrip rfl F.guard id (by
    rw [decodeRaw_10 F.major, dec10, F.fm]
    simp only
    rw [F.guard, F.conv, fieldAt_of d F.fd (by decide), fieldAt_of a F.fa (by decide), fieldAt_of b F.fb (by decide)])
theorem RoundTrip.vand (g : Guard) (c : Bool) (d a b : Fin 64) : RoundTrip.Statement (.vand g c d a b) :=
  have F := wordR_fields (M := 0x10) (g := g) (c := c) (by decide) (fin_lt d (by decide)) (fin_lt a (by decide)) (fin_lt b (by decide)) (by decide)
  roundTrip rfl F.guard id (by
    rw [decodeRaw_10 F.major, dec10, F.fm]
    simp only
    rw [F.guard, F.conv, fieldAt_of d F.fd (by decide), fieldAt_of a F.fa (by decide), fieldAt_of b F.fb (by decide)])
theorem RoundTrip.vor (g : Guard) (c : Bool) (d a b : Fin 64) : RoundTrip.Statement (.vor g c d a b) :=
  have F := wordR_fields (M := 0x10) (g := g) (c := c) (by decide) (fin_lt d (by decide)) (fin_lt a (by decide)) (fin_lt b (by decide)) (by decide)
  roundTrip rfl F.guard id (by
    rw [decodeRaw_10 F.major, dec10, F.fm]
    simp only
    rw [F.guard, F.conv, fieldAt_of d F.fd (by decide), fieldAt_of a F.fa (by decide), fieldAt_of b F.fb (by decide)])
theorem RoundTrip.vxor (g : Guard) (c : Bool) (d a b : Fin 64) : RoundTrip.Statement (.vxor g c d a b) :=
  have F := wordR_fields (M := 0x10) (g := g) (c := c) (by decide) (fin_lt d (by decide)) (fin_lt a (by decide)) (fin_lt b (by decide)) (by decide)
  roundTrip rfl F.guard id (by
    rw [decodeRaw_10 F.major, dec10, F.fm]
    simp only
    rw [F.guard, F.conv, fieldAt_of d F.fd (by decide), fieldAt_of a F.fa (by decide), fieldAt_of b F.fb (by decide)])
theorem RoundTrip.vsll (g : Guard) (c : Bool) (d a b : Fin 64) : RoundTrip.Statement (.vsll g c d a b) :=
  have F := wordR_fields (M := 0x10) (g := g) (c := c) (by decide) (fin_lt d (by decide)) (fin_lt a (by decide)) (fin_lt b (by decide)) (by decide)
  roundTrip rfl F.guard id (by
    rw [decodeRaw_10 F.major, dec10, F.fm]
    simp only
    rw [F.guard, F.conv, fieldAt_of d F.fd (by decide), fieldAt_of a F.fa (by decide), fieldAt_of b F.fb (by decide)])
theorem RoundTrip.vsrl (g : Guard) (c : Bool) (d a b : Fin 64) : RoundTrip.Statement (.vsrl g c d a b) :=
  have F := wordR_fields (M := 0x10) (g := g) (c := c) (by decide) (fin_lt d (by decide)) (fin_lt a (by decide)) (fin_lt b (by decide)) (by decide)
  roundTrip rfl F.guard id (by
    rw [decodeRaw_10 F.major, dec10, F.fm]
    simp only
    rw [F.guard, F.conv, fieldAt_of d F.fd (by decide), fieldAt_of a F.fa (by decide), fieldAt_of b F.fb (by decide)])
theorem RoundTrip.vsra (g : Guard) (c : Bool) (d a b : Fin 64) : RoundTrip.Statement (.vsra g c d a b) :=
  have F := wordR_fields (M := 0x10) (g := g) (c := c) (by decide) (fin_lt d (by decide)) (fin_lt a (by decide)) (fin_lt b (by decide)) (by decide)
  roundTrip rfl F.guard id (by
    rw [decodeRaw_10 F.major, dec10, F.fm]
    simp only
    rw [F.guard, F.conv, fieldAt_of d F.fd (by decide), fieldAt_of a F.fa (by decide), fieldAt_of b F.fb (by decide)])
theorem RoundTrip.vmul (g : Guard) (c : Bool) (d a b : Fin 64) : RoundTrip.Statement (.vmul g c d a b) :=
  have F := wordR_fields (M := 0x11) (g := g) (c := c) (by decide) (fin_lt d (by decide)) (fin_lt a (by decide)) (fin_lt b (by decide)) (by decide)
  roundTrip rfl F.guard id (by
    rw [decodeRaw_11 F.major, dec11, F.fm]
    simp only
    rw [F.guard, F.conv, fieldAt_of d F.fd (by decide), fieldAt_of a F.fa (by decide), fieldAt_of b F.fb (by decide)])
theorem RoundTrip.vmulh (g : Guard) (c : Bool) (d a b : Fin 64) : RoundTrip.Statement (.vmulh g c d a b) :=
  have F := wordR_fields (M := 0x11) (g := g) (c := c) (by decide) (fin_lt d (by decide)) (fin_lt a (by decide)) (fin_lt b (by decide)) (by decide)
  roundTrip rfl F.guard id (by
    rw [decodeRaw_11 F.major, dec11, F.fm]
    simp only
    rw [F.guard, F.conv, fieldAt_of d F.fd (by decide), fieldAt_of a F.fa (by decide), fieldAt_of b F.fb (by decide)])
theorem RoundTrip.vmin (g : Guard) (c : Bool) (d a b : Fin 64) : RoundTrip.Statement (.vmin g c d a b) :=
  have F := wordR_fields (M := 0x11) (g := g) (c := c) (by decide) (fin_lt d (by decide)) (fin_lt a (by decide)) (fin_lt b (by decide)) (by decide)
  roundTrip rfl F.guard id (by
    rw [decodeRaw_11 F.major, dec11, F.fm]
    simp only
    rw [F.guard, F.conv, fieldAt_of d F.fd (by decide), fieldAt_of a F.fa (by decide), fieldAt_of b F.fb (by decide)])
theorem RoundTrip.vmax (g : Guard) (c : Bool) (d a b : Fin 64) : RoundTrip.Statement (.vmax g c d a b) :=
  have F := wordR_fields (M := 0x11) (g := g) (c := c) (by decide) (fin_lt d (by decide)) (fin_lt a (by decide)) (fin_lt b (by decide)) (by decide)
  roundTrip rfl F.guard id (by
    rw [decodeRaw_11 F.major, dec11, F.fm]
    simp only
    rw [F.guard, F.conv, fieldAt_of d F.fd (by decide), fieldAt_of a F.fa (by decide), fieldAt_of b F.fb (by decide)])
theorem RoundTrip.vminu (g : Guard) (c : Bool) (d a b : Fin 64) : RoundTrip.Statement (.vminu g c d a b) :=
  have F := wordR_fields (M := 0x11) (g := g) (c := c) (by decide) (fin_lt d (by decide)) (fin_lt a (by decide)) (fin_lt b (by decide)) (by decide)
  roundTrip rfl F.guard id (by
    rw [decodeRaw_11 F.major, dec11, F.fm]
    simp only
    rw [F.guard, F.conv, fieldAt_of d F.fd (by decide), fieldAt_of a F.fa (by decide), fieldAt_of b F.fb (by decide)])
theorem RoundTrip.vmaxu (g : Guard) (c : Bool) (d a b : Fin 64) : RoundTrip.Statement (.vmaxu g c d a b) :=
  have F := wordR_fields (M := 0x11) (g := g) (c := c) (by decide) (fin_lt d (by decide)) (fin_lt a (by decide)) (fin_lt b (by decide)) (by decide)
  roundTrip rfl F.guard id (by
    rw [decodeRaw_11 F.major, dec11, F.fm]
    simp only
    rw [F.guard, F.conv, fieldAt_of d F.fd (by decide), fieldAt_of a F.fa (by decide), fieldAt_of b F.fb (by decide)])
theorem RoundTrip.vadds (g : Guard) (c : Bool) (d a b : Fin 64) : RoundTrip.Statement (.vadds g c d a b) :=
  have F := wordR_fields (M := 0x11) (g := g) (c := c) (by decide) (fin_lt d (by decide)) (fin_lt a (by decide)) (fin_lt b (by decide)) (by decide)
  roundTrip rfl F.guard id (by
    rw [decodeRaw_11 F.major, dec11, F.fm]
    simp only
    rw [F.guard, F.conv, fieldAt_of d F.fd (by decide), fieldAt_of a F.fa (by decide), fieldAt_of b F.fb (by decide)])
theorem RoundTrip.vsubs (g : Guard) (c : Bool) (d a b : Fin 64) : RoundTrip.Statement (.vsubs g c d a b) :=
  have F := wordR_fields (M := 0x11) (g := g) (c := c) (by decide) (fin_lt d (by decide)) (fin_lt a (by decide)) (fin_lt b (by decide)) (by decide)
  roundTrip rfl F.guard id (by
    rw [decodeRaw_11 F.major, dec11, F.fm]
    simp only
    rw [F.guard, F.conv, fieldAt_of d F.fd (by decide), fieldAt_of a F.fa (by decide), fieldAt_of b F.fb (by decide)])
theorem RoundTrip.vaddScalar (g : Guard) (c : Bool) (d a : Fin 64) (b : Fin 32) : RoundTrip.Statement (.vaddScalar g c d a b) :=
  have F := wordR_fields (M := 0x12) (g := g) (c := c) (by decide) (fin_lt d (by decide)) (fin_lt a (by decide)) (fin_lt b (by decide)) (by decide)
  roundTrip rfl F.guard id (by
    rw [decodeRaw_12 F.major, dec12, F.fm]
    simp only
    rw [F.guard, F.conv, fieldAt_of d F.fd (by decide), fieldAt_of a F.fa (by decide), fieldAt_of b F.fb (by decide)])
theorem RoundTrip.vsubScalar (g : Guard) (c : Bool) (d a : Fin 64) (b : Fin 32) : RoundTrip.Statement (.vsubScalar g c d a b) :=
  have F := wordR_fields (M := 0x12) (g := g) (c := c) (by decide) (fin_lt d (by decide)) (fin_lt a (by decide)) (fin_lt b (by decide)) (by decide)
  roundTrip rfl F.guard id (by
    rw [decodeRaw_12 F.major, dec12, F.fm]
    simp only
    rw [F.guard, F.conv, fieldAt_of d F.fd (by decide), fieldAt_of a F.fa (by decide), fieldAt_of b F.fb (by decide)])
theorem RoundTrip.vandScalar (g : Guard) (c : Bool) (d a : Fin 64) (b : Fin 32) : RoundTrip.Statement (.vandScalar g c d a b) :=
  have F := wordR_fields (M := 0x12) (g := g) (c := c) (by decide) (fin_lt d (by decide)) (fin_lt a (by decide)) (fin_lt b (by decide)) (by decide)
  roundTrip rfl F.guard id (by
    rw [decodeRaw_12 F.major, dec12, F.fm]
    simp only
    rw [F.guard, F.conv, fieldAt_of d F.fd (by decide), fieldAt_of a F.fa (by decide), fieldAt_of b F.fb (by decide)])
theorem RoundTrip.vorScalar (g : Guard) (c : Bool) (d a : Fin 64) (b : Fin 32) : RoundTrip.Statement (.vorScalar g c d a b) :=
  have F := wordR_fields (M := 0x12) (g := g) (c := c) (by decide) (fin_lt d (by decide)) (fin_lt a (by decide)) (fin_lt b (by decide)) (by decide)
  roundTrip rfl F.guard id (by
    rw [decodeRaw_12 F.major, dec12, F.fm]
    simp only
    rw [F.guard, F.conv, fieldAt_of d F.fd (by decide), fieldAt_of a F.fa (by decide), fieldAt_of b F.fb (by decide)])
theorem RoundTrip.vxorScalar (g : Guard) (c : Bool) (d a : Fin 64) (b : Fin 32) : RoundTrip.Statement (.vxorScalar g c d a b) :=
  have F := wordR_fields (M := 0x12) (g := g) (c := c) (by decide) (fin_lt d (by decide)) (fin_lt a (by decide)) (fin_lt b (by decide)) (by decide)
  roundTrip rfl F.guard id (by
    rw [decodeRaw_12 F.major, dec12, F.fm]
    simp only
    rw [F.guard, F.conv, fieldAt_of d F.fd (by decide), fieldAt_of a F.fa (by decide), fieldAt_of b F.fb (by decide)])
theorem RoundTrip.vsllScalar (g : Guard) (c : Bool) (d a : Fin 64) (b : Fin 32) : RoundTrip.Statement (.vsllScalar g c d a b) :=
  have F := wordR_fields (M := 0x12) (g := g) (c := c) (by decide) (fin_lt d (by decide)) (fin_lt a (by decide)) (fin_lt b (by decide)) (by decide)
  roundTrip rfl F.guard id (by
    rw [decodeRaw_12 F.major, dec12, F.fm]
    simp only
    rw [F.guard, F.conv, fieldAt_of d F.fd (by decide), fieldAt_of a F.fa (by decide), fieldAt_of b F.fb (by decide)])
theorem RoundTrip.vsrlScalar (g : Guard) (c : Bool) (d a : Fin 64) (b : Fin 32) : RoundTrip.Statement (.vsrlScalar g c d a b) :=
  have F := wordR_fields (M := 0x12) (g := g) (c := c) (by decide) (fin_lt d (by decide)) (fin_lt a (by decide)) (fin_lt b (by decide)) (by decide)
  roundTrip rfl F.guard id (by
    rw [decodeRaw_12 F.major, dec12, F.fm]
    simp only
    rw [F.guard, F.conv, fieldAt_of d F.fd (by decide), fieldAt_of a F.fa (by decide), fieldAt_of b F.fb (by decide)])
theorem RoundTrip.vsraScalar (g : Guard) (c : Bool) (d a : Fin 64) (b : Fin 32) : RoundTrip.Statement (.vsraScalar g c d a b) :=
  have F := wordR_fields (M := 0x12) (g := g) (c := c) (by decide) (fin_lt d (by decide)) (fin_lt a (by decide)) (fin_lt b (by decide)) (by decide)
  roundTrip rfl F.guard id (by
    rw [decodeRaw_12 F.major, dec12, F.fm]
    simp only
    rw [F.guard, F.conv, fieldAt_of d F.fd (by decide), fieldAt_of a F.fa (by decide), fieldAt_of b F.fb (by decide)])
theorem RoundTrip.vmulScalar (g : Guard) (c : Bool) (d a : Fin 64) (b : Fin 32) : RoundTrip.Statement (.vmulScalar g c d a b) :=
  have F := wordR_fields (M := 0x13) (g := g) (c := c) (by decide) (fin_lt d (by decide)) (fin_lt a (by decide)) (fin_lt b (by decide)) (by decide)
  roundTrip rfl F.guard id (by
    rw [decodeRaw_13 F.major, dec13, F.fm]
    simp only
    rw [F.guard, F.conv, fieldAt_of d F.fd (by decide), fieldAt_of a F.fa (by decide), fieldAt_of b F.fb (by decide)])
theorem RoundTrip.vmulhScalar (g : Guard) (c : Bool) (d a : Fin 64) (b : Fin 32) : RoundTrip.Statement (.vmulhScalar g c d a b) :=
  have F := wordR_fields (M := 0x13) (g := g) (c := c) (by decide) (fin_lt d (by decide)) (fin_lt a (by decide)) (fin_lt b (by decide)) (by decide)
  roundTrip rfl F.guard id (by
    rw [decodeRaw_13 F.major, dec13, F.fm]
    simp only
    rw [F.guard, F.conv, fieldAt_of d F.fd (by decide), fieldAt_of a F.fa (by decide), fieldAt_of b F.fb (by decide)])
theorem RoundTrip.vminScalar (g : Guard) (c : Bool) (d a : Fin 64) (b : Fin 32) : RoundTrip.Statement (.vminScalar g c d a b) :=
  have F := wordR_fields (M := 0x13) (g := g) (c := c) (by decide) (fin_lt d (by decide)) (fin_lt a (by decide)) (fin_lt b (by decide)) (by decide)
  roundTrip rfl F.guard id (by
    rw [decodeRaw_13 F.major, dec13, F.fm]
    simp only
    rw [F.guard, F.conv, fieldAt_of d F.fd (by decide), fieldAt_of a F.fa (by decide), fieldAt_of b F.fb (by decide)])
theorem RoundTrip.vmaxScalar (g : Guard) (c : Bool) (d a : Fin 64) (b : Fin 32) : RoundTrip.Statement (.vmaxScalar g c d a b) :=
  have F := wordR_fields (M := 0x13) (g := g) (c := c) (by decide) (fin_lt d (by decide)) (fin_lt a (by decide)) (fin_lt b (by decide)) (by decide)
  roundTrip rfl F.guard id (by
    rw [decodeRaw_13 F.major, dec13, F.fm]
    simp only
    rw [F.guard, F.conv, fieldAt_of d F.fd (by decide), fieldAt_of a F.fa (by decide), fieldAt_of b F.fb (by decide)])
theorem RoundTrip.vminuScalar (g : Guard) (c : Bool) (d a : Fin 64) (b : Fin 32) : RoundTrip.Statement (.vminuScalar g c d a b) :=
  have F := wordR_fields (M := 0x13) (g := g) (c := c) (by decide) (fin_lt d (by decide)) (fin_lt a (by decide)) (fin_lt b (by decide)) (by decide)
  roundTrip rfl F.guard id (by
    rw [decodeRaw_13 F.major, dec13, F.fm]
    simp only
    rw [F.guard, F.conv, fieldAt_of d F.fd (by decide), fieldAt_of a F.fa (by decide), fieldAt_of b F.fb (by decide)])
theorem RoundTrip.vmaxuScalar (g : Guard) (c : Bool) (d a : Fin 64) (b : Fin 32) : RoundTrip.Statement (.vmaxuScalar g c d a b) :=
  have F := wordR_fields (M := 0x13) (g := g) (c := c) (by decide) (fin_lt d (by decide)) (fin_lt a (by decide)) (fin_lt b (by decide)) (by decide)
  roundTrip rfl F.guard id (by
    rw [decodeRaw_13 F.major, dec13, F.fm]
    simp only
    rw [F.guard, F.conv, fieldAt_of d F.fd (by decide), fieldAt_of a F.fa (by decide), fieldAt_of b F.fb (by decide)])
theorem RoundTrip.vaddsScalar (g : Guard) (c : Bool) (d a : Fin 64) (b : Fin 32) : RoundTrip.Statement (.vaddsScalar g c d a b) :=
  have F := wordR_fields (M := 0x13) (g := g) (c := c) (by decide) (fin_lt d (by decide)) (fin_lt a (by decide)) (fin_lt b (by decide)) (by decide)
  roundTrip rfl F.guard id (by
    rw [decodeRaw_13 F.major, dec13, F.fm]
    simp only
    rw [F.guard, F.conv, fieldAt_of d F.fd (by decide), fieldAt_of a F.fa (by decide), fieldAt_of b F.fb (by decide)])
theorem RoundTrip.vsubsScalar (g : Guard) (c : Bool) (d a : Fin 64) (b : Fin 32) : RoundTrip.Statement (.vsubsScalar g c d a b) :=
  have F := wordR_fields (M := 0x13) (g := g) (c := c) (by decide) (fin_lt d (by decide)) (fin_lt a (by decide)) (fin_lt b (by decide)) (by decide)
  roundTrip rfl F.guard id (by
    rw [decodeRaw_13 F.major, dec13, F.fm]
    simp only
    rw [F.guard, F.conv, fieldAt_of d F.fd (by decide), fieldAt_of a F.fa (by decide), fieldAt_of b F.fb (by decide)])
theorem RoundTrip.vcmpEq (g : Guard) (c : Bool) (d a b : Fin 64) : RoundTrip.Statement (.vcmpEq g c d a b) :=
  have F := wordR_fields (M := 0x14) (g := g) (c := c) (by decide) (fin_lt d (by decide)) (fin_lt a (by decide)) (fin_lt b (by decide)) (by decide)
  roundTrip rfl F.guard (fun h => and_left h) (by
    rw [decodeRaw_14 F.major, dec14, F.fm]
    simp only
    rw [F.guard, F.conv, fieldAt_of d F.fd (by decide), fieldAt_of a F.fa (by decide), fieldAt_of b F.fb (by decide)])
theorem RoundTrip.vcmpNe (g : Guard) (c : Bool) (d a b : Fin 64) : RoundTrip.Statement (.vcmpNe g c d a b) :=
  have F := wordR_fields (M := 0x14) (g := g) (c := c) (by decide) (fin_lt d (by decide)) (fin_lt a (by decide)) (fin_lt b (by decide)) (by decide)
  roundTrip rfl F.guard (fun h => and_left h) (by
    rw [decodeRaw_14 F.major, dec14, F.fm]
    simp only
    rw [F.guard, F.conv, fieldAt_of d F.fd (by decide), fieldAt_of a F.fa (by decide), fieldAt_of b F.fb (by decide)])
theorem RoundTrip.vcmpLt (g : Guard) (c : Bool) (d a b : Fin 64) : RoundTrip.Statement (.vcmpLt g c d a b) :=
  have F := wordR_fields (M := 0x14) (g := g) (c := c) (by decide) (fin_lt d (by decide)) (fin_lt a (by decide)) (fin_lt b (by decide)) (by decide)
  roundTrip rfl F.guard (fun h => and_left h) (by
    rw [decodeRaw_14 F.major, dec14, F.fm]
    simp only
    rw [F.guard, F.conv, fieldAt_of d F.fd (by decide), fieldAt_of a F.fa (by decide), fieldAt_of b F.fb (by decide)])
theorem RoundTrip.vcmpLtu (g : Guard) (c : Bool) (d a b : Fin 64) : RoundTrip.Statement (.vcmpLtu g c d a b) :=
  have F := wordR_fields (M := 0x14) (g := g) (c := c) (by decide) (fin_lt d (by decide)) (fin_lt a (by decide)) (fin_lt b (by decide)) (by decide)
  roundTrip rfl F.guard (fun h => and_left h) (by
    rw [decodeRaw_14 F.major, dec14, F.fm]
    simp only
    rw [F.guard, F.conv, fieldAt_of d F.fd (by decide), fieldAt_of a F.fa (by decide), fieldAt_of b F.fb (by decide)])
theorem RoundTrip.vcmpLe (g : Guard) (c : Bool) (d a b : Fin 64) : RoundTrip.Statement (.vcmpLe g c d a b) :=
  have F := wordR_fields (M := 0x14) (g := g) (c := c) (by decide) (fin_lt d (by decide)) (fin_lt a (by decide)) (fin_lt b (by decide)) (by decide)
  roundTrip rfl F.guard (fun h => and_left h) (by
    rw [decodeRaw_14 F.major, dec14, F.fm]
    simp only
    rw [F.guard, F.conv, fieldAt_of d F.fd (by decide), fieldAt_of a F.fa (by decide), fieldAt_of b F.fb (by decide)])
theorem RoundTrip.vcmpLeu (g : Guard) (c : Bool) (d a b : Fin 64) : RoundTrip.Statement (.vcmpLeu g c d a b) :=
  have F := wordR_fields (M := 0x14) (g := g) (c := c) (by decide) (fin_lt d (by decide)) (fin_lt a (by decide)) (fin_lt b (by decide)) (by decide)
  roundTrip rfl F.guard (fun h => and_left h) (by
    rw [decodeRaw_14 F.major, dec14, F.fm]
    simp only
    rw [F.guard, F.conv, fieldAt_of d F.fd (by decide), fieldAt_of a F.fa (by decide), fieldAt_of b F.fb (by decide)])
theorem RoundTrip.vmerge (g : Guard) (c : Bool) (d a b : Fin 64) : RoundTrip.Statement (.vmerge g c d a b) :=
  have F := wordR_fields (M := 0x14) (g := g) (c := c) (by decide) (fin_lt d (by decide)) (fin_lt a (by decide)) (fin_lt b (by decide)) (by decide)
  roundTrip rfl F.guard id (by
    rw [decodeRaw_14 F.major, dec14, F.fm]
    simp only
    rw [F.guard, F.conv, fieldAt_of d F.fd (by decide), fieldAt_of a F.fa (by decide), fieldAt_of b F.fb (by decide)])
theorem RoundTrip.vslideup (g : Guard) (c : Bool) (d a : Fin 64) (b : Fin 32) : RoundTrip.Statement (.vslideup g c d a b) :=
  have F := wordR_fields (M := 0x15) (g := g) (c := c) (by decide) (fin_lt d (by decide)) (fin_lt a (by decide)) (fin_lt b (by decide)) (by decide)
  roundTrip rfl F.guard (fun h => and_left h) (by
    rw [decodeRaw_15 F.major, dec15, F.fm]
    simp only
    rw [F.guard, F.conv, fieldAt_of d F.fd (by decide), fieldAt_of a F.fa (by decide), fieldAt_of b F.fb (by decide)])
theorem RoundTrip.vslidedn (g : Guard) (c : Bool) (d a : Fin 64) (b : Fin 32) : RoundTrip.Statement (.vslidedn g c d a b) :=
  have F := wordR_fields (M := 0x15) (g := g) (c := c) (by decide) (fin_lt d (by decide)) (fin_lt a (by decide)) (fin_lt b (by decide)) (by decide)
  roundTrip rfl F.guard (fun h => and_left h) (by
    rw [decodeRaw_15 F.major, dec15, F.fm]
    simp only
    rw [F.guard, F.conv, fieldAt_of d F.fd (by decide), fieldAt_of a F.fa (by decide), fieldAt_of b F.fb (by decide)])
theorem RoundTrip.vcompress (g : Guard) (c : Bool) (d a : Fin 64) : RoundTrip.Statement (.vcompress g c d a) :=
  have F := wordR_fields (M := 0x15) (g := g) (c := c) (by decide) (fin_lt d (by decide)) (fin_lt a (by decide)) (by decide) (by decide)
  roundTrip rfl F.guard (fun h => and_left h) (by
    rw [decodeRaw_15 F.major, dec15, F.fm]
    simp only
    rw [F.guard, F.conv, fieldAt_of d F.fd (by decide), fieldAt_of a F.fa (by decide)])
theorem RoundTrip.viota (g : Guard) (c : Bool) (d : Fin 64) : RoundTrip.Statement (.viota g c d) :=
  have F := wordR_fields (M := 0x15) (g := g) (c := c) (by decide) (fin_lt d (by decide)) (by decide) (by decide) (by decide)
  roundTrip rfl F.guard id (by
    rw [decodeRaw_15 F.major, dec15, F.fm]
    simp only
    rw [F.guard, F.conv, fieldAt_of d F.fd (by decide)])
theorem RoundTrip.vperm (g : Guard) (c : Bool) (d a b : Fin 64) : RoundTrip.Statement (.vperm g c d a b) :=
  have F := wordR_fields (M := 0x15) (g := g) (c := c) (by decide) (fin_lt d (by decide)) (fin_lt a (by decide)) (fin_lt b (by decide)) (by decide)
  roundTrip rfl F.guard (fun h => and_left (and_left h)) (by
    rw [decodeRaw_15 F.major, dec15, F.fm]
    simp only
    rw [F.guard, F.conv, fieldAt_of d F.fd (by decide), fieldAt_of a F.fa (by decide), fieldAt_of b F.fb (by decide)])
theorem RoundTrip.vbcast (g : Guard) (c : Bool) (d : Fin 64) (a : Fin 32) : RoundTrip.Statement (.vbcast g c d a) :=
  have F := wordR_fields (M := 0x15) (g := g) (c := c) (by decide) (fin_lt d (by decide)) (fin_lt a (by decide)) (by decide) (by decide)
  roundTrip rfl F.guard id (by
    rw [decodeRaw_15 F.major, dec15, F.fm]
    simp only
    rw [F.guard, F.conv, fieldAt_of d F.fd (by decide), fieldAt_of a F.fa (by decide)])
theorem RoundTrip.vext (c : Bool) (d : Fin 32) (a : Fin 64) (b : Fin 32) : RoundTrip.Statement (.vext c d a b) :=
  have F := wordR_fields (M := 0x15) (g := .always) (c := c) (by decide) (fin_lt d (by decide)) (fin_lt a (by decide)) (fin_lt b (by decide)) (by decide)
  roundTrip rfl F.guard (fun _ => rfl) (by
    rw [decodeRaw_15 F.major, dec15, F.fm]
    simp only
    rw [F.conv, fieldAt_of d F.fd (by decide), fieldAt_of a F.fa (by decide), fieldAt_of b F.fb (by decide)])
theorem RoundTrip.vmv (g : Guard) (c : Bool) (d a : Fin 64) : RoundTrip.Statement (.vmv g c d a) :=
  have F := wordR_fields (M := 0x15) (g := g) (c := c) (by decide) (fin_lt d (by decide)) (fin_lt a (by decide)) (by decide) (by decide)
  roundTrip rfl F.guard id (by
    rw [decodeRaw_15 F.major, dec15, F.fm]
    simp only
    rw [F.guard, F.conv, fieldAt_of d F.fd (by decide), fieldAt_of a F.fa (by decide)])
theorem RoundTrip.mand (g : Guard) (c : Bool) (d a b : Fin 8) : RoundTrip.Statement (.mand g c d a b) :=
  have F := wordR_fields (M := 0x16) (g := g) (c := c) (by decide) (fin_lt d (by decide)) (fin_lt a (by decide)) (fin_lt b (by decide)) (by decide)
  roundTrip rfl F.guard (fun h => and_left h) (by
    rw [decodeRaw_16 F.major, dec16, F.fm]
    simp only
    rw [F.guard, F.conv, fieldAt_of d F.fd (by decide), fieldAt_of a F.fa (by decide), fieldAt_of b F.fb (by decide)])
theorem RoundTrip.mor (g : Guard) (c : Bool) (d a b : Fin 8) : RoundTrip.Statement (.mor g c d a b) :=
  have F := wordR_fields (M := 0x16) (g := g) (c := c) (by decide) (fin_lt d (by decide)) (fin_lt a (by decide)) (fin_lt b (by decide)) (by decide)
  roundTrip rfl F.guard (fun h => and_left h) (by
    rw [decodeRaw_16 F.major, dec16, F.fm]
    simp only
    rw [F.guard, F.conv, fieldAt_of d F.fd (by decide), fieldAt_of a F.fa (by decide), fieldAt_of b F.fb (by decide)])
theorem RoundTrip.mxor (g : Guard) (c : Bool) (d a b : Fin 8) : RoundTrip.Statement (.mxor g c d a b) :=
  have F := wordR_fields (M := 0x16) (g := g) (c := c) (by decide) (fin_lt d (by decide)) (fin_lt a (by decide)) (fin_lt b (by decide)) (by decide)
  roundTrip rfl F.guard (fun h => and_left h) (by
    rw [decodeRaw_16 F.major, dec16, F.fm]
    simp only
    rw [F.guard, F.conv, fieldAt_of d F.fd (by decide), fieldAt_of a F.fa (by decide), fieldAt_of b F.fb (by decide)])
theorem RoundTrip.mandn (g : Guard) (c : Bool) (d a b : Fin 8) : RoundTrip.Statement (.mandn g c d a b) :=
  have F := wordR_fields (M := 0x16) (g := g) (c := c) (by decide) (fin_lt d (by decide)) (fin_lt a (by decide)) (fin_lt b (by decide)) (by decide)
  roundTrip rfl F.guard (fun h => and_left h) (by
    rw [decodeRaw_16 F.major, dec16, F.fm]
    simp only
    rw [F.guard, F.conv, fieldAt_of d F.fd (by decide), fieldAt_of a F.fa (by decide), fieldAt_of b F.fb (by decide)])
theorem RoundTrip.mpop (g : Guard) (c : Bool) (d : Fin 32) (a : Fin 8) : RoundTrip.Statement (.mpop g c d a) :=
  have F := wordR_fields (M := 0x16) (g := g) (c := c) (by decide) (fin_lt d (by decide)) (fin_lt a (by decide)) (by decide) (by decide)
  roundTrip rfl F.guard id (by
    rw [decodeRaw_16 F.major, dec16, F.fm]
    simp only
    rw [F.guard, F.conv, fieldAt_of d F.fd (by decide), fieldAt_of a F.fa (by decide)])
theorem RoundTrip.mfirst (g : Guard) (c : Bool) (d : Fin 32) (a : Fin 8) : RoundTrip.Statement (.mfirst g c d a) :=
  have F := wordR_fields (M := 0x16) (g := g) (c := c) (by decide) (fin_lt d (by decide)) (fin_lt a (by decide)) (by decide) (by decide)
  roundTrip rfl F.guard id (by
    rw [decodeRaw_16 F.major, dec16, F.fm]
    simp only
    rw [F.guard, F.conv, fieldAt_of d F.fd (by decide), fieldAt_of a F.fa (by decide)])
theorem RoundTrip.vtom (g : Guard) (c : Bool) (d : Fin 8) (a : Fin 64) : RoundTrip.Statement (.vtom g c d a) :=
  have F := wordR_fields (M := 0x16) (g := g) (c := c) (by decide) (fin_lt d (by decide)) (fin_lt a (by decide)) (by decide) (by decide)
  roundTrip rfl F.guard (fun h => and_left h) (by
    rw [decodeRaw_16 F.major, dec16, F.fm]
    simp only
    rw [F.guard, F.conv, fieldAt_of d F.fd (by decide), fieldAt_of a F.fa (by decide)])
theorem RoundTrip.mtov (g : Guard) (c : Bool) (d : Fin 64) (a : Fin 8) : RoundTrip.Statement (.mtov g c d a) :=
  have F := wordR_fields (M := 0x16) (g := g) (c := c) (by decide) (fin_lt d (by decide)) (fin_lt a (by decide)) (by decide) (by decide)
  roundTrip rfl F.guard id (by
    rw [decodeRaw_16 F.major, dec16, F.fm]
    simp only
    rw [F.guard, F.conv, fieldAt_of d F.fd (by decide), fieldAt_of a F.fa (by decide)])
theorem RoundTrip.vfadd (g : Guard) (c : Bool) (d a b : Fin 64) : RoundTrip.Statement (.vfadd g c d a b) :=
  have F := wordR_fields (M := 0x17) (g := g) (c := c) (by decide) (fin_lt d (by decide)) (fin_lt a (by decide)) (fin_lt b (by decide)) (by decide)
  roundTrip rfl F.guard id (by
    rw [decodeRaw_17 F.major, dec17, F.fm]
    simp only
    rw [F.guard, F.conv, fieldAt_of d F.fd (by decide), fieldAt_of a F.fa (by decide), fieldAt_of b F.fb (by decide)])
theorem RoundTrip.vfsub (g : Guard) (c : Bool) (d a b : Fin 64) : RoundTrip.Statement (.vfsub g c d a b) :=
  have F := wordR_fields (M := 0x17) (g := g) (c := c) (by decide) (fin_lt d (by decide)) (fin_lt a (by decide)) (fin_lt b (by decide)) (by decide)
  roundTrip rfl F.guard id (by
    rw [decodeRaw_17 F.major, dec17, F.fm]
    simp only
    rw [F.guard, F.conv, fieldAt_of d F.fd (by decide), fieldAt_of a F.fa (by decide), fieldAt_of b F.fb (by decide)])
theorem RoundTrip.vfmul (g : Guard) (c : Bool) (d a b : Fin 64) : RoundTrip.Statement (.vfmul g c d a b) :=
  have F := wordR_fields (M := 0x17) (g := g) (c := c) (by decide) (fin_lt d (by decide)) (fin_lt a (by decide)) (fin_lt b (by decide)) (by decide)
  roundTrip rfl F.guard id (by
    rw [decodeRaw_17 F.major, dec17, F.fm]
    simp only
    rw [F.guard, F.conv, fieldAt_of d F.fd (by decide), fieldAt_of a F.fa (by decide), fieldAt_of b F.fb (by decide)])
theorem RoundTrip.vfdiv (g : Guard) (c : Bool) (d a b : Fin 64) : RoundTrip.Statement (.vfdiv g c d a b) :=
  have F := wordR_fields (M := 0x17) (g := g) (c := c) (by decide) (fin_lt d (by decide)) (fin_lt a (by decide)) (fin_lt b (by decide)) (by decide)
  roundTrip rfl F.guard id (by
    rw [decodeRaw_17 F.major, dec17, F.fm]
    simp only
    rw [F.guard, F.conv, fieldAt_of d F.fd (by decide), fieldAt_of a F.fa (by decide), fieldAt_of b F.fb (by decide)])
theorem RoundTrip.vfmin (g : Guard) (c : Bool) (d a b : Fin 64) : RoundTrip.Statement (.vfmin g c d a b) :=
  have F := wordR_fields (M := 0x17) (g := g) (c := c) (by decide) (fin_lt d (by decide)) (fin_lt a (by decide)) (fin_lt b (by decide)) (by decide)
  roundTrip rfl F.guard id (by
    rw [decodeRaw_17 F.major, dec17, F.fm]
    simp only
    rw [F.guard, F.conv, fieldAt_of d F.fd (by decide), fieldAt_of a F.fa (by decide), fieldAt_of b F.fb (by decide)])
theorem RoundTrip.vfmax (g : Guard) (c : Bool) (d a b : Fin 64) : RoundTrip.Statement (.vfmax g c d a b) :=
  have F := wordR_fields (M := 0x17) (g := g) (c := c) (by decide) (fin_lt d (by decide)) (fin_lt a (by decide)) (fin_lt b (by decide)) (by decide)
  roundTrip rfl F.guard id (by
    rw [decodeRaw_17 F.major, dec17, F.fm]
    simp only
    rw [F.guard, F.conv, fieldAt_of d F.fd (by decide), fieldAt_of a F.fa (by decide), fieldAt_of b F.fb (by decide)])
theorem RoundTrip.vfma (g : Guard) (c : Bool) (d a b : Fin 64) : RoundTrip.Statement (.vfma g c d a b) :=
  have F := wordR_fields (M := 0x17) (g := g) (c := c) (by decide) (fin_lt d (by decide)) (fin_lt a (by decide)) (fin_lt b (by decide)) (by decide)
  roundTrip rfl F.guard id (by
    rw [decodeRaw_17 F.major, dec17, F.fm]
    simp only
    rw [F.guard, F.conv, fieldAt_of d F.fd (by decide), fieldAt_of a F.fa (by decide), fieldAt_of b F.fb (by decide)])
theorem RoundTrip.vfsqrt (g : Guard) (c : Bool) (d a : Fin 64) : RoundTrip.Statement (.vfsqrt g c d a) :=
  have F := wordR_fields (M := 0x17) (g := g) (c := c) (by decide) (fin_lt d (by decide)) (fin_lt a (by decide)) (by decide) (by decide)
  roundTrip rfl F.guard id (by
    rw [decodeRaw_17 F.major, dec17, F.fm]
    simp only
    rw [F.guard, F.conv, fieldAt_of d F.fd (by decide), fieldAt_of a F.fa (by decide)])
theorem RoundTrip.vfaddScalar (g : Guard) (c : Bool) (d a : Fin 64) (b : Fin 32) : RoundTrip.Statement (.vfaddScalar g c d a b) :=
  have F := wordR_fields (M := 0x18) (g := g) (c := c) (by decide) (fin_lt d (by decide)) (fin_lt a (by decide)) (fin_lt b (by decide)) (by decide)
  roundTrip rfl F.guard id (by
    rw [decodeRaw_18 F.major, dec18, F.fm]
    simp only
    rw [F.guard, F.conv, fieldAt_of d F.fd (by decide), fieldAt_of a F.fa (by decide), fieldAt_of b F.fb (by decide)])
theorem RoundTrip.vfsubScalar (g : Guard) (c : Bool) (d a : Fin 64) (b : Fin 32) : RoundTrip.Statement (.vfsubScalar g c d a b) :=
  have F := wordR_fields (M := 0x18) (g := g) (c := c) (by decide) (fin_lt d (by decide)) (fin_lt a (by decide)) (fin_lt b (by decide)) (by decide)
  roundTrip rfl F.guard id (by
    rw [decodeRaw_18 F.major, dec18, F.fm]
    simp only
    rw [F.guard, F.conv, fieldAt_of d F.fd (by decide), fieldAt_of a F.fa (by decide), fieldAt_of b F.fb (by decide)])
theorem RoundTrip.vfmulScalar (g : Guard) (c : Bool) (d a : Fin 64) (b : Fin 32) : RoundTrip.Statement (.vfmulScalar g c d a b) :=
  have F := wordR_fields (M := 0x18) (g := g) (c := c) (by decide) (fin_lt d (by decide)) (fin_lt a (by decide)) (fin_lt b (by decide)) (by decide)
  roundTrip rfl F.guard id (by
    rw [decodeRaw_18 F.major, dec18, F.fm]
    simp only
    rw [F.guard, F.conv, fieldAt_of d F.fd (by decide), fieldAt_of a F.fa (by decide), fieldAt_of b F.fb (by decide)])
theorem RoundTrip.vfdivScalar (g : Guard) (c : Bool) (d a : Fin 64) (b : Fin 32) : RoundTrip.Statement (.vfdivScalar g c d a b) :=
  have F := wordR_fields (M := 0x18) (g := g) (c := c) (by decide) (fin_lt d (by decide)) (fin_lt a (by decide)) (fin_lt b (by decide)) (by decide)
  roundTrip rfl F.guard id (by
    rw [decodeRaw_18 F.major, dec18, F.fm]
    simp only
    rw [F.guard, F.conv, fieldAt_of d F.fd (by decide), fieldAt_of a F.fa (by decide), fieldAt_of b F.fb (by decide)])
theorem RoundTrip.vfminScalar (g : Guard) (c : Bool) (d a : Fin 64) (b : Fin 32) : RoundTrip.Statement (.vfminScalar g c d a b) :=
  have F := wordR_fields (M := 0x18) (g := g) (c := c) (by decide) (fin_lt d (by decide)) (fin_lt a (by decide)) (fin_lt b (by decide)) (by decide)
  roundTrip rfl F.guard id (by
    rw [decodeRaw_18 F.major, dec18, F.fm]
    simp only
    rw [F.guard, F.conv, fieldAt_of d F.fd (by decide), fieldAt_of a F.fa (by decide), fieldAt_of b F.fb (by decide)])
theorem RoundTrip.vfmaxScalar (g : Guard) (c : Bool) (d a : Fin 64) (b : Fin 32) : RoundTrip.Statement (.vfmaxScalar g c d a b) :=
  have F := wordR_fields (M := 0x18) (g := g) (c := c) (by decide) (fin_lt d (by decide)) (fin_lt a (by decide)) (fin_lt b (by decide)) (by decide)
  roundTrip rfl F.guard id (by
    rw [decodeRaw_18 F.major, dec18, F.fm]
    simp only
    rw [F.guard, F.conv, fieldAt_of d F.fd (by decide), fieldAt_of a F.fa (by decide), fieldAt_of b F.fb (by decide)])
theorem RoundTrip.vfmaScalar (g : Guard) (c : Bool) (d a : Fin 64) (b : Fin 32) : RoundTrip.Statement (.vfmaScalar g c d a b) :=
  have F := wordR_fields (M := 0x18) (g := g) (c := c) (by decide) (fin_lt d (by decide)) (fin_lt a (by decide)) (fin_lt b (by decide)) (by decide)
  roundTrip rfl F.guard id (by
    rw [decodeRaw_18 F.major, dec18, F.fm]
    simp only
    rw [F.guard, F.conv, fieldAt_of d F.fd (by decide), fieldAt_of a F.fa (by decide), fieldAt_of b F.fb (by decide)])
theorem RoundTrip.vfcmpEq (g : Guard) (c : Bool) (d a b : Fin 64) : RoundTrip.Statement (.vfcmpEq g c d a b) :=
  have F := wordR_fields (M := 0x19) (g := g) (c := c) (by decide) (fin_lt d (by decide)) (fin_lt a (by decide)) (fin_lt b (by decide)) (by decide)
  roundTrip rfl F.guard (fun h => and_left h) (by
    rw [decodeRaw_19 F.major, dec19, F.fm]
    simp only
    rw [F.guard, F.conv, fieldAt_of d F.fd (by decide), fieldAt_of a F.fa (by decide), fieldAt_of b F.fb (by decide)])
theorem RoundTrip.vfcmpLt (g : Guard) (c : Bool) (d a b : Fin 64) : RoundTrip.Statement (.vfcmpLt g c d a b) :=
  have F := wordR_fields (M := 0x19) (g := g) (c := c) (by decide) (fin_lt d (by decide)) (fin_lt a (by decide)) (fin_lt b (by decide)) (by decide)
  roundTrip rfl F.guard (fun h => and_left h) (by
    rw [decodeRaw_19 F.major, dec19, F.fm]
    simp only
    rw [F.guard, F.conv, fieldAt_of d F.fd (by decide), fieldAt_of a F.fa (by decide), fieldAt_of b F.fb (by decide)])
theorem RoundTrip.vfcmpLe (g : Guard) (c : Bool) (d a b : Fin 64) : RoundTrip.Statement (.vfcmpLe g c d a b) :=
  have F := wordR_fields (M := 0x19) (g := g) (c := c) (by decide) (fin_lt d (by decide)) (fin_lt a (by decide)) (fin_lt b (by decide)) (by decide)
  roundTrip rfl F.guard (fun h => and_left h) (by
    rw [decodeRaw_19 F.major, dec19, F.fm]
    simp only
    rw [F.guard, F.conv, fieldAt_of d F.fd (by decide), fieldAt_of a F.fa (by decide), fieldAt_of b F.fb (by decide)])
theorem RoundTrip.vfsgcopy (g : Guard) (c : Bool) (d a b : Fin 64) : RoundTrip.Statement (.vfsgcopy g c d a b) :=
  have F := wordR_fields (M := 0x19) (g := g) (c := c) (by decide) (fin_lt d (by decide)) (fin_lt a (by decide)) (fin_lt b (by decide)) (by decide)
  roundTrip rfl F.guard id (by
    rw [decodeRaw_19 F.major, dec19, F.fm]
    simp only
    rw [F.guard, F.conv, fieldAt_of d F.fd (by decide), fieldAt_of a F.fa (by decide), fieldAt_of b F.fb (by decide)])
theorem RoundTrip.vfsgflip (g : Guard) (c : Bool) (d a b : Fin 64) : RoundTrip.Statement (.vfsgflip g c d a b) :=
  have F := wordR_fields (M := 0x19) (g := g) (c := c) (by decide) (fin_lt d (by decide)) (fin_lt a (by decide)) (fin_lt b (by decide)) (by decide)
  roundTrip rfl F.guard id (by
    rw [decodeRaw_19 F.major, dec19, F.fm]
    simp only
    rw [F.guard, F.conv, fieldAt_of d F.fd (by decide), fieldAt_of a F.fa (by decide), fieldAt_of b F.fb (by decide)])
theorem RoundTrip.vfsgmix (g : Guard) (c : Bool) (d a b : Fin 64) : RoundTrip.Statement (.vfsgmix g c d a b) :=
  have F := wordR_fields (M := 0x19) (g := g) (c := c) (by decide) (fin_lt d (by decide)) (fin_lt a (by decide)) (fin_lt b (by decide)) (by decide)
  roundTrip rfl F.guard id (by
    rw [decodeRaw_19 F.major, dec19, F.fm]
    simp only
    rw [F.guard, F.conv, fieldAt_of d F.fd (by decide), fieldAt_of a F.fa (by decide), fieldAt_of b F.fb (by decide)])
theorem RoundTrip.vfkind (g : Guard) (c : Bool) (d a : Fin 64) : RoundTrip.Statement (.vfkind g c d a) :=
  have F := wordR_fields (M := 0x19) (g := g) (c := c) (by decide) (fin_lt d (by decide)) (fin_lt a (by decide)) (by decide) (by decide)
  roundTrip rfl F.guard id (by
    rw [decodeRaw_19 F.major, dec19, F.fm]
    simp only
    rw [F.guard, F.conv, fieldAt_of d F.fd (by decide), fieldAt_of a F.fa (by decide)])
theorem RoundTrip.vexp2 (g : Guard) (c : Bool) (d a : Fin 64) : RoundTrip.Statement (.vexp2 g c d a) :=
  have F := wordR_fields (M := 0x1A) (g := g) (c := c) (by decide) (fin_lt d (by decide)) (fin_lt a (by decide)) (by decide) (by decide)
  roundTrip rfl F.guard id (by
    rw [decodeRaw_1A F.major, dec1A, F.fm]
    simp only
    rw [F.guard, F.conv, fieldAt_of d F.fd (by decide), fieldAt_of a F.fa (by decide)])
theorem RoundTrip.vlog2 (g : Guard) (c : Bool) (d a : Fin 64) : RoundTrip.Statement (.vlog2 g c d a) :=
  have F := wordR_fields (M := 0x1A) (g := g) (c := c) (by decide) (fin_lt d (by decide)) (fin_lt a (by decide)) (by decide) (by decide)
  roundTrip rfl F.guard id (by
    rw [decodeRaw_1A F.major, dec1A, F.fm]
    simp only
    rw [F.guard, F.conv, fieldAt_of d F.fd (by decide), fieldAt_of a F.fa (by decide)])
theorem RoundTrip.vrsqrt (g : Guard) (c : Bool) (d a : Fin 64) : RoundTrip.Statement (.vrsqrt g c d a) :=
  have F := wordR_fields (M := 0x1A) (g := g) (c := c) (by decide) (fin_lt d (by decide)) (fin_lt a (by decide)) (by decide) (by decide)
  roundTrip rfl F.guard id (by
    rw [decodeRaw_1A F.major, dec1A, F.fm]
    simp only
    rw [F.guard, F.conv, fieldAt_of d F.fd (by decide), fieldAt_of a F.fa (by decide)])
theorem RoundTrip.vrcp (g : Guard) (c : Bool) (d a : Fin 64) : RoundTrip.Statement (.vrcp g c d a) :=
  have F := wordR_fields (M := 0x1A) (g := g) (c := c) (by decide) (fin_lt d (by decide)) (fin_lt a (by decide)) (by decide) (by decide)
  roundTrip rfl F.guard id (by
    rw [decodeRaw_1A F.major, dec1A, F.fm]
    simp only
    rw [F.guard, F.conv, fieldAt_of d F.fd (by decide), fieldAt_of a F.fa (by decide)])
theorem RoundTrip.vcvt (g : Guard) (c : Bool) (d a : Fin 64) (t : Fin 16) : RoundTrip.Statement (.vcvt g c d a t) :=
  have F := wordR_fields (M := 0x1B) (g := g) (c := c) (by decide) (fin_lt d (by decide)) (fin_lt a (by decide)) (fin_lt t (by decide)) (by decide)
  roundTrip rfl F.guard (fun h => and_left h) (by
    rw [decodeRaw_1B F.major, dec1B, F.fm]
    simp only
    rw [F.guard, F.conv, fieldAt_of d F.fd (by decide), fieldAt_of a F.fa (by decide), fieldAt_of t F.fb (by decide)])
theorem RoundTrip.vcvtW (g : Guard) (c : Bool) (d a : Fin 64) (t : Fin 16) : RoundTrip.Statement (.vcvtW g c d a t) :=
  have F := wordR_fields (M := 0x1B) (g := g) (c := c) (by decide) (fin_lt d (by decide)) (fin_lt a (by decide)) (fin_lt t (by decide)) (by decide)
  roundTrip rfl F.guard (fun h => and_left (and_left h)) (by
    rw [decodeRaw_1B F.major, dec1B, F.fm]
    simp only
    rw [F.guard, F.conv, fieldAt_of d F.fd (by decide), fieldAt_of a F.fa (by decide), fieldAt_of t F.fb (by decide)])
theorem RoundTrip.vcvtN (g : Guard) (c : Bool) (d a : Fin 64) (t : Fin 16) : RoundTrip.Statement (.vcvtN g c d a t) :=
  have F := wordR_fields (M := 0x1B) (g := g) (c := c) (by decide) (fin_lt d (by decide)) (fin_lt a (by decide)) (fin_lt t (by decide)) (by decide)
  roundTrip rfl F.guard (fun h => and_left (and_left h)) (by
    rw [decodeRaw_1B F.major, dec1B, F.fm]
    simp only
    rw [F.guard, F.conv, fieldAt_of d F.fd (by decide), fieldAt_of a F.fa (by decide), fieldAt_of t F.fb (by decide)])
theorem RoundTrip.vquant (g : Guard) (c : Bool) (d a : Fin 64) (f : Bool) (b : Fin 32) : RoundTrip.Statement (.vquant g c d a f b) :=
  have h0 := bit01_lt c
  have h1 := bit01_lt f
  have F := wordR_fields (M := 0x1B) (g := g) (c := c) (by decide) (fin_lt d (by decide)) (fin_lt a (by decide)) (by omega) (by decide)
  roundTrip rfl F.guard (fun h => and_left (and_left h)) (by
    rw [decodeRaw_1B F.major, dec1B, F.fm]
    simp only
    rw [F.guard, F.conv, fieldAt_of d F.fd (by decide), fieldAt_of a F.fa (by decide), bitAt_eq (b := f) (by have := F.fb; omega), fieldAt_eq b (by have := F.fb; omega)])
theorem RoundTrip.vquantS (g : Guard) (c : Bool) (d a : Fin 64) (f : Bool) (b : Fin 32) : RoundTrip.Statement (.vquantS g c d a f b) :=
  have h0 := bit01_lt c
  have h1 := bit01_lt f
  have F := wordR_fields (M := 0x1B) (g := g) (c := c) (by decide) (fin_lt d (by decide)) (fin_lt a (by decide)) (by omega) (by decide)
  roundTrip rfl F.guard (fun h => and_left (and_left h)) (by
    rw [decodeRaw_1B F.major, dec1B, F.fm]
    simp only
    rw [F.guard, F.conv, fieldAt_of d F.fd (by decide), fieldAt_of a F.fa (by decide), bitAt_eq (b := f) (by have := F.fb; omega), fieldAt_eq b (by have := F.fb; omega)])
theorem RoundTrip.vdequant (g : Guard) (c : Bool) (d a : Fin 64) (f : Bool) (b : Fin 32) : RoundTrip.Statement (.vdequant g c d a f b) :=
  have h0 := bit01_lt c
  have h1 := bit01_lt f
  have F := wordR_fields (M := 0x1B) (g := g) (c := c) (by decide) (fin_lt d (by decide)) (fin_lt a (by decide)) (by omega) (by decide)
  roundTrip rfl F.guard (fun h => and_left (and_left h)) (by
    rw [decodeRaw_1B F.major, dec1B, F.fm]
    simp only
    rw [F.guard, F.conv, fieldAt_of d F.fd (by decide), fieldAt_of a F.fa (by decide), bitAt_eq (b := f) (by have := F.fb; omega), fieldAt_eq b (by have := F.fb; omega)])
theorem RoundTrip.vquantPg (g : Guard) (c : Bool) (d a : Fin 64) (f : Bool) (b : Fin 32) : RoundTrip.Statement (.vquantPg g c d a f b) :=
  have h0 := bit01_lt c
  have h1 := bit01_lt f
  have F := wordR_fields (M := 0x1B) (g := g) (c := c) (by decide) (fin_lt d (by decide)) (fin_lt a (by decide)) (by omega) (by decide)
  roundTrip rfl F.guard (fun h => and_left (and_left h)) (by
    rw [decodeRaw_1B F.major, dec1B, F.fm]
    simp only
    rw [F.guard, F.conv, fieldAt_of d F.fd (by decide), fieldAt_of a F.fa (by decide), bitAt_eq (b := f) (by have := F.fb; omega), fieldAt_eq b (by have := F.fb; omega)])
theorem RoundTrip.vredsum (g : Guard) (c : Bool) (d a : Fin 64) : RoundTrip.Statement (.vredsum g c d a) :=
  have F := wordR_fields (M := 0x1C) (g := g) (c := c) (by decide) (fin_lt d (by decide)) (fin_lt a (by decide)) (by decide) (by decide)
  roundTrip rfl F.guard id (by
    rw [decodeRaw_1C F.major, dec1C, F.fm]
    simp only
    rw [F.guard, F.conv, fieldAt_of d F.fd (by decide), fieldAt_of a F.fa (by decide)])
theorem RoundTrip.vredmin (g : Guard) (c : Bool) (d a : Fin 64) : RoundTrip.Statement (.vredmin g c d a) :=
  have F := wordR_fields (M := 0x1C) (g := g) (c := c) (by decide) (fin_lt d (by decide)) (fin_lt a (by decide)) (by decide) (by decide)
  roundTrip rfl F.guard id (by
    rw [decodeRaw_1C F.major, dec1C, F.fm]
    simp only
    rw [F.guard, F.conv, fieldAt_of d F.fd (by decide), fieldAt_of a F.fa (by decide)])
theorem RoundTrip.vredmax (g : Guard) (c : Bool) (d a : Fin 64) : RoundTrip.Statement (.vredmax g c d a) :=
  have F := wordR_fields (M := 0x1C) (g := g) (c := c) (by decide) (fin_lt d (by decide)) (fin_lt a (by decide)) (by decide) (by decide)
  roundTrip rfl F.guard id (by
    rw [decodeRaw_1C F.major, dec1C, F.fm]
    simp only
    rw [F.guard, F.conv, fieldAt_of d F.fd (by decide), fieldAt_of a F.fa (by decide)])
theorem RoundTrip.vredand (g : Guard) (c : Bool) (d a : Fin 64) : RoundTrip.Statement (.vredand g c d a) :=
  have F := wordR_fields (M := 0x1C) (g := g) (c := c) (by decide) (fin_lt d (by decide)) (fin_lt a (by decide)) (by decide) (by decide)
  roundTrip rfl F.guard id (by
    rw [decodeRaw_1C F.major, dec1C, F.fm]
    simp only
    rw [F.guard, F.conv, fieldAt_of d F.fd (by decide), fieldAt_of a F.fa (by decide)])
theorem RoundTrip.vredor (g : Guard) (c : Bool) (d a : Fin 64) : RoundTrip.Statement (.vredor g c d a) :=
  have F := wordR_fields (M := 0x1C) (g := g) (c := c) (by decide) (fin_lt d (by decide)) (fin_lt a (by decide)) (by decide) (by decide)
  roundTrip rfl F.guard id (by
    rw [decodeRaw_1C F.major, dec1C, F.fm]
    simp only
    rw [F.guard, F.conv, fieldAt_of d F.fd (by decide), fieldAt_of a F.fa (by decide)])
theorem RoundTrip.vredxor (g : Guard) (c : Bool) (d a : Fin 64) : RoundTrip.Statement (.vredxor g c d a) :=
  have F := wordR_fields (M := 0x1C) (g := g) (c := c) (by decide) (fin_lt d (by decide)) (fin_lt a (by decide)) (by decide) (by decide)
  roundTrip rfl F.guard id (by
    rw [decodeRaw_1C F.major, dec1C, F.fm]
    simp only
    rw [F.guard, F.conv, fieldAt_of d F.fd (by decide), fieldAt_of a F.fa (by decide)])
theorem RoundTrip.vscan (g : Guard) (c : Bool) (d a : Fin 64) : RoundTrip.Statement (.vscan g c d a) :=
  have F := wordR_fields (M := 0x1C) (g := g) (c := c) (by decide) (fin_lt d (by decide)) (fin_lt a (by decide)) (by decide) (by decide)
  roundTrip rfl F.guard id (by
    rw [decodeRaw_1C F.major, dec1C, F.fm]
    simp only
    rw [F.guard, F.conv, fieldAt_of d F.fd (by decide), fieldAt_of a F.fa (by decide)])
theorem RoundTrip.vscanmax (g : Guard) (c : Bool) (d a : Fin 64) : RoundTrip.Statement (.vscanmax g c d a) :=
  have F := wordR_fields (M := 0x1C) (g := g) (c := c) (by decide) (fin_lt d (by decide)) (fin_lt a (by decide)) (by decide) (by decide)
  roundTrip rfl F.guard id (by
    rw [decodeRaw_1C F.major, dec1C, F.fm]
    simp only
    rw [F.guard, F.conv, fieldAt_of d F.fd (by decide), fieldAt_of a F.fa (by decide)])
theorem RoundTrip.vsredsum (g : Guard) (c : Bool) (d a : Fin 64) (b : Fin 8) : RoundTrip.Statement (.vsredsum g c d a b) :=
  have F := wordR_fields (M := 0x1D) (g := g) (c := c) (by decide) (fin_lt d (by decide)) (fin_lt a (by decide)) (fin_lt b (by decide)) (by decide)
  roundTrip rfl F.guard (fun h => and_left h) (by
    rw [decodeRaw_1D F.major, dec1D, F.fm]
    simp only
    rw [F.guard, F.conv, fieldAt_of d F.fd (by decide), fieldAt_of a F.fa (by decide), fieldAt_of b F.fb (by decide)])
theorem RoundTrip.vsredmin (g : Guard) (c : Bool) (d a : Fin 64) (b : Fin 8) : RoundTrip.Statement (.vsredmin g c d a b) :=
  have F := wordR_fields (M := 0x1D) (g := g) (c := c) (by decide) (fin_lt d (by decide)) (fin_lt a (by decide)) (fin_lt b (by decide)) (by decide)
  roundTrip rfl F.guard (fun h => and_left h) (by
    rw [decodeRaw_1D F.major, dec1D, F.fm]
    simp only
    rw [F.guard, F.conv, fieldAt_of d F.fd (by decide), fieldAt_of a F.fa (by decide), fieldAt_of b F.fb (by decide)])
theorem RoundTrip.vsredmax (g : Guard) (c : Bool) (d a : Fin 64) (b : Fin 8) : RoundTrip.Statement (.vsredmax g c d a b) :=
  have F := wordR_fields (M := 0x1D) (g := g) (c := c) (by decide) (fin_lt d (by decide)) (fin_lt a (by decide)) (fin_lt b (by decide)) (by decide)
  roundTrip rfl F.guard (fun h => and_left h) (by
    rw [decodeRaw_1D F.major, dec1D, F.fm]
    simp only
    rw [F.guard, F.conv, fieldAt_of d F.fd (by decide), fieldAt_of a F.fa (by decide), fieldAt_of b F.fb (by decide)])
theorem RoundTrip.vsscan (g : Guard) (c : Bool) (d a : Fin 64) (b : Fin 8) : RoundTrip.Statement (.vsscan g c d a b) :=
  have F := wordR_fields (M := 0x1D) (g := g) (c := c) (by decide) (fin_lt d (by decide)) (fin_lt a (by decide)) (fin_lt b (by decide)) (by decide)
  roundTrip rfl F.guard id (by
    rw [decodeRaw_1D F.major, dec1D, F.fm]
    simp only
    rw [F.guard, F.conv, fieldAt_of d F.fd (by decide), fieldAt_of a F.fa (by decide), fieldAt_of b F.fb (by decide)])
theorem RoundTrip.ldB64 (g : Guard) (d a : Fin 32) (i : BitVec 9) : RoundTrip.Statement (.ldB64 g d a i) :=
  have F := wordI_fields (M := 0x20) (g := g) (by decide) (fin_lt d (by decide)) (fin_lt a (by decide)) i.isLt
  roundTrip rfl F.guard id (by
    rw [decodeRaw_20 F.major, dec20]
    rw [F.guard, fieldAt_of d F.fd (by decide), fieldAt_of a F.fa (by decide), immOf_eq i F.fi])
theorem RoundTrip.ldB32 (g : Guard) (d a : Fin 32) (i : BitVec 9) : RoundTrip.Statement (.ldB32 g d a i) :=
  have F := wordI_fields (M := 0x21) (g := g) (by decide) (fin_lt d (by decide)) (fin_lt a (by decide)) i.isLt
  roundTrip rfl F.guard id (by
    rw [decodeRaw_21 F.major, dec21]
    rw [F.guard, fieldAt_of d F.fd (by decide), fieldAt_of a F.fa (by decide), immOf_eq i F.fi])
theorem RoundTrip.stB64 (g : Guard) (d a : Fin 32) (i : BitVec 9) : RoundTrip.Statement (.stB64 g d a i) :=
  have F := wordI_fields (M := 0x22) (g := g) (by decide) (fin_lt d (by decide)) (fin_lt a (by decide)) i.isLt
  roundTrip rfl F.guard id (by
    rw [decodeRaw_22 F.major, dec22]
    rw [F.guard, fieldAt_of d F.fd (by decide), fieldAt_of a F.fa (by decide), immOf_eq i F.fi])
theorem RoundTrip.stB32 (g : Guard) (d a : Fin 32) (i : BitVec 9) : RoundTrip.Statement (.stB32 g d a i) :=
  have F := wordI_fields (M := 0x23) (g := g) (by decide) (fin_lt d (by decide)) (fin_lt a (by decide)) i.isLt
  roundTrip rfl F.guard id (by
    rw [decodeRaw_23 F.major, dec23]
    rw [F.guard, fieldAt_of d F.fd (by decide), fieldAt_of a F.fa (by decide), immOf_eq i F.fi])
theorem RoundTrip.ldB8 (g : Guard) (d a : Fin 32) (i : BitVec 6) : RoundTrip.Statement (.ldB8 g d a i) :=
  have F := wordMS_fields (M := 0x24) (g := g) (by decide) (fin_lt d (by decide)) (fin_lt a (by decide)) (by decide) i.isLt
  roundTrip rfl F.guard id (by
    rw [decodeRaw_24 F.major, dec24, F.ft]
    simp only
    rw [F.guard, fieldAt_of d F.fd (by decide), fieldAt_of a F.fa (by decide), immOf_eq i F.fi])
theorem RoundTrip.ldB16 (g : Guard) (d a : Fin 32) (i : BitVec 6) : RoundTrip.Statement (.ldB16 g d a i) :=
  have F := wordMS_fields (M := 0x24) (g := g) (by decide) (fin_lt d (by decide)) (fin_lt a (by decide)) (by decide) i.isLt
  roundTrip rfl F.guard id (by
    rw [decodeRaw_24 F.major, dec24, F.ft]
    simp only
    rw [F.guard, fieldAt_of d F.fd (by decide), fieldAt_of a F.fa (by decide), immOf_eq i F.fi])
theorem RoundTrip.ldI8 (g : Guard) (d a : Fin 32) (i : BitVec 6) : RoundTrip.Statement (.ldI8 g d a i) :=
  have F := wordMS_fields (M := 0x24) (g := g) (by decide) (fin_lt d (by decide)) (fin_lt a (by decide)) (by decide) i.isLt
  roundTrip rfl F.guard id (by
    rw [decodeRaw_24 F.major, dec24, F.ft]
    simp only
    rw [F.guard, fieldAt_of d F.fd (by decide), fieldAt_of a F.fa (by decide), immOf_eq i F.fi])
theorem RoundTrip.ldI16 (g : Guard) (d a : Fin 32) (i : BitVec 6) : RoundTrip.Statement (.ldI16 g d a i) :=
  have F := wordMS_fields (M := 0x24) (g := g) (by decide) (fin_lt d (by decide)) (fin_lt a (by decide)) (by decide) i.isLt
  roundTrip rfl F.guard id (by
    rw [decodeRaw_24 F.major, dec24, F.ft]
    simp only
    rw [F.guard, fieldAt_of d F.fd (by decide), fieldAt_of a F.fa (by decide), immOf_eq i F.fi])
theorem RoundTrip.ldI32 (g : Guard) (d a : Fin 32) (i : BitVec 6) : RoundTrip.Statement (.ldI32 g d a i) :=
  have F := wordMS_fields (M := 0x24) (g := g) (by decide) (fin_lt d (by decide)) (fin_lt a (by decide)) (by decide) i.isLt
  roundTrip rfl F.guard id (by
    rw [decodeRaw_24 F.major, dec24, F.ft]
    simp only
    rw [F.guard, fieldAt_of d F.fd (by decide), fieldAt_of a F.fa (by decide), immOf_eq i F.fi])
theorem RoundTrip.stB8 (g : Guard) (d a : Fin 32) (i : BitVec 6) : RoundTrip.Statement (.stB8 g d a i) :=
  have F := wordMS_fields (M := 0x24) (g := g) (by decide) (fin_lt d (by decide)) (fin_lt a (by decide)) (by decide) i.isLt
  roundTrip rfl F.guard id (by
    rw [decodeRaw_24 F.major, dec24, F.ft]
    simp only
    rw [F.guard, fieldAt_of d F.fd (by decide), fieldAt_of a F.fa (by decide), immOf_eq i F.fi])
theorem RoundTrip.stB16 (g : Guard) (d a : Fin 32) (i : BitVec 6) : RoundTrip.Statement (.stB16 g d a i) :=
  have F := wordMS_fields (M := 0x24) (g := g) (by decide) (fin_lt d (by decide)) (fin_lt a (by decide)) (by decide) i.isLt
  roundTrip rfl F.guard id (by
    rw [decodeRaw_24 F.major, dec24, F.ft]
    simp only
    rw [F.guard, fieldAt_of d F.fd (by decide), fieldAt_of a F.fa (by decide), immOf_eq i F.fi])
theorem RoundTrip.vld (g : Guard) (c : Bool) (d : Fin 64) (a : Fin 32) (sc : Fin 8) (o : Fin 4) : RoundTrip.Statement (.vld g c d a sc o) :=
  have F := wordRO_fields (M := 0x25) (g := g) (c := c) (by decide) (fin_lt d (by decide)) (fin_lt a (by decide)) (fin_lt sc (by decide)) (fin_lt o (by decide)) (by decide)
  roundTrip rfl F.guard (fun h => and_left h) (by
    rw [decodeRaw_25 F.major, dec25, F.fm]
    simp only
    rw [F.guard, F.conv, fieldAt_of d F.fd (by decide), fieldAt_of a F.fa (by decide), fieldAt_of sc F.fsc (by decide), fieldAt_of o F.fo (by decide)])
theorem RoundTrip.vlds (g : Guard) (c : Bool) (d : Fin 64) (a : Fin 32) (sc : Fin 8) (o : Fin 4) : RoundTrip.Statement (.vlds g c d a sc o) :=
  have F := wordRO_fields (M := 0x25) (g := g) (c := c) (by decide) (fin_lt d (by decide)) (fin_lt a (by decide)) (fin_lt sc (by decide)) (fin_lt o (by decide)) (by decide)
  roundTrip rfl F.guard (fun h => and_left h) (by
    rw [decodeRaw_25 F.major, dec25, F.fm]
    simp only
    rw [F.guard, F.conv, fieldAt_of d F.fd (by decide), fieldAt_of a F.fa (by decide), fieldAt_of sc F.fsc (by decide), fieldAt_of o F.fo (by decide)])
theorem RoundTrip.vldx (g : Guard) (c : Bool) (d : Fin 64) (a : Fin 32) (b : Fin 64) : RoundTrip.Statement (.vldx g c d a b) :=
  have F := wordR_fields (M := 0x25) (g := g) (c := c) (by decide) (fin_lt d (by decide)) (fin_lt a (by decide)) (fin_lt b (by decide)) (by decide)
  roundTrip rfl F.guard id (by
    rw [decodeRaw_25 F.major, dec25, F.fm]
    simp only
    rw [F.guard, F.conv, fieldAt_of d F.fd (by decide), fieldAt_of a F.fa (by decide), fieldAt_of b F.fb (by decide)])
theorem RoundTrip.vldt (g : Guard) (c : Bool) (d : Fin 64) (a : Fin 32) (sc : Fin 8) (o : Fin 4) : RoundTrip.Statement (.vldt g c d a sc o) :=
  have F := wordRO_fields (M := 0x25) (g := g) (c := c) (by decide) (fin_lt d (by decide)) (fin_lt a (by decide)) (fin_lt sc (by decide)) (fin_lt o (by decide)) (by decide)
  roundTrip rfl F.guard (fun h => and_left h) (by
    rw [decodeRaw_25 F.major, dec25, F.fm]
    simp only
    rw [F.guard, F.conv, fieldAt_of d F.fd (by decide), fieldAt_of a F.fa (by decide), fieldAt_of sc F.fsc (by decide), fieldAt_of o F.fo (by decide)])
theorem RoundTrip.vldn (g : Guard) (c : Bool) (d a : Fin 64) : RoundTrip.Statement (.vldn g c d a) :=
  have F := wordR_fields (M := 0x25) (g := g) (c := c) (by decide) (fin_lt d (by decide)) (fin_lt a (by decide)) (by decide) (by decide)
  roundTrip rfl F.guard id (by
    rw [decodeRaw_25 F.major, dec25, F.fm]
    simp only
    rw [F.guard, F.conv, fieldAt_of d F.fd (by decide), fieldAt_of a F.fa (by decide)])
theorem RoundTrip.vldWp (g : Guard) (c : Bool) (d : Fin 64) (a : Fin 32) (h : Fin 8) : RoundTrip.Statement (.vldWp g c d a h) :=
  have F := wordR_fields (M := 0x25) (g := g) (c := c) (by decide) (fin_lt d (by decide)) (fin_lt a (by decide)) (fin_lt h (by decide)) (by decide)
  roundTrip rfl F.guard id (by
    rw [decodeRaw_25 F.major, dec25, F.fm]
    simp only
    rw [F.guard, F.conv, fieldAt_of d F.fd (by decide), fieldAt_of a F.fa (by decide), fieldAt_of h F.fb (by decide)])
theorem RoundTrip.vst (g : Guard) (c : Bool) (d : Fin 64) (a : Fin 32) (sc : Fin 8) (o : Fin 4) : RoundTrip.Statement (.vst g c d a sc o) :=
  have F := wordRO_fields (M := 0x26) (g := g) (c := c) (by decide) (fin_lt d (by decide)) (fin_lt a (by decide)) (fin_lt sc (by decide)) (fin_lt o (by decide)) (by decide)
  roundTrip rfl F.guard (fun h => and_left h) (by
    rw [decodeRaw_26 F.major, dec26, F.fm]
    simp only
    rw [F.guard, F.conv, fieldAt_of d F.fd (by decide), fieldAt_of a F.fa (by decide), fieldAt_of sc F.fsc (by decide), fieldAt_of o F.fo (by decide)])
theorem RoundTrip.vsts (g : Guard) (c : Bool) (d : Fin 64) (a : Fin 32) (sc : Fin 8) (o : Fin 4) : RoundTrip.Statement (.vsts g c d a sc o) :=
  have F := wordRO_fields (M := 0x26) (g := g) (c := c) (by decide) (fin_lt d (by decide)) (fin_lt a (by decide)) (fin_lt sc (by decide)) (fin_lt o (by decide)) (by decide)
  roundTrip rfl F.guard (fun h => and_left h) (by
    rw [decodeRaw_26 F.major, dec26, F.fm]
    simp only
    rw [F.guard, F.conv, fieldAt_of d F.fd (by decide), fieldAt_of a F.fa (by decide), fieldAt_of sc F.fsc (by decide), fieldAt_of o F.fo (by decide)])
theorem RoundTrip.vstx (g : Guard) (c : Bool) (d : Fin 64) (a : Fin 32) (b : Fin 64) : RoundTrip.Statement (.vstx g c d a b) :=
  have F := wordR_fields (M := 0x26) (g := g) (c := c) (by decide) (fin_lt d (by decide)) (fin_lt a (by decide)) (fin_lt b (by decide)) (by decide)
  roundTrip rfl F.guard id (by
    rw [decodeRaw_26 F.major, dec26, F.fm]
    simp only
    rw [F.guard, F.conv, fieldAt_of d F.fd (by decide), fieldAt_of a F.fa (by decide), fieldAt_of b F.fb (by decide)])
theorem RoundTrip.vstt (g : Guard) (c : Bool) (d : Fin 64) (a : Fin 32) (sc : Fin 8) (o : Fin 4) : RoundTrip.Statement (.vstt g c d a sc o) :=
  have F := wordRO_fields (M := 0x26) (g := g) (c := c) (by decide) (fin_lt d (by decide)) (fin_lt a (by decide)) (fin_lt sc (by decide)) (fin_lt o (by decide)) (by decide)
  roundTrip rfl F.guard (fun h => and_left h) (by
    rw [decodeRaw_26 F.major, dec26, F.fm]
    simp only
    rw [F.guard, F.conv, fieldAt_of d F.fd (by decide), fieldAt_of a F.fa (by decide), fieldAt_of sc F.fsc (by decide), fieldAt_of o F.fo (by decide)])
theorem RoundTrip.vstn (g : Guard) (c : Bool) (d a : Fin 64) : RoundTrip.Statement (.vstn g c d a) :=
  have F := wordR_fields (M := 0x26) (g := g) (c := c) (by decide) (fin_lt d (by decide)) (fin_lt a (by decide)) (by decide) (by decide)
  roundTrip rfl F.guard id (by
    rw [decodeRaw_26 F.major, dec26, F.fm]
    simp only
    rw [F.guard, F.conv, fieldAt_of d F.fd (by decide), fieldAt_of a F.fa (by decide)])
theorem RoundTrip.ldWp (g : Guard) (d a : Fin 32) (h : Fin 8) (w : Fin 4) (i : BitVec 4) : RoundTrip.Statement (.ldWp g d a h w i) :=
  have F := wordMW_fields (M := 0x27) (g := g) (by decide) (fin_lt d (by decide)) (fin_lt a (by decide)) (fin_lt h (by decide)) (fin_lt w (by decide)) i.isLt
  roundTrip rfl F.guard id (by
    rw [decodeRaw_27 F.major, dec27]
    rw [F.guard, fieldAt_of d F.fd (by decide), fieldAt_of a F.fa (by decide), fieldAt_of h F.fh (by decide), fieldAt_of w F.fw (by decide), immOf_eq i F.fi])
theorem RoundTrip.ldAcq (g : Guard) (d a : Fin 32) (sc : Fin 8) (w : Fin 4) (i : BitVec 2) : RoundTrip.Statement (.ldAcq g d a sc w i) :=
  have F := wordMO_fields (M := 0x28) (g := g) (by decide) (fin_lt d (by decide)) (fin_lt a (by decide)) (fin_lt sc (by decide)) (by decide) (fin_lt w (by decide)) i.isLt
  roundTrip rfl F.guard id (by
    rw [decodeRaw_28 F.major, dec28]
    rw [if_neg (by rw [F.fo]; decide), F.guard, fieldAt_of d F.fd (by decide), fieldAt_of a F.fa (by decide), fieldAt_of sc F.fsc (by decide), fieldAt_of w F.fw (by decide), immOf_eq i F.fi])
theorem RoundTrip.stRel (g : Guard) (d a : Fin 32) (sc : Fin 8) (w : Fin 4) (i : BitVec 2) : RoundTrip.Statement (.stRel g d a sc w i) :=
  have F := wordMO_fields (M := 0x28) (g := g) (by decide) (fin_lt d (by decide)) (fin_lt a (by decide)) (fin_lt sc (by decide)) (by decide) (fin_lt w (by decide)) i.isLt
  roundTrip rfl F.guard id (by
    rw [decodeRaw_28 F.major, dec28]
    rw [if_pos F.fo, F.guard, fieldAt_of d F.fd (by decide), fieldAt_of a F.fa (by decide), fieldAt_of sc F.fsc (by decide), fieldAt_of w F.fw (by decide), immOf_eq i F.fi])
theorem RoundTrip.atomAdd (g : Guard) (d : Fin 16) (a : Fin 32) (sc : Fin 8) (o : Fin 4) (w : Bool) : RoundTrip.Statement (.atomAdd g d a sc o w) :=
  have F := wordA_fields (M := 0x29) (g := g) (by decide) (fin_lt d (by decide)) (fin_lt a (by decide)) (fin_lt sc (by decide)) (fin_lt o (by decide)) (bit01_lt w) (by decide)
  roundTrip rfl F.guard (fun h => and_left h) (by
    rw [decodeRaw_29 F.major, dec29, F.fop]
    simp only
    rw [F.guard, fieldAt_of d F.fd (by decide), fieldAt_of a F.fa (by decide), fieldAt_of sc F.fsc (by decide), fieldAt_of o F.fo (by decide), bitAt_eq F.fw])
theorem RoundTrip.atomMin (g : Guard) (d : Fin 16) (a : Fin 32) (sc : Fin 8) (o : Fin 4) (w : Bool) : RoundTrip.Statement (.atomMin g d a sc o w) :=
  have F := wordA_fields (M := 0x29) (g := g) (by decide) (fin_lt d (by decide)) (fin_lt a (by decide)) (fin_lt sc (by decide)) (fin_lt o (by decide)) (bit01_lt w) (by decide)
  roundTrip rfl F.guard (fun h => and_left h) (by
    rw [decodeRaw_29 F.major, dec29, F.fop]
    simp only
    rw [F.guard, fieldAt_of d F.fd (by decide), fieldAt_of a F.fa (by decide), fieldAt_of sc F.fsc (by decide), fieldAt_of o F.fo (by decide), bitAt_eq F.fw])
theorem RoundTrip.atomMax (g : Guard) (d : Fin 16) (a : Fin 32) (sc : Fin 8) (o : Fin 4) (w : Bool) : RoundTrip.Statement (.atomMax g d a sc o w) :=
  have F := wordA_fields (M := 0x29) (g := g) (by decide) (fin_lt d (by decide)) (fin_lt a (by decide)) (fin_lt sc (by decide)) (fin_lt o (by decide)) (bit01_lt w) (by decide)
  roundTrip rfl F.guard (fun h => and_left h) (by
    rw [decodeRaw_29 F.major, dec29, F.fop]
    simp only
    rw [F.guard, fieldAt_of d F.fd (by decide), fieldAt_of a F.fa (by decide), fieldAt_of sc F.fsc (by decide), fieldAt_of o F.fo (by decide), bitAt_eq F.fw])
theorem RoundTrip.atomMinu (g : Guard) (d : Fin 16) (a : Fin 32) (sc : Fin 8) (o : Fin 4) (w : Bool) : RoundTrip.Statement (.atomMinu g d a sc o w) :=
  have F := wordA_fields (M := 0x29) (g := g) (by decide) (fin_lt d (by decide)) (fin_lt a (by decide)) (fin_lt sc (by decide)) (fin_lt o (by decide)) (bit01_lt w) (by decide)
  roundTrip rfl F.guard (fun h => and_left h) (by
    rw [decodeRaw_29 F.major, dec29, F.fop]
    simp only
    rw [F.guard, fieldAt_of d F.fd (by decide), fieldAt_of a F.fa (by decide), fieldAt_of sc F.fsc (by decide), fieldAt_of o F.fo (by decide), bitAt_eq F.fw])
theorem RoundTrip.atomMaxu (g : Guard) (d : Fin 16) (a : Fin 32) (sc : Fin 8) (o : Fin 4) (w : Bool) : RoundTrip.Statement (.atomMaxu g d a sc o w) :=
  have F := wordA_fields (M := 0x29) (g := g) (by decide) (fin_lt d (by decide)) (fin_lt a (by decide)) (fin_lt sc (by decide)) (fin_lt o (by decide)) (bit01_lt w) (by decide)
  roundTrip rfl F.guard (fun h => and_left h) (by
    rw [decodeRaw_29 F.major, dec29, F.fop]
    simp only
    rw [F.guard, fieldAt_of d F.fd (by decide), fieldAt_of a F.fa (by decide), fieldAt_of sc F.fsc (by decide), fieldAt_of o F.fo (by decide), bitAt_eq F.fw])
theorem RoundTrip.atomAnd (g : Guard) (d : Fin 16) (a : Fin 32) (sc : Fin 8) (o : Fin 4) (w : Bool) : RoundTrip.Statement (.atomAnd g d a sc o w) :=
  have F := wordA_fields (M := 0x29) (g := g) (by decide) (fin_lt d (by decide)) (fin_lt a (by decide)) (fin_lt sc (by decide)) (fin_lt o (by decide)) (bit01_lt w) (by decide)
  roundTrip rfl F.guard (fun h => and_left h) (by
    rw [decodeRaw_29 F.major, dec29, F.fop]
    simp only
    rw [F.guard, fieldAt_of d F.fd (by decide), fieldAt_of a F.fa (by decide), fieldAt_of sc F.fsc (by decide), fieldAt_of o F.fo (by decide), bitAt_eq F.fw])
theorem RoundTrip.atomOr (g : Guard) (d : Fin 16) (a : Fin 32) (sc : Fin 8) (o : Fin 4) (w : Bool) : RoundTrip.Statement (.atomOr g d a sc o w) :=
  have F := wordA_fields (M := 0x29) (g := g) (by decide) (fin_lt d (by decide)) (fin_lt a (by decide)) (fin_lt sc (by decide)) (fin_lt o (by decide)) (bit01_lt w) (by decide)
  roundTrip rfl F.guard (fun h => and_left h) (by
    rw [decodeRaw_29 F.major, dec29, F.fop]
    simp only
    rw [F.guard, fieldAt_of d F.fd (by decide), fieldAt_of a F.fa (by decide), fieldAt_of sc F.fsc (by decide), fieldAt_of o F.fo (by decide), bitAt_eq F.fw])
theorem RoundTrip.atomXor (g : Guard) (d : Fin 16) (a : Fin 32) (sc : Fin 8) (o : Fin 4) (w : Bool) : RoundTrip.Statement (.atomXor g d a sc o w) :=
  have F := wordA_fields (M := 0x29) (g := g) (by decide) (fin_lt d (by decide)) (fin_lt a (by decide)) (fin_lt sc (by decide)) (fin_lt o (by decide)) (bit01_lt w) (by decide)
  roundTrip rfl F.guard (fun h => and_left h) (by
    rw [decodeRaw_29 F.major, dec29, F.fop]
    simp only
    rw [F.guard, fieldAt_of d F.fd (by decide), fieldAt_of a F.fa (by decide), fieldAt_of sc F.fsc (by decide), fieldAt_of o F.fo (by decide), bitAt_eq F.fw])
theorem RoundTrip.atomSwap (g : Guard) (d : Fin 16) (a : Fin 32) (sc : Fin 8) (o : Fin 4) (w : Bool) : RoundTrip.Statement (.atomSwap g d a sc o w) :=
  have F := wordA_fields (M := 0x2A) (g := g) (by decide) (fin_lt d (by decide)) (fin_lt a (by decide)) (fin_lt sc (by decide)) (fin_lt o (by decide)) (bit01_lt w) (by decide)
  roundTrip rfl F.guard (fun h => and_left h) (by
    rw [decodeRaw_2A F.major, dec2A, F.fop]
    simp only
    rw [F.guard, fieldAt_of d F.fd (by decide), fieldAt_of a F.fa (by decide), fieldAt_of sc F.fsc (by decide), fieldAt_of o F.fo (by decide), bitAt_eq F.fw])
theorem RoundTrip.atomCas (g : Guard) (d : Fin 16) (a : Fin 32) (sc : Fin 8) (o : Fin 4) (w : Bool) : RoundTrip.Statement (.atomCas g d a sc o w) :=
  have F := wordA_fields (M := 0x2A) (g := g) (by decide) (fin_lt d (by decide)) (fin_lt a (by decide)) (fin_lt sc (by decide)) (fin_lt o (by decide)) (bit01_lt w) (by decide)
  roundTrip rfl F.guard (fun h => and_left h) (by
    rw [decodeRaw_2A F.major, dec2A, F.fop]
    simp only
    rw [F.guard, fieldAt_of d F.fd (by decide), fieldAt_of a F.fa (by decide), fieldAt_of sc F.fsc (by decide), fieldAt_of o F.fo (by decide), bitAt_eq F.fw])
theorem RoundTrip.vatomAdd (g : Guard) (d a : Fin 64) (sc : Fin 8) (o : Fin 4) : RoundTrip.Statement (.vatomAdd g d a sc o) :=
  have F := wordVA_fields (M := 0x2B) (g := g) (by decide) (fin_lt d (by decide)) (fin_lt a (by decide)) (fin_lt sc (by decide)) (fin_lt o (by decide)) (by decide)
  roundTrip rfl F.guard (fun h => and_left h) (by
    rw [decodeRaw_2B F.major, dec2B, F.fop]
    simp only
    rw [F.guard, fieldAt_of d F.fd (by decide), fieldAt_of a F.fa (by decide), fieldAt_of sc F.fsc (by decide), fieldAt_of o F.fo (by decide)])
theorem RoundTrip.vatomMin (g : Guard) (d a : Fin 64) (sc : Fin 8) (o : Fin 4) : RoundTrip.Statement (.vatomMin g d a sc o) :=
  have F := wordVA_fields (M := 0x2B) (g := g) (by decide) (fin_lt d (by decide)) (fin_lt a (by decide)) (fin_lt sc (by decide)) (fin_lt o (by decide)) (by decide)
  roundTrip rfl F.guard (fun h => and_left h) (by
    rw [decodeRaw_2B F.major, dec2B, F.fop]
    simp only
    rw [F.guard, fieldAt_of d F.fd (by decide), fieldAt_of a F.fa (by decide), fieldAt_of sc F.fsc (by decide), fieldAt_of o F.fo (by decide)])
theorem RoundTrip.vatomMax (g : Guard) (d a : Fin 64) (sc : Fin 8) (o : Fin 4) : RoundTrip.Statement (.vatomMax g d a sc o) :=
  have F := wordVA_fields (M := 0x2B) (g := g) (by decide) (fin_lt d (by decide)) (fin_lt a (by decide)) (fin_lt sc (by decide)) (fin_lt o (by decide)) (by decide)
  roundTrip rfl F.guard (fun h => and_left h) (by
    rw [decodeRaw_2B F.major, dec2B, F.fop]
    simp only
    rw [F.guard, fieldAt_of d F.fd (by decide), fieldAt_of a F.fa (by decide), fieldAt_of sc F.fsc (by decide), fieldAt_of o F.fo (by decide)])
theorem RoundTrip.vatomAnd (g : Guard) (d a : Fin 64) (sc : Fin 8) (o : Fin 4) : RoundTrip.Statement (.vatomAnd g d a sc o) :=
  have F := wordVA_fields (M := 0x2B) (g := g) (by decide) (fin_lt d (by decide)) (fin_lt a (by decide)) (fin_lt sc (by decide)) (fin_lt o (by decide)) (by decide)
  roundTrip rfl F.guard (fun h => and_left h) (by
    rw [decodeRaw_2B F.major, dec2B, F.fop]
    simp only
    rw [F.guard, fieldAt_of d F.fd (by decide), fieldAt_of a F.fa (by decide), fieldAt_of sc F.fsc (by decide), fieldAt_of o F.fo (by decide)])
theorem RoundTrip.vatomOr (g : Guard) (d a : Fin 64) (sc : Fin 8) (o : Fin 4) : RoundTrip.Statement (.vatomOr g d a sc o) :=
  have F := wordVA_fields (M := 0x2B) (g := g) (by decide) (fin_lt d (by decide)) (fin_lt a (by decide)) (fin_lt sc (by decide)) (fin_lt o (by decide)) (by decide)
  roundTrip rfl F.guard (fun h => and_left h) (by
    rw [decodeRaw_2B F.major, dec2B, F.fop]
    simp only
    rw [F.guard, fieldAt_of d F.fd (by decide), fieldAt_of a F.fa (by decide), fieldAt_of sc F.fsc (by decide), fieldAt_of o F.fo (by decide)])
theorem RoundTrip.vatomXor (g : Guard) (d a : Fin 64) (sc : Fin 8) (o : Fin 4) : RoundTrip.Statement (.vatomXor g d a sc o) :=
  have F := wordVA_fields (M := 0x2B) (g := g) (by decide) (fin_lt d (by decide)) (fin_lt a (by decide)) (fin_lt sc (by decide)) (fin_lt o (by decide)) (by decide)
  roundTrip rfl F.guard (fun h => and_left h) (by
    rw [decodeRaw_2B F.major, dec2B, F.fop]
    simp only
    rw [F.guard, fieldAt_of d F.fd (by decide), fieldAt_of a F.fa (by decide), fieldAt_of sc F.fsc (by decide), fieldAt_of o F.fo (by decide)])
theorem RoundTrip.vatomSwap (g : Guard) (d a : Fin 64) (sc : Fin 8) (o : Fin 4) : RoundTrip.Statement (.vatomSwap g d a sc o) :=
  have F := wordVA_fields (M := 0x2B) (g := g) (by decide) (fin_lt d (by decide)) (fin_lt a (by decide)) (fin_lt sc (by decide)) (fin_lt o (by decide)) (by decide)
  roundTrip rfl F.guard (fun h => and_left h) (by
    rw [decodeRaw_2B F.major, dec2B, F.fop]
    simp only
    rw [F.guard, fieldAt_of d F.fd (by decide), fieldAt_of a F.fa (by decide), fieldAt_of sc F.fsc (by decide), fieldAt_of o F.fo (by decide)])
theorem RoundTrip.vatomCas (g : Guard) (d : Fin 32) (a : Fin 64) (sc : Fin 8) (o : Fin 4) : RoundTrip.Statement (.vatomCas g d a sc o) :=
  have h0 := oddOf_eq d.val
  have F := wordVA_fields (M := 0x2B) (g := g) (by decide) (by omega) (fin_lt a (by decide)) (fin_lt sc (by decide)) (fin_lt o (by decide)) (by decide)
  roundTrip rfl F.guard (fun h => and_left h) (by
    rw [decodeRaw_2B F.major, dec2B, F.fop]
    simp only
    rw [F.guard, fieldAt_eq d (by have := F.fd; omega), fieldAt_of a F.fa (by decide), fieldAt_of sc F.fsc (by decide), fieldAt_of o F.fo (by decide)])
theorem RoundTrip.vwait (g : Guard) (k a b : Fin 64) : RoundTrip.Statement (.vwait g k a b) :=
  have F := wordR_fields (M := 0x2C) (g := g) (c := false) (by decide) (fin_lt k (by decide)) (fin_lt a (by decide)) (fin_lt b (by decide)) (by decide)
  roundTrip rfl F.guard (fun h => and_left h) (by
    rw [decodeRaw_2C F.major, dec2C, F.fm]
    simp only
    rw [F.guard, fieldAt_of k F.fd (by decide), fieldAt_of a F.fa (by decide), fieldAt_of b F.fb (by decide)])
theorem RoundTrip.barv (g : Guard) (d a : Fin 32) : RoundTrip.Statement (.barv g d a) :=
  have F := wordR_fields (M := 0x2C) (g := g) (c := false) (by decide) (fin_lt d (by decide)) (fin_lt a (by decide)) (by decide) (by decide)
  roundTrip rfl F.guard id (by
    rw [decodeRaw_2C F.major, dec2C, F.fm]
    simp only
    rw [F.guard, fieldAt_of d F.fd (by decide), fieldAt_of a F.fa (by decide)])
theorem RoundTrip.bnew (g : Guard) (d a : Fin 32) : RoundTrip.Statement (.bnew g d a) :=
  have F := wordR_fields (M := 0x2D) (g := g) (c := false) (by decide) (fin_lt d (by decide)) (fin_lt a (by decide)) (by decide) (by decide)
  roundTrip rfl F.guard id (by
    rw [decodeRaw_2D F.major, dec2D, F.fm]
    simp only
    rw [F.guard, fieldAt_of d F.fd (by decide), fieldAt_of a F.fa (by decide)])
theorem RoundTrip.bfree (g : Guard) (d a : Fin 32) : RoundTrip.Statement (.bfree g d a) :=
  have F := wordR_fields (M := 0x2D) (g := g) (c := false) (by decide) (fin_lt d (by decide)) (fin_lt a (by decide)) (by decide) (by decide)
  roundTrip rfl F.guard id (by
    rw [decodeRaw_2D F.major, dec2D, F.fm]
    simp only
    rw [F.guard, fieldAt_of d F.fd (by decide), fieldAt_of a F.fa (by decide)])
theorem RoundTrip.bsig (g : Guard) (a b : Fin 32) : RoundTrip.Statement (.bsig g a b) :=
  have F := wordR_fields (M := 0x2D) (g := g) (c := false) (by decide) (by decide) (fin_lt a (by decide)) (fin_lt b (by decide)) (by decide)
  roundTrip rfl F.guard id (by
    rw [decodeRaw_2D F.major, dec2D, F.fm]
    simp only
    rw [if_neg (by rw [F.fd]; decide), F.guard, fieldAt_of a F.fa (by decide), fieldAt_of b F.fb (by decide)])
theorem RoundTrip.bsigOneOperand (g : Guard) (a : Fin 32) : RoundTrip.Statement (.bsigOneOperand g a) :=
  have F := wordR_fields (M := 0x2D) (g := g) (c := false) (by decide) (by decide) (fin_lt a (by decide)) (by decide) (by decide)
  roundTrip rfl F.guard id (by
    rw [decodeRaw_2D F.major, dec2D, F.fm]
    simp only
    rw [if_pos F.fd, F.guard, fieldAt_of a F.fa (by decide)])
theorem RoundTrip.bsigErr (g : Guard) (a b : Fin 32) : RoundTrip.Statement (.bsigErr g a b) :=
  have F := wordR_fields (M := 0x2D) (g := g) (c := false) (by decide) (by decide) (fin_lt a (by decide)) (fin_lt b (by decide)) (by decide)
  roundTrip rfl F.guard id (by
    rw [decodeRaw_2D F.major, dec2D, F.fm]
    simp only
    rw [F.guard, fieldAt_of a F.fa (by decide), fieldAt_of b F.fb (by decide)])
theorem RoundTrip.bqry (g : Guard) (d a : Fin 32) : RoundTrip.Statement (.bqry g d a) :=
  have F := wordR_fields (M := 0x2D) (g := g) (c := false) (by decide) (fin_lt d (by decide)) (fin_lt a (by decide)) (by decide) (by decide)
  roundTrip rfl F.guard id (by
    rw [decodeRaw_2D F.major, dec2D, F.fm]
    simp only
    rw [F.guard, fieldAt_of d F.fd (by decide), fieldAt_of a F.fa (by decide)])
theorem RoundTrip.barm (g : Guard) (a b : Fin 32) : RoundTrip.Statement (.barm g a b) :=
  have F := wordR_fields (M := 0x2D) (g := g) (c := false) (by decide) (by decide) (fin_lt a (by decide)) (fin_lt b (by decide)) (by decide)
  roundTrip rfl F.guard id (by
    rw [decodeRaw_2D F.major, dec2D, F.fm]
    simp only
    rw [F.guard, fieldAt_of a F.fa (by decide), fieldAt_of b F.fb (by decide)])
theorem RoundTrip.barmRel (g : Guard) (a b : Fin 32) : RoundTrip.Statement (.barmRel g a b) :=
  have F := wordR_fields (M := 0x2D) (g := g) (c := false) (by decide) (by decide) (fin_lt a (by decide)) (fin_lt b (by decide)) (by decide)
  roundTrip rfl F.guard id (by
    rw [decodeRaw_2D F.major, dec2D, F.fm]
    simp only
    rw [F.guard, fieldAt_of a F.fa (by decide), fieldAt_of b F.fb (by decide)])
theorem RoundTrip.rcopy (g : Guard) (h : Fin 8) (a b : Fin 16) : RoundTrip.Statement (.rcopy g h a b) :=
  have h0 := oddOf_eq a.val
  have h1 := oddOf_eq b.val
  have F := wordR_fields (M := 0x2E) (g := g) (c := false) (by decide) (fin_lt h (by decide)) (by omega) (by omega) (by decide)
  roundTrip rfl F.guard id (by
    rw [decodeRaw_2E F.major, dec2E, F.fm]
    simp only
    rw [F.guard, fieldAt_of h F.fd (by decide), fieldAt_eq a (by have := F.fa; omega), fieldAt_eq b (by have := F.fb; omega)])
theorem RoundTrip.rcopyShape (g : Guard) (h : Fin 8) (a : Fin 64) (b : Fin 32) : RoundTrip.Statement (.rcopyShape g h a b) :=
  have F := wordR_fields (M := 0x2E) (g := g) (c := false) (by decide) (fin_lt h (by decide)) (fin_lt a (by decide)) (fin_lt b (by decide)) (by decide)
  roundTrip rfl F.guard id (by
    rw [decodeRaw_2E F.major, dec2E, F.fm]
    simp only
    rw [F.guard, fieldAt_of h F.fd (by decide), fieldAt_of a F.fa (by decide), fieldAt_of b F.fb (by decide)])
theorem RoundTrip.rwp (g : Guard) (d : Fin 32) (h : Fin 8) : RoundTrip.Statement (.rwp g d h) :=
  have F := wordR_fields (M := 0x2E) (g := g) (c := false) (by decide) (fin_lt d (by decide)) (fin_lt h (by decide)) (by decide) (by decide)
  roundTrip rfl F.guard id (by
    rw [decodeRaw_2E F.major, dec2E, F.fm]
    simp only
    rw [F.guard, fieldAt_of d F.fd (by decide), fieldAt_of h F.fa (by decide)])
theorem RoundTrip.rcancel (g : Guard) (h : Fin 8) : RoundTrip.Statement (.rcancel g h) :=
  have F := wordR_fields (M := 0x2E) (g := g) (c := false) (by decide) (fin_lt h (by decide)) (by decide) (by decide) (by decide)
  roundTrip rfl F.guard id (by
    rw [decodeRaw_2E F.major, dec2E, F.fm]
    simp only
    rw [F.guard, fieldAt_of h F.fd (by decide)])
theorem RoundTrip.rqry (g : Guard) (d : Fin 32) (h : Fin 8) : RoundTrip.Statement (.rqry g d h) :=
  have F := wordR_fields (M := 0x2E) (g := g) (c := false) (by decide) (fin_lt d (by decide)) (fin_lt h (by decide)) (by decide) (by decide)
  roundTrip rfl F.guard id (by
    rw [decodeRaw_2E F.major, dec2E, F.fm]
    simp only
    rw [F.guard, fieldAt_of d F.fd (by decide), fieldAt_of h F.fa (by decide)])
theorem RoundTrip.amsend (g : Guard) (a : Fin 32) : RoundTrip.Statement (.amsend g a) :=
  have F := wordR_fields (M := 0x2E) (g := g) (c := false) (by decide) (by decide) (fin_lt a (by decide)) (by decide) (by decide)
  roundTrip rfl F.guard id (by
    rw [decodeRaw_2E F.major, dec2E, F.fm]
    simp only
    rw [F.guard, fieldAt_of a F.fa (by decide)])
theorem RoundTrip.amreply (g : Guard) (a : Fin 32) : RoundTrip.Statement (.amreply g a) :=
  have F := wordR_fields (M := 0x2E) (g := g) (c := false) (by decide) (by decide) (fin_lt a (by decide)) (by decide) (by decide)
  roundTrip rfl F.guard id (by
    rw [decodeRaw_2E F.major, dec2E, F.fm]
    simp only
    rw [F.guard, fieldAt_of a F.fa (by decide)])
theorem RoundTrip.amreg (g : Guard) (a b : Fin 32) : RoundTrip.Statement (.amreg g a b) :=
  have F := wordR_fields (M := 0x2E) (g := g) (c := false) (by decide) (by decide) (fin_lt a (by decide)) (fin_lt b (by decide)) (by decide)
  roundTrip rfl F.guard id (by
    rw [decodeRaw_2E F.major, dec2E, F.fm]
    simp only
    rw [F.guard, fieldAt_of a F.fa (by decide), fieldAt_of b F.fb (by decide)])
theorem RoundTrip.swalloc (g : Guard) (d a b : Fin 32) : RoundTrip.Statement (.swalloc g d a b) :=
  have F := wordR_fields (M := 0x2F) (g := g) (c := false) (by decide) (fin_lt d (by decide)) (fin_lt a (by decide)) (fin_lt b (by decide)) (by decide)
  roundTrip rfl F.guard id (by
    rw [decodeRaw_2F F.major, dec2F, F.fm]
    simp only
    rw [F.guard, fieldAt_of d F.fd (by decide), fieldAt_of a F.fa (by decide), fieldAt_of b F.fb (by decide)])
theorem RoundTrip.swfree (g : Guard) (d a : Fin 32) : RoundTrip.Statement (.swfree g d a) :=
  have F := wordR_fields (M := 0x2F) (g := g) (c := false) (by decide) (fin_lt d (by decide)) (fin_lt a (by decide)) (by decide) (by decide)
  roundTrip rfl F.guard id (by
    rw [decodeRaw_2F F.major, dec2F, F.fm]
    simp only
    rw [F.guard, fieldAt_of d F.fd (by decide), fieldAt_of a F.fa (by decide)])
theorem RoundTrip.swquota (g : Guard) (d a : Fin 32) : RoundTrip.Statement (.swquota g d a) :=
  have F := wordR_fields (M := 0x2F) (g := g) (c := false) (by decide) (fin_lt d (by decide)) (fin_lt a (by decide)) (by decide) (by decide)
  roundTrip rfl F.guard id (by
    rw [decodeRaw_2F F.major, dec2F, F.fm]
    simp only
    rw [F.guard, fieldAt_of d F.fd (by decide), fieldAt_of a F.fa (by decide)])
theorem RoundTrip.mmk (g : Guard) (c : Bool) (e : Fin 4) (a b : Fin 64) (t : Fin 16) : RoundTrip.Statement (.mmk g c e a b t) :=
  have F := wordX_fields (M := 0x30) (g := g) (c := c) (by decide) (fin_lt e (by decide)) (fin_lt a (by decide)) (fin_lt b (by decide)) (fin_lt t (by decide)) (by decide)
  roundTrip rfl F.guard (fun h => and_left h) (by
    rw [decodeRaw_30 F.major, dec30, F.fk]
    simp only
    rw [F.guard, F.conv, fieldAt_of e F.fe (by decide), fieldAt_of a F.fa (by decide), fieldAt_of b F.fb (by decide), fieldAt_of t F.ft (by decide)])
theorem RoundTrip.mmkScratchpad (g : Guard) (c : Bool) (e : Fin 4) (a : Fin 64) (b : Fin 32) (t : Fin 16) : RoundTrip.Statement (.mmkScratchpad g c e a b t) :=
  have F := wordX_fields (M := 0x30) (g := g) (c := c) (by decide) (fin_lt e (by decide)) (fin_lt a (by decide)) (fin_lt b (by decide)) (fin_lt t (by decide)) (by decide)
  roundTrip rfl F.guard (fun h => and_left h) (by
    rw [decodeRaw_30 F.major, dec30, F.fk]
    simp only
    rw [F.guard, F.conv, fieldAt_of e F.fe (by decide), fieldAt_of a F.fa (by decide), fieldAt_of b F.fb (by decide), fieldAt_of t F.ft (by decide)])
theorem RoundTrip.mmga (g : Guard) (c : Bool) (e : Fin 4) (a b : Fin 64) (t : Fin 16) : RoundTrip.Statement (.mmga g c e a b t) :=
  have F := wordX_fields (M := 0x31) (g := g) (c := c) (by decide) (fin_lt e (by decide)) (fin_lt a (by decide)) (fin_lt b (by decide)) (fin_lt t (by decide)) (by decide)
  roundTrip rfl F.guard (fun h => and_left h) (by
    rw [decodeRaw_31 F.major, dec31, F.fk]
    simp only
    rw [F.guard, F.conv, fieldAt_of e F.fe (by decide), fieldAt_of a F.fa (by decide), fieldAt_of b F.fb (by decide), fieldAt_of t F.ft (by decide)])
theorem RoundTrip.mmgaScratchpad (g : Guard) (c : Bool) (e : Fin 4) (a : Fin 64) (b : Fin 32) (t : Fin 16) : RoundTrip.Statement (.mmgaScratchpad g c e a b t) :=
  have F := wordX_fields (M := 0x31) (g := g) (c := c) (by decide) (fin_lt e (by decide)) (fin_lt a (by decide)) (fin_lt b (by decide)) (fin_lt t (by decide)) (by decide)
  roundTrip rfl F.guard (fun h => and_left h) (by
    rw [decodeRaw_31 F.major, dec31, F.fk]
    simp only
    rw [F.guard, F.conv, fieldAt_of e F.fe (by decide), fieldAt_of a F.fa (by decide), fieldAt_of b F.fb (by decide), fieldAt_of t F.ft (by decide)])
theorem RoundTrip.mshape (d a : Fin 32) : RoundTrip.Statement (.mshape d a) :=
  have F := wordR_fields (M := 0x32) (g := .always) (c := false) (by decide) (fin_lt d (by decide)) (fin_lt a (by decide)) (by decide) (by decide)
  roundTrip rfl F.guard (fun _ => rfl) (by
    rw [decodeRaw_32 F.major, dec32, F.fm]
    simp only
    rw [fieldAt_of d F.fd (by decide), fieldAt_of a F.fa (by decide)])
theorem RoundTrip.mzero (g : Guard) (e : Fin 4) : RoundTrip.Statement (.mzero g e) :=
  have F := wordR_fields (M := 0x32) (g := g) (c := false) (by decide) (fin_lt e (by decide)) (by decide) (by decide) (by decide)
  roundTrip rfl F.guard id (by
    rw [decodeRaw_32 F.major, dec32, F.fm]
    simp only
    rw [F.guard, fieldAt_of e F.fd (by decide)])
theorem RoundTrip.mld (g : Guard) (e : Fin 4) (a : Fin 32) : RoundTrip.Statement (.mld g e a) :=
  have F := wordR_fields (M := 0x32) (g := g) (c := false) (by decide) (fin_lt e (by decide)) (fin_lt a (by decide)) (by decide) (by decide)
  roundTrip rfl F.guard id (by
    rw [decodeRaw_32 F.major, dec32, F.fm]
    simp only
    rw [F.guard, fieldAt_of e F.fd (by decide), fieldAt_of a F.fa (by decide)])
theorem RoundTrip.mst (g : Guard) (e : Fin 4) (a : Fin 32) : RoundTrip.Statement (.mst g e a) :=
  have F := wordR_fields (M := 0x32) (g := g) (c := false) (by decide) (fin_lt e (by decide)) (fin_lt a (by decide)) (by decide) (by decide)
  roundTrip rfl F.guard id (by
    rw [decodeRaw_32 F.major, dec32, F.fm]
    simp only
    rw [F.guard, fieldAt_of e F.fd (by decide), fieldAt_of a F.fa (by decide)])
theorem RoundTrip.mcvt (g : Guard) (d : Fin 64) (e : Fin 4) (t : Fin 16) : RoundTrip.Statement (.mcvt g d e t) :=
  have F := wordR_fields (M := 0x32) (g := g) (c := false) (by decide) (fin_lt d (by decide)) (fin_lt e (by decide)) (fin_lt t (by decide)) (by decide)
  roundTrip rfl F.guard id (by
    rw [decodeRaw_32 F.major, dec32, F.fm]
    simp only
    rw [F.guard, fieldAt_of d F.fd (by decide), fieldAt_of e F.fa (by decide), fieldAt_of t F.fb (by decide)])
theorem RoundTrip.mseg (d a : Fin 32) : RoundTrip.Statement (.mseg d a) :=
  have F := wordR_fields (M := 0x32) (g := .always) (c := false) (by decide) (fin_lt d (by decide)) (fin_lt a (by decide)) (by decide) (by decide)
  roundTrip rfl F.guard (fun _ => rfl) (by
    rw [decodeRaw_32 F.major, dec32, F.fm]
    simp only
    rw [fieldAt_of d F.fd (by decide), fieldAt_of a F.fa (by decide)])
theorem RoundTrip.vtmask (g : Guard) (c : Bool) (d : Fin 8) (a : Fin 64) (b : Fin 32) : RoundTrip.Statement (.vtmask g c d a b) :=
  have F := wordR_fields (M := 0x33) (g := g) (c := c) (by decide) (fin_lt d (by decide)) (fin_lt a (by decide)) (fin_lt b (by decide)) (by decide)
  roundTrip rfl F.guard (fun h => and_left h) (by
    rw [decodeRaw_33 F.major, dec33, F.fm]
    simp only
    rw [F.guard, F.conv, fieldAt_of d F.fd (by decide), fieldAt_of a F.fa (by decide), fieldAt_of b F.fb (by decide)])
theorem RoundTrip.vexpm (g : Guard) (c : Bool) (d a b : Fin 64) : RoundTrip.Statement (.vexpm g c d a b) :=
  have F := wordR_fields (M := 0x33) (g := g) (c := c) (by decide) (fin_lt d (by decide)) (fin_lt a (by decide)) (fin_lt b (by decide)) (by decide)
  roundTrip rfl F.guard (fun h => and_left (and_left h)) (by
    rw [decodeRaw_33 F.major, dec33, F.fm]
    simp only
    rw [F.guard, F.conv, fieldAt_of d F.fd (by decide), fieldAt_of a F.fa (by decide), fieldAt_of b F.fb (by decide)])
theorem RoundTrip.vscore (g : Guard) (c : Bool) (d : Fin 64) (q : Fin 16) (e : Fin 4) (b : Fin 32) : RoundTrip.Statement (.vscore g c d q e b) :=
  have h0 := bit01_lt c
  have F := wordR_fields (M := 0x33) (g := g) (c := c) (by decide) (fin_lt d (by decide)) (by omega) (fin_lt b (by decide)) (by decide)
  roundTrip rfl F.guard id (by
    rw [decodeRaw_33 F.major, dec33, F.fm]
    simp only
    rw [F.guard, F.conv, fieldAt_of d F.fd (by decide), fieldAt_eq q (by have := F.fa; omega), fieldAt_eq e (by have := F.fa; omega), fieldAt_of b F.fb (by decide)])
theorem RoundTrip.vpacc (g : Guard) (c : Bool) (d a b : Fin 64) : RoundTrip.Statement (.vpacc g c d a b) :=
  have F := wordR_fields (M := 0x33) (g := g) (c := c) (by decide) (fin_lt d (by decide)) (fin_lt a (by decide)) (fin_lt b (by decide)) (by decide)
  roundTrip rfl F.guard (fun h => and_left h) (by
    rw [decodeRaw_33 F.major, dec33, F.fm]
    simp only
    rw [F.guard, F.conv, fieldAt_of d F.fd (by decide), fieldAt_of a F.fa (by decide), fieldAt_of b F.fb (by decide)])
theorem RoundTrip.pxl (g : Guard) (d a : Fin 64) (b : Fin 32) : RoundTrip.Statement (.pxl g d a b) :=
  have F := wordR_fields (M := 0x34) (g := g) (c := false) (by decide) (fin_lt d (by decide)) (fin_lt a (by decide)) (fin_lt b (by decide)) (by decide)
  roundTrip rfl F.guard id (by
    rw [decodeRaw_34 F.major, dec34, F.fm]
    simp only
    rw [F.guard, fieldAt_of d F.fd (by decide), fieldAt_of a F.fa (by decide), fieldAt_of b F.fb (by decide)])
theorem RoundTrip.pxw (g : Guard) (a b : Fin 32) : RoundTrip.Statement (.pxw g a b) :=
  have F := wordR_fields (M := 0x34) (g := g) (c := false) (by decide) (by decide) (fin_lt a (by decide)) (fin_lt b (by decide)) (by decide)
  roundTrip rfl F.guard id (by
    rw [decodeRaw_34 F.major, dec34, F.fm]
    simp only
    rw [if_neg (by rw [F.fd]; decide), F.guard, fieldAt_of a F.fa (by decide), fieldAt_of b F.fb (by decide)])
theorem RoundTrip.pxwSh (g : Guard) (a : Fin 32) (k : Fin 8) : RoundTrip.Statement (.pxwSh g a k) :=
  have F := wordR_fields (M := 0x34) (g := g) (c := false) (by decide) (by decide) (fin_lt a (by decide)) (fin_lt k (by decide)) (by decide)
  roundTrip rfl F.guard id (by
    rw [decodeRaw_34 F.major, dec34, F.fm]
    simp only
    rw [if_pos F.fd, F.guard, fieldAt_of a F.fa (by decide), fieldAt_of k F.fb (by decide)])
theorem RoundTrip.pxinv (g : Guard) (a b : Fin 32) : RoundTrip.Statement (.pxinv g a b) :=
  have F := wordR_fields (M := 0x34) (g := g) (c := false) (by decide) (by decide) (fin_lt a (by decide)) (fin_lt b (by decide)) (by decide)
  roundTrip rfl F.guard id (by
    rw [decodeRaw_34 F.major, dec34, F.fm]
    simp only
    rw [F.guard, fieldAt_of a F.fa (by decide), fieldAt_of b F.fb (by decide)])
theorem RoundTrip.pxret (g : Guard) : RoundTrip.Statement (.pxret g) :=
  have F := wordR_fields (M := 0x34) (g := g) (c := false) (by decide) (by decide) (by decide) (by decide) (by decide)
  roundTrip rfl F.guard id (by
    rw [decodeRaw_34 F.major, dec34, F.fm]
    simp only
    rw [F.guard])
theorem RoundTrip.dsadv (g : Guard) (d : Fin 64) (a b : Fin 32) : RoundTrip.Statement (.dsadv g d a b) :=
  have F := wordR_fields (M := 0x35) (g := g) (c := false) (by decide) (fin_lt d (by decide)) (fin_lt a (by decide)) (fin_lt b (by decide)) (by decide)
  roundTrip rfl F.guard (fun h => and_left h) (by
    rw [decodeRaw_35 F.major, dec35, F.fm]
    simp only
    rw [F.guard, fieldAt_of d F.fd (by decide), fieldAt_of a F.fa (by decide), fieldAt_of b F.fb (by decide)])
theorem RoundTrip.dstrunc (g : Guard) (a b : Fin 32) : RoundTrip.Statement (.dstrunc g a b) :=
  have F := wordR_fields (M := 0x35) (g := g) (c := false) (by decide) (by decide) (fin_lt a (by decide)) (fin_lt b (by decide)) (by decide)
  roundTrip rfl F.guard id (by
    rw [decodeRaw_35 F.major, dec35, F.fm]
    simp only
    rw [F.guard, fieldAt_of a F.fa (by decide), fieldAt_of b F.fb (by decide)])
theorem RoundTrip.dsframe (g : Guard) (d a b : Fin 32) : RoundTrip.Statement (.dsframe g d a b) :=
  have F := wordR_fields (M := 0x35) (g := g) (c := false) (by decide) (fin_lt d (by decide)) (fin_lt a (by decide)) (fin_lt b (by decide)) (by decide)
  roundTrip rfl F.guard id (by
    rw [decodeRaw_35 F.major, dec35, F.fm]
    simp only
    rw [F.guard, fieldAt_of d F.fd (by decide), fieldAt_of a F.fa (by decide), fieldAt_of b F.fb (by decide)])
theorem RoundTrip.dsplay (g : Guard) (a b : Fin 32) : RoundTrip.Statement (.dsplay g a b) :=
  have F := wordR_fields (M := 0x35) (g := g) (c := false) (by decide) (by decide) (fin_lt a (by decide)) (fin_lt b (by decide)) (by decide)
  roundTrip rfl F.guard id (by
    rw [decodeRaw_35 F.major, dec35, F.fm]
    simp only
    rw [F.guard, fieldAt_of a F.fa (by decide), fieldAt_of b F.fb (by decide)])
theorem RoundTrip.launch (g : Guard) (d a : Fin 32) : RoundTrip.Statement (.launch g d a) :=
  have F := wordR_fields (M := 0x36) (g := g) (c := false) (by decide) (fin_lt d (by decide)) (fin_lt a (by decide)) (by decide) (by decide)
  roundTrip rfl F.guard id (by
    rw [decodeRaw_36 F.major, dec36, F.fm]
    simp only
    rw [F.guard, fieldAt_of d F.fd (by decide), fieldAt_of a F.fa (by decide)])
theorem RoundTrip.cancel (g : Guard) (d a : Fin 32) : RoundTrip.Statement (.cancel g d a) :=
  have F := wordR_fields (M := 0x36) (g := g) (c := false) (by decide) (fin_lt d (by decide)) (fin_lt a (by decide)) (by decide) (by decide)
  roundTrip rfl F.guard id (by
    rw [decodeRaw_36 F.major, dec36, F.fm]
    simp only
    rw [F.guard, fieldAt_of d F.fd (by decide), fieldAt_of a F.fa (by decide)])
theorem RoundTrip.cget (g : Guard) (d : Fin 32) (r : Fin 64) : RoundTrip.Statement (.cget g d r) :=
  have F := wordR_fields (M := 0x38) (g := g) (c := false) (by decide) (fin_lt d (by decide)) (fin_lt r (by decide)) (by decide) (by decide)
  roundTrip rfl F.guard id (by
    rw [decodeRaw_38 F.major, dec38, F.fm]
    simp only
    rw [F.guard, fieldAt_of d F.fd (by decide), fieldAt_of r F.fa (by decide)])
theorem RoundTrip.cset (g : Guard) (r : Fin 64) (a : Fin 32) : RoundTrip.Statement (.cset g r a) :=
  have F := wordR_fields (M := 0x38) (g := g) (c := false) (by decide) (fin_lt r (by decide)) (fin_lt a (by decide)) (by decide) (by decide)
  roundTrip rfl F.guard id (by
    rw [decodeRaw_38 F.major, dec38, F.fm]
    simp only
    rw [F.guard, fieldAt_of r F.fd (by decide), fieldAt_of a F.fa (by decide)])
theorem RoundTrip.vcfg (g : Guard) (d : Fin 32) (r w : Fin 4) : RoundTrip.Statement (.vcfg g d r w) :=
  have F := wordR_fields (M := 0x38) (g := g) (c := false) (by decide) (fin_lt d (by decide)) (fin_lt r (by decide)) (fin_lt w (by decide)) (by decide)
  roundTrip rfl F.guard id (by
    rw [decodeRaw_38 F.major, dec38, F.fm]
    simp only
    rw [F.guard, fieldAt_of d F.fd (by decide), fieldAt_of r F.fa (by decide), fieldAt_of w F.fb (by decide)])
theorem RoundTrip.spsplit (g : Guard) (d : Fin 32) (k : Fin 16) : RoundTrip.Statement (.spsplit g d k) :=
  have F := wordR_fields (M := 0x38) (g := g) (c := false) (by decide) (fin_lt d (by decide)) (fin_lt k (by decide)) (by decide) (by decide)
  roundTrip rfl F.guard (fun h => and_left h) (by
    rw [decodeRaw_38 F.major, dec38, F.fm]
    simp only
    rw [F.guard, fieldAt_of d F.fd (by decide), fieldAt_of k F.fa (by decide)])
theorem RoundTrip.stripBegin (g : Guard) (a : Fin 32) : RoundTrip.Statement (.stripBegin g a) :=
  have F := wordR_fields (M := 0x38) (g := g) (c := false) (by decide) (by decide) (fin_lt a (by decide)) (by decide) (by decide)
  roundTrip rfl F.guard id (by
    rw [decodeRaw_38 F.major, dec38, F.fm]
    simp only
    rw [F.guard, fieldAt_of a F.fa (by decide)])
theorem RoundTrip.stripCommit (g : Guard) : RoundTrip.Statement (.stripCommit g) :=
  have F := wordR_fields (M := 0x38) (g := g) (c := false) (by decide) (by decide) (by decide) (by decide) (by decide)
  roundTrip rfl F.guard id (by
    rw [decodeRaw_38 F.major, dec38, F.fm]
    simp only
    rw [F.guard])
theorem RoundTrip.asidBind (g : Guard) (d a : Fin 32) : RoundTrip.Statement (.asidBind g d a) :=
  have F := wordR_fields (M := 0x38) (g := g) (c := false) (by decide) (fin_lt d (by decide)) (fin_lt a (by decide)) (by decide) (by decide)
  roundTrip rfl F.guard id (by
    rw [decodeRaw_38 F.major, dec38, F.fm]
    simp only
    rw [F.guard, fieldAt_of d F.fd (by decide), fieldAt_of a F.fa (by decide)])
theorem RoundTrip.asidRetire (g : Guard) (d a : Fin 32) : RoundTrip.Statement (.asidRetire g d a) :=
  have F := wordR_fields (M := 0x38) (g := g) (c := false) (by decide) (fin_lt d (by decide)) (fin_lt a (by decide)) (by decide) (by decide)
  roundTrip rfl F.guard id (by
    rw [decodeRaw_38 F.major, dec38, F.fm]
    simp only
    rw [F.guard, fieldAt_of d F.fd (by decide), fieldAt_of a F.fa (by decide)])
theorem RoundTrip.xlinvVa (g : Guard) (d a b : Fin 32) : RoundTrip.Statement (.xlinvVa g d a b) :=
  have F := wordR_fields (M := 0x39) (g := g) (c := false) (by decide) (fin_lt d (by decide)) (fin_lt a (by decide)) (fin_lt b (by decide)) (by decide)
  roundTrip rfl F.guard id (by
    rw [decodeRaw_39 F.major, dec39, F.fm]
    simp only
    rw [F.guard, fieldAt_of d F.fd (by decide), fieldAt_of a F.fa (by decide), fieldAt_of b F.fb (by decide)])
theorem RoundTrip.xlinvAsid (g : Guard) (d a : Fin 32) : RoundTrip.Statement (.xlinvAsid g d a) :=
  have F := wordR_fields (M := 0x39) (g := g) (c := false) (by decide) (fin_lt d (by decide)) (fin_lt a (by decide)) (by decide) (by decide)
  roundTrip rfl F.guard id (by
    rw [decodeRaw_39 F.major, dec39, F.fm]
    simp only
    rw [F.guard, fieldAt_of d F.fd (by decide), fieldAt_of a F.fa (by decide)])
theorem RoundTrip.xlinvGlob (g : Guard) (d : Fin 32) : RoundTrip.Statement (.xlinvGlob g d) :=
  have F := wordR_fields (M := 0x39) (g := g) (c := false) (by decide) (fin_lt d (by decide)) (by decide) (by decide) (by decide)
  roundTrip rfl F.guard id (by
    rw [decodeRaw_39 F.major, dec39, F.fm]
    simp only
    rw [F.guard, fieldAt_of d F.fd (by decide)])
theorem RoundTrip.fence (g : Guard) (k : Fin 4) (sc : Fin 8) : RoundTrip.Statement (.fence g k sc) :=
  have F := wordR_fields (M := 0x39) (g := g) (c := false) (by decide) (by decide) (fin_lt k (by decide)) (fin_lt sc (by decide)) (by decide)
  roundTrip rfl F.guard id (by
    rw [decodeRaw_39 F.major, dec39, F.fm]
    simp only
    rw [F.guard, fieldAt_of k F.fa (by decide), fieldAt_of sc F.fb (by decide)])
theorem RoundTrip.waitingRecordWrite (x0 : Nat) : RoundTrip.Statement (.waitingRecordWrite x0) := by
  intro _ w h; cases h
theorem RoundTrip.deferredStoreFailure (x0 : Nat) : RoundTrip.Statement (.deferredStoreFailure x0) := by
  intro _ w h; cases h
theorem RoundTrip.pendingDatumArrival (x0 : Nat) (x1 : Nat) (x2 : Nat) (x3 : Word) (x4 : Bool) : RoundTrip.Statement (.pendingDatumArrival x0 x1 x2 x3 x4) := by
  intro _ w h; cases h
theorem RoundTrip.preemption (x0 : Nat) (x1 : StopAt) : RoundTrip.Statement (.preemption x0 x1) := by
  intro _ w h; cases h
theorem RoundTrip.pacerDecision (x0 : Nat) : RoundTrip.Statement (.pacerDecision x0) := by
  intro _ w h; cases h
theorem RoundTrip.pacerPreemption (x0 : PacerStop) : RoundTrip.Statement (.pacerPreemption x0) := by
  intro _ w h; cases h
theorem RoundTrip.contextSpill (x0 : Nat) (x1 : Nat) : RoundTrip.Statement (.contextSpill x0 x1) := by
  intro _ w h; cases h
theorem RoundTrip.contextReturn (x0 : Nat) (x1 : Nat) : RoundTrip.Statement (.contextReturn x0 x1) := by
  intro _ w h; cases h
theorem RoundTrip.clusterWindowRequest (x0 : Nat) : RoundTrip.Statement (.clusterWindowRequest x0) := by
  intro _ w h; cases h
theorem RoundTrip.activeMessageHandler (x0 : Nat) : RoundTrip.Statement (.activeMessageHandler x0) := by
  intro _ w h; cases h
theorem RoundTrip.handlerLimit (x0 : Nat) : RoundTrip.Statement (.handlerLimit x0) := by
  intro _ w h; cases h
theorem RoundTrip.amReplyDelivery (x0 : AmReply) : RoundTrip.Statement (.amReplyDelivery x0) := by
  intro _ w h; cases h
theorem RoundTrip.remoteSignalArrival (x0 : Nat) (x1 : Word) (x2 : RemoteKind) : RoundTrip.Statement (.remoteSignalArrival x0 x1 x2) := by
  intro _ w h; cases h
theorem RoundTrip.batonPoll (x0 : Nat) (x1 : Nat) : RoundTrip.Statement (.batonPoll x0 x1) := by
  intro _ w h; cases h
theorem RoundTrip.relayChunk (x0 : Nat) (x1 : Nat) : RoundTrip.Statement (.relayChunk x0 x1) := by
  intro _ w h; cases h
theorem RoundTrip.relayBeat (x0 : Nat) (x1 : Nat) : RoundTrip.Statement (.relayBeat x0 x1) := by
  intro _ w h; cases h
theorem RoundTrip.relayComplete (x0 : Nat) (x1 : Nat) : RoundTrip.Statement (.relayComplete x0 x1) := by
  intro _ w h; cases h
theorem RoundTrip.relayCancelComplete (x0 : Nat) (x1 : Nat) : RoundTrip.Statement (.relayCancelComplete x0 x1) := by
  intro _ w h; cases h
theorem RoundTrip.translationWalk (x0 : Nat) (x1 : Nat) (x2 : Word) : RoundTrip.Statement (.translationWalk x0 x1 x2) := by
  intro _ w h; cases h
theorem RoundTrip.runAheadTranslation (x0 : Nat) (x1 : Word) : RoundTrip.Statement (.runAheadTranslation x0 x1) := by
  intro _ w h; cases h
theorem RoundTrip.maintenanceComplete (x0 : Nat) (x1 : Nat) : RoundTrip.Statement (.maintenanceComplete x0 x1) := by
  intro _ w h; cases h
theorem RoundTrip.asidRetirementComplete (x0 : Nat) : RoundTrip.Statement (.asidRetirementComplete x0) := by
  intro _ w h; cases h
theorem RoundTrip.homeSliceRequest (x0 : HomeReq) : RoundTrip.Statement (.homeSliceRequest x0) := by
  intro _ w h; cases h
theorem RoundTrip.bankConflict (x0 : BankWait) : RoundTrip.Statement (.bankConflict x0) := by
  intro _ w h; cases h
theorem RoundTrip.hdcfgWrite (x0 : Nat) (x1 : Word) : RoundTrip.Statement (.hdcfgWrite x0 x1) := by
  intro _ w h; cases h
theorem RoundTrip.granuleMove (x0 : Nat) : RoundTrip.Statement (.granuleMove x0) := by
  intro _ w h; cases h
theorem RoundTrip.migrationComplete (x0 : Nat) : RoundTrip.Statement (.migrationComplete x0) := by
  intro _ w h; cases h
theorem RoundTrip.mctlWrite (x0 : Word) : RoundTrip.Statement (.mctlWrite x0) := by
  intro _ w h; cases h
theorem RoundTrip.switchAccess (x0 : SwitchReq) : RoundTrip.Statement (.switchAccess x0) := by
  intro _ w h; cases h
theorem RoundTrip.mirrorImageInstall (x0 : MirrorImage) : RoundTrip.Statement (.mirrorImageInstall x0) := by
  intro _ w h; cases h
theorem RoundTrip.failoverAccess (x0 : SwitchReq) : RoundTrip.Statement (.failoverAccess x0) := by
  intro _ w h; cases h
theorem RoundTrip.mergeLockLapse (x0 : Nat) (x1 : Nat) : RoundTrip.Statement (.mergeLockLapse x0 x1) := by
  intro _ w h; cases h
theorem RoundTrip.planeDown (x0 : PlaneLoss) : RoundTrip.Statement (.planeDown x0) := by
  intro _ w h; cases h
theorem RoundTrip.planeUp (x0 : Nat) (x1 : Nat) : RoundTrip.Statement (.planeUp x0 x1) := by
  intro _ w h; cases h
theorem RoundTrip.collectiveAbortReceipt (x0 : Nat) (x1 : Nat) (x2 : Nat) : RoundTrip.Statement (.collectiveAbortReceipt x0 x1 x2) := by
  intro _ w h; cases h
theorem RoundTrip.starterDecision : RoundTrip.Statement (.starterDecision) := by
  intro _ w h; cases h
theorem RoundTrip.starterTimedDecision : RoundTrip.Statement (.starterTimedDecision) := by
  intro _ w h; cases h
theorem RoundTrip.launchBlocking (x0 : Nat) : RoundTrip.Statement (.launchBlocking x0) := by
  intro _ w h; cases h
theorem RoundTrip.dependenceFailed (x0 : Nat) : RoundTrip.Statement (.dependenceFailed x0) := by
  intro _ w h; cases h
theorem RoundTrip.launchCompletion (x0 : Nat) : RoundTrip.Statement (.launchCompletion x0) := by
  intro _ w h; cases h
theorem RoundTrip.unloadComplete (x0 : Nat) : RoundTrip.Statement (.unloadComplete x0) := by
  intro _ w h; cases h
theorem RoundTrip.ccmdOpen (x0 : Nat) (x1 : Nat) (x2 : Nat) : RoundTrip.Statement (.ccmdOpen x0 x1 x2) := by
  intro _ w h; cases h
theorem RoundTrip.ccmdResume (x0 : Nat) (x1 : Nat) (x2 : Nat) : RoundTrip.Statement (.ccmdResume x0 x1 x2) := by
  intro _ w h; cases h
theorem RoundTrip.ccmdKill (x0 : Nat) (x1 : Nat) (x2 : Nat) : RoundTrip.Statement (.ccmdKill x0 x1 x2) := by
  intro _ w h; cases h
theorem RoundTrip.ccmdClose (x0 : Nat) (x1 : Nat) (x2 : Nat) : RoundTrip.Statement (.ccmdClose x0 x1 x2) := by
  intro _ w h; cases h
theorem RoundTrip.ccmdBadcmd (x0 : Nat) : RoundTrip.Statement (.ccmdBadcmd x0) := by
  intro _ w h; cases h
theorem RoundTrip.machineCheck (x0 : UnitCheck) : RoundTrip.Statement (.machineCheck x0) := by
  intro _ w h; cases h
theorem RoundTrip.truncationCleanup (x0 : Nat) : RoundTrip.Statement (.truncationCleanup x0) := by
  intro _ w h; cases h
theorem RoundTrip.cleanupComplete (x0 : Nat) : RoundTrip.Statement (.cleanupComplete x0) := by
  intro _ w h; cases h
theorem RoundTrip.cleanupFailed (x0 : Nat) (x1 : Bool) (x2 : Cause) : RoundTrip.Statement (.cleanupFailed x0 x1 x2) := by
  intro _ w h; cases h
theorem RoundTrip.hostAccess (x0 : HostReq) : RoundTrip.Statement (.hostAccess x0) := by
  intro _ w h; cases h
theorem RoundTrip.hostSignal (x0 : Nat) (x1 : Word) (x2 : Nat) : RoundTrip.Statement (.hostSignal x0 x1 x2) := by
  intro _ w h; cases h
theorem RoundTrip.hostsigWrite (x0 : Word) : RoundTrip.Statement (.hostsigWrite x0) := by
  intro _ w h; cases h
theorem RoundTrip.linkLoss : RoundTrip.Statement (.linkLoss) := by
  intro _ w h; cases h
theorem RoundTrip.linkReturn : RoundTrip.Statement (.linkReturn) := by
  intro _ w h; cases h
theorem RoundTrip.ownClaim (x0 : Nat) (x1 : Word) (x2 : Word) : RoundTrip.Statement (.ownClaim x0 x1 x2) := by
  intro _ w h; cases h
theorem RoundTrip.ownRelease (x0 : Nat) (x1 : Word) (x2 : Word) : RoundTrip.Statement (.ownRelease x0 x1 x2) := by
  intro _ w h; cases h
theorem RoundTrip.ownHandover (x0 : Nat) (x1 : Word) (x2 : Word) : RoundTrip.Statement (.ownHandover x0 x1 x2) := by
  intro _ w h; cases h
theorem RoundTrip.leaseLapse : RoundTrip.Statement (.leaseLapse) := by
  intro _ w h; cases h
theorem RoundTrip.ownerScrubComplete : RoundTrip.Statement (.ownerScrubComplete) := by
  intro _ w h; cases h
theorem RoundTrip.engagementScrub (x0 : Nat) : RoundTrip.Statement (.engagementScrub x0) := by
  intro _ w h; cases h
theorem RoundTrip.engagementScrubComplete : RoundTrip.Statement (.engagementScrubComplete) := by
  intro _ w h; cases h
theorem RoundTrip.attestation (x0 : Nat) : RoundTrip.Statement (.attestation x0) := by
  intro _ w h; cases h
theorem RoundTrip.attestationComplete : RoundTrip.Statement (.attestationComplete) := by
  intro _ w h; cases h
theorem RoundTrip.keyLoad (x0 : Nat) (x1 : Nat) : RoundTrip.Statement (.keyLoad x0 x1) := by
  intro _ w h; cases h
theorem RoundTrip.keyErase (x0 : Nat) : RoundTrip.Statement (.keyErase x0) := by
  intro _ w h; cases h
theorem RoundTrip.moduleReset : RoundTrip.Statement (.moduleReset) := by
  intro _ w h; cases h
theorem RoundTrip.memoryTrained : RoundTrip.Statement (.memoryTrained) := by
  intro _ w h; cases h
theorem RoundTrip.fabricTrained (x0 : List (Nat × Nat)) : RoundTrip.Statement (.fabricTrained x0) := by
  intro _ w h; cases h
theorem RoundTrip.hbmRepair (x0 : Nat) (x1 : Nat) : RoundTrip.Statement (.hbmRepair x0 x1) := by
  intro _ w h; cases h
theorem RoundTrip.clockThrottle : RoundTrip.Statement (.clockThrottle) := by
  intro _ w h; cases h
theorem RoundTrip.clockRestore : RoundTrip.Statement (.clockRestore) := by
  intro _ w h; cases h
theorem RoundTrip.thermalStop : RoundTrip.Statement (.thermalStop) := by
  intro _ w h; cases h
theorem RoundTrip.registerWrite (x0 : Nat) (x1 : Word) : RoundTrip.Statement (.registerWrite x0 x1) := by
  intro _ w h; cases h
theorem RoundTrip.vwaitRound (x0 : Nat) (x1 : Nat) : RoundTrip.Statement (.vwaitRound x0 x1) := by
  intro _ w h; cases h
theorem RoundTrip.illegalInstruction (x0 : BitVec 32) : RoundTrip.Statement (.illegalInstruction x0) := by
  intro _ w h; cases h
theorem RoundTrip.instructionFetchFault (x0 : Cause) : RoundTrip.Statement (.instructionFetchFault x0) := by
  intro _ w h; cases h

end Sys2Proof.Laws
end

