-- ==== Sys2Proof/Tests/Slice0.lean ====
section
/-! SUPPORT. Tests of the model on words and results that the spec gives, and witnesses of the statements' hypotheses. -/

namespace Sys2Proof.Tests

open Sys2Proof Sys2Proof.Machine

set_option Elab.async false

abbrev on : Guard := Guard.always

/-! ## Words of the spec's tables -/

/-! spec/08 Table 16. -/

theorem test_decode_nop : decode 0x03C00000 = .ok .nop := by decide
theorem test_decode_nop_reserved : decode 0x03C00001 = .error .reservedField := by decide
theorem test_decode_vcfg : decode 0xE1C28412 = .ok (.vcfg on 5 2 2) := by decide
theorem test_decode_vadd_masked : decode 0x40820210 = .ok (.vadd ⟨false, 2⟩ false 4 1 2) := by decide
theorem test_decode_vmul_convoy : decode 0x45E28818 = .ok (.vmul on true 5 4 3) := by decide
theorem test_decode_ldAcq : decode 0xA1C3091A = .ok (.ldAcq on 6 4 4 2 2) := by decide
theorem test_decode_atomAdd : decode 0xA5C18B68 = .ok (.atomAdd on 1 5 5 2 true) := by decide
theorem test_decode_fence : decode 0xE5C00213 = .ok (.fence on 1 2) := by decide
theorem test_decode_b_negated : decode 0x36DFFFF4 = .ok (.b ⟨true, 3⟩ (-12)) := by decide

/-! spec/09 Table 7. -/

theorem test_decode_cset : decode 0xE1C78801 = .ok (.cset on 15 4) := by decide
theorem test_decode_addi : decode 0x15C30C01 = .ok (.addi on 6 6 1) := by decide
theorem test_decode_loop : decode 0x25C07FFE = .ok (.loop on 0 (-2)) := by decide
theorem test_decode_cmpLt : decode 0x11C88A42 = .ok (.cmpLt on 17 5 8) := by decide
theorem test_decode_sel : decode 0x0CC29228 = .ok (.sel ⟨false, 3⟩ 5 9 5) := by decide
theorem test_decode_bfx : decode 0x0DC61459 = .ok (.bfx on 12 10 11) := by decide
theorem test_decode_popc : decode 0x09C71406 = .ok (.popc on 14 10) := by decide
theorem test_decode_fin : decode 0x3DC00004 = .ok (.fin on) := by decide
theorem test_decode_await : decode 0x3DC98E42 = .ok (.await on 0x13 7 8) := by decide
theorem test_decode_sys : decode 0x3DC0091D = .ok (.sys on 4 35) := by decide
theorem test_decode_spsplit : decode 0xE1C18A03 = .ok (.spsplit on 3 5) := by decide
theorem test_decode_xlinvVa : decode 0xE5C20A38 = .ok (.xlinvVa on 4 5 7) := by decide
theorem test_decode_cmp_reserved : decode 0x11DD922A = .error .reservedField := by decide
theorem test_decode_spsplit_reserved : decode 0xE1C19203 = .error .reservedField := by decide

/-! spec/10 Table 8. -/

theorem test_decode_viota : decode 0x55C08003 = .ok (.viota on false 1) := by decide
theorem test_decode_vcvt : decode 0x6DE10250 = .ok (.vcvt on true 2 1 10) := by decide
theorem test_decode_vbcast : decode 0x55C20E05 = .ok (.vbcast on false 4 7) := by decide
theorem test_decode_vcmpLt : decode 0x51C88222 = .ok (.vcmpLt on false 17 1 4) := by decide
theorem test_decode_vfmul : decode 0x5DC18412 = .ok (.vfmul on false 3 2 2) := by decide
theorem test_decode_vfsub : decode 0x5C818619 = .ok (.vfsub ⟨false, 2⟩ false 3 3 3) := by decide
theorem test_decode_vredsum : decode 0x71C28600 = .ok (.vredsum on false 5 3) := by decide
theorem test_decode_vext : decode 0x55C48A06 = .ok (.vext false 9 5 0) := by decide
theorem test_decode_vquant : decode 0x6DC30453 = .ok (.vquant on false 6 2 false 10) := by decide

/-! spec/11 Table 11. -/

theorem test_decode_vld : decode 0x95C08E00 = .ok (.vld on false 1 7 0 0) := by decide
theorem test_decode_vsllScalar : decode 0x49C1024D = .ok (.vsllScalar on false 2 1 9) := by decide
theorem test_decode_vatomAdd : decode 0xADC18530 = .ok (.vatomAdd on 3 2 4 3) := by decide
theorem test_decode_stB32 : decode 0x8DC10A00 = .ok (.stB32 on 2 5 0) := by decide
theorem test_decode_ldI8 : decode 0x91C18885 = .ok (.ldI8 on 3 4 5) := by decide
theorem test_decode_ldWp : decode 0x9DC18AE0 = .ok (.ldWp on 3 5 3 2 0) := by decide
theorem test_decode_barv : decode 0xB1C18E01 = .ok (.barv on 3 7) := by decide
theorem test_decode_bsig : decode 0xB5C08E02 = .ok (.bsigOneOperand on 7) := by decide
theorem test_decode_rcopy : decode 0xB9C10A38 = .ok (.rcopy on 2 2 3) := by decide

/-! spec/12 Table 9. -/

theorem test_decode_mshape : decode 0xC9C40E00 = .ok (.mshape 8 7) := by decide
theorem test_decode_mzero : decode 0xC9C00001 = .ok (.mzero on 0) := by decide
theorem test_decode_mmk : decode 0xC1C02160 = .ok (.mmk on false 0 1 2 12) := by decide
theorem test_decode_mmga : decode 0xC5C86160 = .ok (.mmga on false 1 3 2 12) := by decide
theorem test_decode_mcvt : decode 0xC9C20054 = .ok (.mcvt on 4 0 10) := by decide
theorem test_decode_pxl : decode 0xD1C30A48 = .ok (.pxl on 6 5 9) := by decide
theorem test_decode_dsadv : decode 0xD5C88828 = .ok (.dsadv on 17 4 5) := by decide
theorem test_decode_dsframe : decode 0xD5C1882A = .ok (.dsframe on 3 4 5) := by decide
theorem test_decode_launch : decode 0xD9C18800 = .ok (.launch on 3 4) := by decide
theorem test_decode_mmk_reserved : decode 0xC1C02161 = .error .reservedField := by decide
theorem test_decode_mmk_type : decode 0xC1C02150 = .error .reservedField := by decide

/-- A major that no instruction has (R208). -/
theorem test_decode_illegal : decode 0x78000000 = .error .illegalInstruction := by decide

/-- The four bytes of a word, least significant first, as the opcode table numbers bits. -/
theorem test_decodeTableWord : decodeTableWord 32 0x15C30C01 = some (.addi on 6 6 1) := by decide

/-! ## Ill-formed terms: one for each check of `Instr.wellFormed` -/

abbrev notOn : Guard := ⟨true, 7⟩

theorem test_illFormed_guard : (Instr.add notOn 1 2 3).wellFormed = false := by decide
theorem test_illFormed_guard_loop : (Instr.loop notOn 0 0).wellFormed = false := by decide
theorem test_illFormed_pair_low : (Instr.cmpEq on 7 1 2).wellFormed = false := by decide
theorem test_illFormed_pair_high : (Instr.vfcmpLt on false 56 1 2).wellFormed = false := by decide
theorem test_illFormed_mask : (Instr.mand on false 7 0 1).wellFormed = false := by decide
theorem test_illFormed_kinds_integer : (Instr.fcvt on 1 2 0 1).wellFormed = false := by decide
theorem test_illFormed_kinds_same : (Instr.fcvt on 1 2 4 4).wellFormed = false := by decide
theorem test_illFormed_slide : (Instr.vslideup on false 3 3 1).wellFormed = false := by decide
theorem test_illFormed_perm : (Instr.vperm on false 3 1 3).wellFormed = false := by decide
theorem test_illFormed_convert_type : (Instr.vcvt on false 1 2 14).wellFormed = false := by decide
theorem test_illFormed_widen : (Instr.vcvtW on false 2 2 3).wellFormed = false := by decide
theorem test_illFormed_quantise_scale : (Instr.vquant on false 3 2 false 3).wellFormed = false := by decide
theorem test_illFormed_segmented : (Instr.vsredsum on false 2 2 0).wellFormed = false := by decide
theorem test_illFormed_load_order : (Instr.vld on false 1 2 0 2).wellFormed = false := by decide
theorem test_illFormed_load_scope : (Instr.vld on false 1 2 1 0).wellFormed = false := by decide
theorem test_illFormed_store_order : (Instr.vst on false 1 2 0 1).wellFormed = false := by decide
theorem test_illFormed_atom_scope : (Instr.atomAdd on 1 2 1 0 true).wellFormed = false := by decide
theorem test_illFormed_wait_condition : (Instr.vwait on 5 1 2).wellFormed = false := by decide
theorem test_illFormed_product_type : (Instr.mmk on false 0 1 2 10).wellFormed = false := by decide
theorem test_illFormed_vexpm : (Instr.vexpm on false 1 2 2).wellFormed = false := by decide
theorem test_illFormed_vpacc : (Instr.vpacc on false 1 2 1).wellFormed = false := by decide
theorem test_illFormed_ways : (Instr.spsplit on 1 9).wellFormed = false := by decide
theorem test_illFormed_die : (Instr.waitingRecordWrite 16).wellFormed = false := by decide
theorem test_illFormed_core : (Instr.pacerDecision 6144).wellFormed = false := by decide
theorem test_illFormed_coroutine : (Instr.contextSpill 0 1024).wellFormed = false := by decide
theorem test_illFormed_channel : (Instr.relayBeat 0 8).wellFormed = false := by decide
theorem test_illFormed_address_space : (Instr.translationWalk 0 65536 0).wellFormed = false := by decide
theorem test_illFormed_domain : (Instr.granuleMove 1024).wellFormed = false := by decide
theorem test_illFormed_plane : (Instr.planeDown ⟨18, true⟩).wellFormed = false := by decide
theorem test_illFormed_host_master : (Instr.hostSignal 4 0 1).wellFormed = false := by decide
theorem test_illFormed_key_slot : (Instr.keyErase 64).wellFormed = false := by decide
theorem test_illFormed_bank : (Instr.hbmRepair 1024 0).wellFormed = false := by decide


/-! ## Witnesses: states and operands that meet the premises of the statements -/

/-- A privileged coroutine at address 0 of core 0, in full service. -/
def base : State := State.reset.startAtZero

/-- The same with register `r` holding `v`. -/
def holding (s : State) (r : Fin 32) (v : Word) : State := s.modRun (fun c => { c with s := c.s.set r v })

/-- Virtual address of an offset of the own scratchpad. -/
def nearAt (off : Nat) : Word := BitVec.ofNat 64 (2 ^ 64 - 2 ^ 18 + off)

/-- An own scratchpad of every way. -/
def padded : State := base.modCore (fun c => { c with spways := 8 })

def padXlat (off : Nat) : Xlat := { target := .pad 0 off }

/-! Scalar instructions, branches and guards. -/

theorem witness_enabled : base.enables on ∧ ¬ base.enables ⟨true, 7⟩ ∧ base.enables ⟨true, 0⟩ := by
  unfold State.enables; decide +kernel

theorem witness_compare : base.enables on ∧ pairOk 17 = true ∧ pairOk 9 = true := by
  unfold State.enables; decide +kernel

theorem witness_nan : (Fmt.f64, 0x7FF8000000000000) ∈ [(Fmt.f64, 0x7FF8000000000000), (Fmt.f32, 0x7FC00000)] ∧
    0x7FF0000000000001 < 2 ^ Fmt.f64.width ∧ (Fmt.f64.decode 0x7FF0000000000001).isNan = true ∧
    (Fmt.f32.decode 0xFFFFFFFF).isNan = true ∧ (Fmt.f16.decode 0x7C01).isNan = true ∧
    (Fmt.bf16.decode 0x7F81).isNan = true := by decide +kernel

theorem witness_representable : Fmt.f32.decode 1 = .fin false 1 (-149) ∧ Fmt.f64.decode 0x8000000000000001 = .fin true 1 (-1074) := by
  decide +kernel

theorem witness_loop : base.core.run.lc[0] = 0 ∧ (base.modRun (fun c => { c with lc := c.lc.set 1 1 })).core.run.lc[1] = 1 ∧
    1 < ((base.modRun (fun c => { c with lc := c.lc.set 3 0xFFFFFFFF })).core.run.lc[3]).toNat := by decide +kernel

/-! Coroutines and traps. -/

theorem witness_spawn : base.ordinary ∧ base.posted = false ∧ base.core.coros.length + 1 < 1024 ∧
    base.core.roomFits 1 = true := by
  unfold State.ordinary State.unhindered; decide +kernel

theorem witness_spawn_full : 1024 ≤ (base.modCore (fun c => { c with coros := List.replicate 1023 Coro.blank })).core.coros.length + 1 := by
  decide +kernel

/-- A core whose call room holds 48 contexts, none of which can be spilled. -/
def crowded : State := base.modCore (fun c => { c with
  coros := (List.range 48).map (fun i => { Coro.blank with cnum := BitVec.ofNat 10 (i + 1), place := .callRoom, bytes := 512 }) })

theorem witness_spawn_noroom : crowded.ordinary ∧ crowded.core.coros.length + 1 < 1024 ∧
    crowded.core.placeContext { Coro.blank with bytes := 512 } = none := by
  unfold State.ordinary State.unhindered; decide +kernel

/-- A live baton of this module, index 5 of die 0, generation 1, whose owner is address space 0. -/
def hand : Word := handleOf 5 1
def bat : Baton := { live := true, gen := 1, count := 3, err := 0, scope := 2, opn := false, cl := false, bar := false, plog := 0,
                     group := 0, cgen := 0, owner := 0, creator := none, holds := 0, hostSig := false }
def batoned : State := { holding base 5 hand with batons := [(5, bat)] }

theorem witness_await : (batoned.modRun (fun c => { c with armed := some (hand, 3) })).core.run.armed = some (batoned.reg 5, 3) ∧
    handleModule (batoned.reg 5) = Config.moduleNumber ∧
    ((batoned.baton (handleKey (batoned.reg 5))).count - 3).toNat < 2 ^ 31 ∧
    ¬ ((batoned.baton (handleKey (batoned.reg 5))).count - 4).toNat < 2 ^ 31 ∧
    (batoned.baton (handleKey (batoned.reg 5))).err = 0 ∧ batoned.ordinary ∧
    batoned.core.roomFits (batoned.core.run.trimLive batoned.core.lanes 0 0).blocks = true := by
  unfold State.ordinary State.unhindered; decide +kernel

def emptyStrip : Strip := ⟨0, [], []⟩
def stripped : State := base.modRun (fun c => { c with strip := some emptyStrip })

theorem witness_await_refusals : stripped.core.run.strip.isSome = true ∧ base.core.run.armed = none ∧
    handleModule (BitVec.ofNat 64 (2 ^ 58 - 1)) ≠ Config.moduleNumber := by decide +kernel

/-- A Ready coroutine in the call room. -/
def readyCo (n : Nat) (prio : BitVec 5) : Coro :=
  { Coro.fresh 4 with cnum := BitVec.ofNat 10 n, prio := prio, state := .ready, place := .callRoom, bytes := 512 }

def companied : State := base.modCore (fun c => { c with coros := [readyCo 1 9, readyCo 2 0] })

theorem witness_yield : base.core.first = none ∧ base.core.run.pending = [] ∧ base.core.coros = [] ∧
    (∃ c ∈ companied.core.coros, c.selectable = true ∧ companied.core.run.effPrio < c.effPrio ∧
      c.cnum ≠ companied.core.run.cnum) ∧
    (∀ c ∈ companied.core.coros, c.cnum ≠ companied.core.run.cnum) ∧
    companied.core.roomFits (companied.core.run.trimLive companied.core.lanes 0 0).blocks = true := by decide +kernel

/-- The fault queue of die 0 at a frame of HBM. -/
def reporting : State := base.setFq 0 { base.fqAt 0 with en := true, base := 0x100 }

theorem witness_trap : reporting.ordinary ∧ reporting.core.run.convoy = none ∧ reporting.reportsTrap ∧
    (reporting.modRun (fun c => { c with priv := false })).core.run.priv = false ∧ reporting.sys.svc = 2 ∧
    (decode 0x78000000).toOption = none := by
  unfold State.ordinary State.unhindered State.reportsTrap; decide +kernel

theorem witness_spawn_noroom_all : ∀ k : Coro, k.bytes = 512 → crowded.core.placeContext k = none := by
  intro k h
  have hb : k.blocks = 1 := by simp [Coro.blocks, h, ceilDiv]
  have hm : Core.makeRoom crowded.core.coros.length crowded.core.inRoom crowded.core 1 = none := by decide +kernel
  have hs : crowded.core.spillFits 1 = false := by decide +kernel
  unfold Core.placeContext
  rw [hb, hm, hs]
  rfl

/-! Scalar accesses. -/

/-- A translated place in the own scratchpad, within its last bytes too. -/
theorem lies_pad (off n : Nat) (h : off + n ≤ 262144) : padded.lies (padXlat off) n (padStore 0 + off) := by
  refine Or.inl ⟨off, rfl, rfl, rfl, ?_, by rw [State.padPoisoned, show padded.padPoison = [] by decide +kernel]; simp⟩
  have : padded.core.padBytes = 262144 := by decide +kernel
  omega

theorem found_pad (off n : Nat) (h : off + n ≤ 262144) : padded.found (padXlat off) n (padStore 0 + off) :=
  Or.inl ⟨lies_pad off n h, fun x => by cases x⟩

theorem witness_access_near : padded.mayAccess (nearAt 262136) 8 ∧ padded.attains .read true (nearAt 262136) 8 (padStore 0 + 262136) ∧
    padded.attains .write true (nearAt 262143) 1 (padStore 0 + 262143) ∧ padded.mem.wf = true ∧ padded.settled ∧ padded.rests := by
  refine ⟨?_, ⟨padXlat 262136, by decide +kernel, found_pad _ _ (by omega)⟩, ⟨padXlat 262143, by decide +kernel,
    found_pad _ _ (by omega)⟩, by decide +kernel, ?_, ?_⟩
  · unfold State.mayAccess; decide +kernel
  · unfold State.settled; decide +kernel
  · unfold State.rests; decide +kernel

def hbmXlat (pa : Nat) : Xlat := { target := .hbm pa }

/-- The first two lines of page 0 of address space 0, written under the module's key. -/
def keyed : State := { base with sealKeys := (List.range 8).map (fun i => (0x9000 + i, none)) ++ base.sealKeys }

theorem blockKey_keyed : ∀ a, a < 128 → keyed.blockKey (0x90000 + a) = some (keyed.keyMat 0) := by decide +kernel

theorem lies_hbm (off n : Nat) (h : off + n ≤ 128) : keyed.lies (hbmXlat (0x90000 + off)) n (0x90000 + off) := by
  refine Or.inr ⟨0x90000 + off, rfl, rfl, rfl, rfl, ?_, ?_, by intro l hl; cases hl⟩
  · rw [State.poisoned, show keyed.poison = [] by decide +kernel]; simp
  · intro i hi
    rw [Nat.add_assoc]; exact blockKey_keyed (off + i) (by omega)

theorem witness_access_hbm : keyed.reaches .atomic false 0x78 8 0x90078 ∧ keyed.reaches .atomic false 0x7C 4 0x9007C ∧
    (0x78 : Word).toNat % 8 = 0 ∧ keyed.mayAccess 0x78 8 ∧ keyed.core.run.strip = none ∧ keyed.rests :=
  ⟨⟨hbmXlat 0x90078, by decide +kernel, lies_hbm 0x78 8 (by omega)⟩, ⟨hbmXlat 0x9007C, by decide +kernel, lies_hbm 0x7C 4 (by omega)⟩,
    by decide, by unfold State.mayAccess; decide +kernel, by decide +kernel, by unfold State.rests; decide +kernel⟩

theorem witness_access_miss : keyed.misses .read 0x78 8 0x90078 ∧ keyed.misses .write 0 8 0x90000 := by
  refine ⟨⟨hbmXlat 0x90078, by decide +kernel, rfl, rfl, rfl, by decide, by decide +kernel, by decide +kernel,
    by decide +kernel, by decide +kernel⟩, ⟨hbmXlat 0x90000, by decide +kernel, rfl, rfl, rfl, by decide,
    by decide +kernel, by decide +kernel, by decide +kernel, by decide +kernel⟩⟩

/-- A line of the L1 of core 0 that holds all of line 0x90000 of HBM, none of it dirty. -/
def cached : L1Line := ⟨0, 0x2400, 0, hbmXlat 0x90000, 0, 0, 0, 0, BitVec.allOnes 64, 0, 0, 0⟩
def caching : State := { base with caches := { base.caches with l1 := [cached] } }

theorem witness_access_hit : caching.attains .read true 0x3F 1 0x9003F ∧ caching.attains .write true 0 8 0x90000 :=
  ⟨⟨hbmXlat 0x9003F, by decide +kernel, Or.inr ⟨0x9003F, cached, by rfl, by rfl, by rfl, by decide, by rfl, by rfl,
      by decide +kernel, by decide +kernel, rfl⟩⟩,
   ⟨hbmXlat 0x90000, by decide +kernel, Or.inr ⟨0x90000, cached, by rfl, by rfl, by rfl, by decide, by rfl, by rfl,
      by decide +kernel, by decide +kernel, rfl⟩⟩⟩

theorem witness_release : stripped.core.run.strip.isSome = true ∧ (1 : Fin 8) ≠ 0 ∧ padded.settles true (nearAt 0) 8 (padStore 0) := by
  refine ⟨by decide +kernel, by decide, by decide +kernel, padXlat 0, by decide +kernel, ?_, fun x => by cases x⟩
  exact found_pad 0 8 (by omega)

/-- A store of the running coroutine waits at core 1's message slot. -/
def posting : State := { padded with others := [{ Core.reset 1 with
  queue := [.store 0 padded.core.run.cnum.toNat padded.core.run.inc.toNat [⟨0, [1], nearAt 0, 0, 0, 0⟩]] }] }

theorem witness_posted : posting.posted = true ∧ posting.core.run.strip = none ∧ posting.mayAccess (nearAt 0) 8 := by
  unfold State.mayAccess; decide +kernel

theorem witness_access_fails : base.translateAccess base.me .read true 0x10000 8 = .error .pageNotValid ∧
    base.translateAccess base.me .write true 0xFFFC 8 = .error .pageNotValid ∧ isDataCause .pageNotValid = false ∧
    base.mayAccess 0xFFFC 8 ∧ (0x7 : Word).toNat % 8 ≠ 0 ∧ (base.farReads none [(hbmXlat 0x9003C, 4), (hbmXlat 0x90040, 4)]) = [] ∧
    base.translateAccess base.me .read true 0x3C 8 = .ok [(hbmXlat 0x9003C, 4), (hbmXlat 0x90040, 4)] ∧
    (base.readParts base.issuer [(hbmXlat 0x9003C, 4), (hbmXlat 0x90040, 4)]).toOption.isSome = true := by
  unfold State.mayAccess; decide +kernel

/-- A channel whose watermark stands at its destination plus 64. -/
def flowing (st : ChanState) (contig : Bool) : State :=
  base.modCore (fun c => { c with chans := c.chans.set 0 { c.chans[0] with state := st, contig := contig, dst := 0x100, wp := 0x140 } })

theorem witness_wp : (0xF8 : Word).toNat + 8 ≤ ((flowing .idle true).core.chans[0]).dst.toNat ∧
    (0x138 : Word).toNat + 8 ≤ ((flowing .idle true).core.chans[0]).wp.toNat ∧
    ((flowing .inFlight true).core.chans[0]).wp.toNat < (0x139 : Word).toNat + 8 ∧
    ((flowing .inFlight true).core.chans[0]).state ≠ .idle ∧ ((flowing .inFlight false).core.chans[0]).contig = false ∧
    ((flowing .idle true).core.chans[0]).dst.toNat < (0x139 : Word).toNat + 8 ∧
    ((flowing .idle true).translateAccess base.me .read true 0x139 8).toOption.isSome = true := by decide +kernel

/-! Vector instructions. -/

/-- A configuration of the vector unit. -/
def vecs (ty : BitVec 4) (wmax : BitVec 2) (vl : BitVec 14) (rc : BitVec 8) : State :=
  base.modRun (fun c => { c with vtype := ty, wmax := wmax, vl := vl, rc := rc })

theorem witness_vector_issue : (vecs 0 2 512 1).issues [31, 1, 2] 1 ∧ (vecs 7 3 3 2).issues [1, 2, 3] 8 ∧
    (vecs 6 2 0 0).issues [1, 2] 4 ∧ (vecs 13 2 4 1).issues [1, 2] 1 ∧ (vecs 14 2 4 1).issues [1] 1 := by
  and_intros <;> decide +kernel

theorem witness_vector_types : (vecs 0 2 4 1).core.run.ty < 4 ∧ 4 ≤ (vecs 4 2 4 1).core.run.ty ∧ (vecs 7 2 4 1).core.run.ty < 8 ∧
    8 ≤ (vecs 8 2 4 1).core.run.ty ∧ (vecs 11 2 4 1).core.run.ty < 12 ∧ (vecs 13 2 4 1).core.run.ty < 14 ∧
    (vecs 8 2 4 1).core.run.ty < 11 ∧ (vecs 14 2 4 1).core.run.ty < 15 ∧ (vecs 3 3 4 1).core.run.ty ∈ [2, 3, 6, 7] ∧
    2 ≤ base.sys.svc.toNat ∧ (vecs 10 2 4 1).core.run.ty = 10 ∧ base.core.run.ecc = [] ∧ base.core.run.vs = ⟨0, 0⟩ := by decide +kernel

/-- Reduced service, in which FP32 is the only floating-point type. -/
theorem witness_reduced : ({ vecs 10 2 4 1 with sys := { base.sys with svc := 1 } } : State).sys.svc.toNat < 2 ∧
    (vecs 10 2 4 1).core.run.ty = 10 := by decide +kernel

theorem witness_mpop : (∀ r e, (vecs 6 2 2 1).inTile r e → (vecs 6 2 2 1).core.run.maskBit 0 r e = false) ∧
    (vecs 6 2 2 1).core.run.maskBit 7 0 0 = true ∧ (vecs 6 2 2 1).core.run.maskPos 0 0 < (vecs 6 2 2 1).core.run.vlmax (vecs 6 2 2 1).core.lanes ∧
    (vecs 6 2 2 1).inTile 0 1 := by
  refine ⟨fun r e h => ?_, by decide +kernel, by decide +kernel, by unfold State.inTile; decide +kernel⟩
  have h1 : r < 1 := h.1
  have h2 : e < 2 := h.2
  interval_cases r; interval_cases e <;> decide +kernel

theorem witness_issue_causes : (base.modCore (fun c => { c with lanemask := 0 })).core.lanes = 0 ∧
    base.core.run.nregs ≤ max (63 : Fin 64).val 1 ∧ (vecs 7 2 4 1).core.run.wb < (vecs 7 2 4 1).core.run.tyBytes ∧
    (vecs 6 2 513 1).core.run.vlmax 4 < (vecs 6 2 513 1).core.run.vl.toNat ∧ (vecs 6 2 513 1).core.run.wb ≥ (vecs 6 2 513 1).core.run.tyBytes ∧
    (vecs 8 2 4 1).core.run.vlmax 4 ≥ 4 := by decide +kernel

theorem witness_convert : typeBytes 4 = (vecs 0 2 4 1).core.run.tyBytes ∧ (vecs 0 2 4 1).core.run.tyBytes < typeBytes 2 ∧
    typeBytes 0 < (vecs 6 2 4 1).core.run.tyBytes ∧ (0 : Nat) ≠ 4 ∧ typeBytes 13 = (vecs 12 2 4 1).core.run.tyBytes := by decide +kernel

/-- A NaN among a block's elements, and a block of zeros. -/
theorem witness_quantise : (Fmt.f32.decode 0x7FC00000 matches .nan ..) = true ∧ Fmt.f32.rat 0 = some 0 := by
  refine ⟨by decide +kernel, ?_⟩
  have : Fmt.f32.decode 0 = .fin false 0 (-149) := by decide +kernel
  simp [Fmt.rat, this]

theorem witness_scan : (vecs 6 2 4 1).core.run.ty < 12 ∧ (vecs 10 2 4 1).core.run.ty < 12 ∧
    ((vecs 6 2 4 1).modRun (·.setVs 0 2)).core.run.vs ≠ ⟨0, 0⟩ := by decide +kernel

/-! Vector accesses: two elements of 4 bytes at the bottom of page 0, or in the own scratchpad. -/

def vnear : State := (holding padded 5 (nearAt 262136)).modRun (fun c => { c with vtype := 6, vl := 2, rc := 1 })

theorem vnear_els (r e : Nat) (h : vnear.inTile r e) : r = 0 ∧ (e = 0 ∨ e = 1) := by
  have h1 : r < 1 := h.1
  have h2 : e < 2 := h.2
  omega

theorem found_vnear (off : Nat) (h : off + 4 ≤ 262144) : vnear.found (padXlat off) 4 (padStore 0 + off) := by
  refine Or.inl ⟨Or.inl ⟨off, rfl, rfl, rfl, ?_, ?_⟩, fun x => by cases x⟩
  · rw [show vnear.core.padBytes = 262144 by decide +kernel]; exact h
  · rw [State.padPoisoned, show vnear.padPoison = [] by decide +kernel]; simp

theorem witness_vector_access : vnear.core.run.heldBytes = [] ∧ vnear.issues [1] 4 ∧ vnear.settled ∧ vnear.rests ∧
    (∀ acc : Access, acc = .read ∨ acc = .write → vnear.vreaches (vnear.attains acc false) on
      (fun r e => some (vnear.reg 5 + BitVec.ofNat 64 ((r * vnear.core.run.vl.toNat + e) * 4)))
      (fun _ e => padStore 0 + 262136 + 4 * e)) := by
  refine ⟨by decide +kernel, by unfold State.issues State.unhindered; decide +kernel, by unfold State.settled; decide +kernel,
    by unfold State.rests; decide +kernel, ?_⟩
  intro acc hacc r e A hin _ hA
  obtain ⟨rfl, he⟩ := vnear_els r e hin
  rcases hacc with rfl | rfl <;> rcases he with rfl | rfl <;> simp only [Option.some.injEq] at hA <;> subst hA
  · exact ⟨padXlat 262136, by decide +kernel, found_vnear _ (by omega)⟩
  · exact ⟨padXlat 262140, by decide +kernel, found_vnear 262140 (by omega)⟩
  · exact ⟨padXlat 262136, by decide +kernel, found_vnear _ (by omega)⟩
  · exact ⟨padXlat 262140, by decide +kernel, found_vnear 262140 (by omega)⟩

/-- The words of a shape register: one element at the base in word 0. -/
def shaped : State := vnear.modRun (fun c => { c with
  v := c.v.set 2 (BitVec.ofNat 65536 ((2 ^ 64 - 2 ^ 18) + 2 ^ 64 + 2 ^ 128 + 2 ^ 192)) })

theorem witness_shape : shaped.issues [1, 2] 4 ∧ VReg.get shaped.core.run.v[2] 56 8 = 0 ∧
    VReg.get shaped.core.run.v[2] 8 8 ≤ 2 ^ 32 ∧ VReg.get shaped.core.run.v[2] 16 8 = 1 ∧ VReg.get shaped.core.run.v[2] 24 8 = 1 := by
  unfold State.issues State.unhindered; decide +kernel

/-- Two elements across the end of page 0. -/
def edge : State := (holding base 5 0xFFFC).modRun (fun c => { c with vtype := 6, vl := 2, rc := 1 })

theorem witness_fault : (0, 1) ∈ edge.enumerated on (fun r e => some (edge.reg 5 + BitVec.ofNat 64 ((r * 2 + e) * 4))) ∧
    edge.translateAccess edge.me .read false 0x10000 4 = .error .pageNotValid ∧
    edge.translateAccess edge.me .write false 0x10000 4 = .error .pageNotValid ∧ isDataCause .pageNotValid = false ∧
    (edge.translateAccess edge.me .write false 0xFFFC 4).toOption.isSome = true ∧
    (0, 0) ∈ (holding edge 5 0x10000).enumerated on (fun r e => some (0x10000 + BitVec.ofNat 64 ((r * 2 + e) * 4))) := by
  decide +kernel

/-- Addresses of two elements of 8 bytes in register 2. -/
def vwaits : State := vnear.modRun (fun c => { c with wmax := 3, vl := 2, v := c.v.set 2 (BitVec.ofNat 65536 ((2 ^ 64 - 2 ^ 18) * (1 + 2 ^ 64))) })

theorem witness_vwait : vwaits.ordinary ∧ vwaits.core.run.ty ∈ [2, 3, 6, 7] ∧ vwaits.issues [2, 3] 8 ∧
    (∀ p ∈ vwaits.enumerated on (fun _ _ => some 0), vwaits.core.run.elem 2 8 p.1 p.2 % 4 = 0) ∧
    (vwaits.enumerated on (fun _ _ => some 0)).length = 2 ∧ vwaits.reaches .read false (nearAt 0) 4 (padStore 0) ∧
    vwaits.reaches .atomic false (nearAt 0) 4 (padStore 0) ∧
    vwaits.core.roomFits (vwaits.core.run.fullContext vwaits.core.lanes).blocks = true := by
  have hl : vwaits.lies (padXlat 0) 4 (padStore 0) := by
    refine Or.inl ⟨0, rfl, rfl, rfl, by decide +kernel, by decide +kernel⟩
  refine ⟨by unfold State.ordinary State.unhindered; decide +kernel, by decide +kernel, by unfold State.issues State.unhindered; decide +kernel,
    by decide +kernel, by decide +kernel, ⟨padXlat 0, by decide +kernel, hl⟩, ⟨padXlat 0, by decide +kernel, hl⟩, by decide +kernel⟩

theorem witness_strip : stripped.core.run.strip = some emptyStrip ∧ emptyStrip.entries + 2 ≤ 256 ∧
    base.enables on ∧ stripped.core.run.ty < 15 ∧ stripped.issues [1] 4 := by
  unfold State.enables State.issues State.unhindered; decide +kernel

/-! Batons. -/

theorem witness_bnew : (holding base 5 0x10).reg 5 = 0x10 ∧ base.core.run.tags.length < 4 ∧ ((2 ^ 40 : Nat) / 2 ^ 40 ≠ 0) ∧
    25 * 2 ^ 6 / 2 ^ 6 % 2 ^ 5 = 25 ∧ 24 * 2 ^ 6 / 2 ^ 40 = 0 ∧ base.liveRecords 0 < 262143 := by decide +kernel

/-- The records of a list live. -/
def spent (l : List Nat) : State := { base with batons := l.map (fun i => (i, bat)) }

theorem baton_spent (i : Nat) : ∀ l : List Nat, i ∈ l → (spent l).baton i = bat := by
  have hf : ∀ l : List Nat, i ∈ l → ((l.map (fun k => (k, bat))).find? (·.1 = i)).map (·.2) = some bat := by
    intro l hl
    induction l with
    | nil => cases hl
    | cons x xs ih =>
      by_cases hx : x = i
      · simp [hx]
      · rcases List.mem_cons.mp hl with e | e
        · exact absurd e.symm hx
        · simpa [List.find?, hx] using ih e
  intro l hl
  simp only [State.baton, spent, hf l hl, Option.getD_some]

/-- Every record of die 0 may be live. -/
theorem witness_bnew_none : ∀ i, 1 ≤ i → i ≤ 262143 → ((spent (List.range 262144)).baton (0 * 2 ^ 18 + i)).live = true := by
  intro i _ h
  rw [show 0 * 2 ^ 18 + i = i by omega, baton_spent i _ (List.mem_range.mpr (by omega))]
  rfl

theorem witness_owns : batoned.owns (batoned.reg 5) ∧ batoned.maySignal (batoned.reg 5) ∧ batoned.armedOn (batoned.reg 5) = false ∧
    (batoned.baton (handleKey (batoned.reg 5))).holds = 0 ∧ batoned.ordinary ∧ batoned.rests ∧ batoned.posted = false := by
  unfold State.owns State.maySignal State.ordinary State.unhindered State.rests; decide +kernel

theorem witness_bfree_busy : (batoned.modRun (fun c => { c with armed := some (hand, 0) })).armedOn hand = true ∧
    ({ batoned with batons := [(5, { bat with holds := 1 })] } : State).owns hand := by
  unfold State.owns; decide +kernel

theorem witness_arming : ((3 + 2 ^ 31 : BitVec 32) - (batoned.baton 5).count).toNat = 2 ^ 31 ∧
    ((0 : BitVec 32) - (batoned.baton 5).count).toNat ≠ 2 ^ 31 ∧ (0x7FFFFFFF : Word).toNat < 2 ^ 31 ∧
    2 ^ 31 ≤ (0x80000000 : Word).toNat := by decide +kernel

theorem witness_signals : ({ posting with batons := [(5, bat)] } : State).posted = true ∧
    ({ posting with batons := [(5, bat)] } : State).maySignal hand ∧ (0x80 : Word).toNat % 256 = 0x80 ∧
    ({ batoned with batons := [(5, { bat with err := 9 })] } : State).maySignal hand ∧
    (batoned.baton 5).err = 0 := by
  unfold State.maySignal; decide +kernel

/-- A coroutine without privilege, of another address space than the baton's owner. -/
def stranger : State := batoned.modRun (fun c => { c with priv := false, asid := 7 })

theorem witness_baton_checks : handleModule (BitVec.ofNat 64 (2 ^ 54)) = 1 ∧ base.isMember 1 = false ∧
    base.liveHere hand = false ∧ stranger.liveHere hand = true ∧ stranger.core.run.asid ≠ (stranger.baton 5).owner ∧
    stranger.core.run.priv = false ∧ (stranger.baton 5).opn = false := by decide +kernel

/-! Copy channels. -/

/-- A command of 64 bytes, or of 256, within the own scratchpad, and the channel that carries it. -/
def cmd (n : Nat) : RelayCmd := ⟨nearAt 0, nearAt 0x1000, n, none, 0, 0, 0, true, 0, 0, 4096⟩
def copying (st : ChanState) (n done : Nat) : State :=
  { padded.modCore (fun c => { c with chans := c.chans.set 0 ⟨st, false, false, .none, done, nearAt 0x1000, nearAt 0x1000, true, some (cmd n)⟩ }) with
    engines := [⟨0, 0, 0⟩] }

theorem witness_rcopy : ((copying .inFlight 64 0).core.chans[0]).state ≠ .idle ∧ (padded.core.chans[0]).state = .idle ∧
    (2 ^ 40 - 1 : Nat) < 2 ^ 40 ∧ padded.rests ∧ padded.ordinary ∧
    (∃ x, padded.translate padded.me .read false (nearAt 0) = .ok x ∧ ∀ p tag o, x.target ≠ .plane p tag o) ∧
    (∃ x, padded.translate padded.me .write false (nearAt 0x3FFFF) = .ok x ∧ ∀ p tag o, x.target ≠ .plane p tag o) ∧
    padded.translate padded.me .read false 0x10000 = .error .pageNotValid ∧
    padded.translate padded.me .write false 0x10000 = .error .pageNotValid := by
  refine ⟨by decide +kernel, by decide +kernel, by decide, by unfold State.rests; decide +kernel,
    by unfold State.ordinary State.unhindered; decide +kernel, ⟨padXlat 0, by decide +kernel, fun p t o h => by cases h⟩,
    ⟨padXlat 0x3FFFF, by decide +kernel, fun p t o h => by cases h⟩, by decide +kernel, by decide +kernel⟩

/-- A shape record of one dimension of 64 bytes. -/
def recording : State := padded.modRun (fun c => { c with v := c.v.set 2 (BitVec.ofNat 65536
  ((2 ^ 64 - 2 ^ 18) + (2 ^ 64 - 2 ^ 18 + 0x1000) * 2 ^ 64 + 64 * 2 ^ 128 + 2 ^ 192 + 2 ^ 256 + 2 ^ 320 + 2 ^ 768)) })

theorem witness_rcopyShape : recording.issues [2] 0 ∧ (let w := fun i => VReg.get recording.core.run.v[2] (8 * i) 8
    1 ≤ w 12 ∧ w 12 ≤ 4 ∧ w 2 = 64 ∧ w 3 = 1 ∧ w 4 = 1 ∧ w 5 = 1 ∧ w 13 = 0 ∧ w 14 = 0 ∧ w 15 = 0 ∧ w 2 * w 3 * w 4 * w 5 = 64) := by
  unfold State.issues State.unhindered; decide +kernel

theorem witness_cancel : ((copying .inFlight 64 0).core.chans[0]).cancels = true ∧
    ((copying .inFlight 64 64).core.chans[0]).cancels = false ∧ (padded.core.chans[1]).cancels = false := by decide +kernel

theorem witness_relay_chunk : let s := { copying .inFlight 64 0 with engines := [] }
    (s.core.chans[0]).cmd = some (cmd 64) ∧ (s.core.chans[0]).done ≠ 64 ∧ s.chanWaits 0 0 = true ∧
    (∀ x, x < 768 → x ≠ 0 → s.chanWaits 0 x = false) ∧
    ({ s with engines := (List.range 8).map (fun j => ⟨j, 1, j⟩) } : State).engines.length = 8 := by
  refine ⟨by decide +kernel, by decide +kernel, by decide +kernel, ?_, by decide +kernel⟩
  decide +kernel

theorem witness_relay_beat : let s := copying .inFlight 64 0
    s.engineOf 0 = some 0 ∧ (cmd 64).place 0 = (nearAt 0, nearAt 0x1000, 64) ∧ s.mem.wf = true ∧
    isNear (nearAt 0) = true ∧ isNear (nearAt 0x1000) = true ∧
    s.translate ⟨0, true, some 0, 0, some 0⟩ .read false (nearAt 0) = .ok (padXlat 0) ∧
    s.translate ⟨0, true, some 0, 0, some 0⟩ .write false (nearAt 0x1000) = .ok (padXlat 0x1000) ∧
    min (min (cmd 256).len 4096) (min (128 - (nearAt 0x1000).toNat % 128) (256 - 0)) = 128 ∧
    s.lies (padXlat 0) 64 (padStore 0) ∧ s.lies (padXlat 0x1000) 64 (padStore 0 + 0x1000) := by
  refine ⟨by decide +kernel, by decide +kernel, by decide +kernel, by decide, by decide, by decide +kernel, by decide +kernel,
    by decide +kernel, Or.inl ⟨0, rfl, rfl, rfl, by decide +kernel, by decide +kernel⟩,
    Or.inl ⟨0x1000, rfl, rfl, rfl, by decide +kernel, by decide +kernel⟩⟩

theorem witness_relay_ends : ((copying .inFlight 64 64).core.chans[0]).done = 64 ∧
    ((copying .cancelling 64 32).core.chans[0]).state = .cancelling := by decide +kernel

/-! Active messages. -/

/-- A message record at offset 0 of the own scratchpad, for core 1, without a reply. -/
def mailing : State := { holding padded 5 (nearAt 0) with mem := (holding padded 5 (nearAt 0)).mem.write (padStore 0) (leBytes 8 1 ++ leBytes 8 (2 ^ 63)) }

theorem witness_amsend : mailing.mem.wf = true ∧ mailing.rests ∧ mailing.ordinary ∧ mailing.seenNat (padStore 0) 8 = 1 ∧
    mailing.seenNat (padStore 0 + 8) 8 = 2 ^ 63 ∧ mailing.seenNat (padStore 0 + 16) 8 = 0 ∧
    (mailing.coreAt 1).queue.length < 64 ∧ mailing.mayAccess (nearAt 0) 64 ∧ (nearAt 0).toNat % 64 = 0 ∧
    mailing.translateAccess mailing.me .read true (nearAt 0) 64 = .ok [(padXlat 0, 64)] := by
  and_intros <;> decide +kernel

def letter : AMsg := ⟨1, 0, 0, 0, 3, none, 0, [1, 2, 3, 4, 5]⟩
def serving (q : List SlotReq) : State := padded.modCore (fun c => { c with queue := q, handlers := c.handlers.set 3 (some (0, 0x40)) })

theorem witness_full_queue : 64 ≤ ((serving (List.replicate 64 (.message letter))).coreAt 0).queue.length := by decide +kernel

theorem witness_handler : (serving [.message letter]).core.slot = none ∧ (serving [.message letter]).core.inService = true ∧
    (serving [.message letter]).core.handlers[Fin.ofNat 16 letter.handler] = some (letter.asid, 0x40) ∧ letter.args.length = 5 ∧
    padded.core.handlers[Fin.ofNat 16 letter.handler] = none ∧ letter.handler < 16 := by decide +kernel

theorem witness_slot_store : (serving [.store 1 0 0 [⟨262143, [7], nearAt 262143, 0, 0, 0⟩]]).core.slot = none ∧
    262143 < (serving []).core.padBytes ∧ (serving []).core.inService = true := by decide +kernel

/-- Core 1 waits for the answer of core 0's slot. -/
def asking : State := { serving [.access 1 0 0 4 [⟨0, 0, 8, none⟩]] with
  others := [{ Core.reset 1 with live := .running, run := { Coro.fresh 4 with flight := some { id := 4, asked := 1 } } }] }

theorem witness_slot_access : ((asking.coreAt 1).current.map (·.cnum)) = some 0 ∧ ((asking.coreAt 1).current.map (·.inc)) = some 0 ∧
    ((asking.coreAt 1).current.bind (·.flight)) = some { id := 4, asked := 1 } ∧ asking.padPoisoned (padStore 0) 8 = false ∧
    asking.core.slot = none := by decide +kernel

def handling : State := padded.modCore (fun c => { c with slot := some ⟨c.run, c.live, letter, 0, none⟩ })

theorem witness_slot_ends : handling.core.slot.isSome = true ∧ padded.core.slot = none ∧ (0x33 : Nat) < 2 ^ 64 := by decide +kernel

/-! The switch tier: an allocation of one unit of 64 KiB on plane 2, generation tag 0, of tenant 0. -/

def grantOf (st : AllocState) (left : Bool) : Alloc := ⟨2, 0, 0, 1, 0, 0, false, st, left, none⟩
def tiered (l : List Alloc) : State := { padded with
  sys := { padded.sys with fabtr := true }
  swRegs := { padded.swRegs with up := BitVec.allOnes 18, tid := [(0, (true, 0))] }
  planes := (padded.planes.set 2 { Plane.reset with up := true, quotas := [(0, 16)] }).set 3 { Plane.reset with up := true }
  allocs := l }

/-- Plane 17 not in service, and the fabric not trained. -/
def untiered : State := { base with sys := { base.sys with fabtr := false }, planes := base.planes.set 17 { Plane.reset with up := false } }

theorem witness_switch_statuses : untiered.sys.fabtr = false ∧ untiered.core.run.priv = true ∧ (tiered []).sys.fabtr = true ∧ base.core.run.priv = true ∧
    base.tenantOf (base.slotOf 0) = none ∧ (tiered []).tenantOf ((tiered []).slotOf 0) = some 0 ∧
    (0x3E : Word).toNat % 32 = 30 ∧ (63 : Word).toNat < 64 ∧ (tiered []).regardsUp 2 = true ∧ ((tiered []).plane 2).up = true ∧
    (untiered.plane 17).up = false := by decide +kernel

theorem witness_swalloc : (tiered []).regardsUp 2 = true ∧ ((tiered []).plane 2).up = true ∧ 0 < (2 ^ 20 : Word).toNat ∧
    (2 ^ 20 : Word).toNat ≤ 2 ^ 40 ∧ (tiered []).usage 2 0 + 16 ≤ (tiered []).quota 2 0 ∧
    (∀ x ∈ (tiered []).allocs, x.holds 2 = false) := by decide +kernel

/-- Planes 2 and 3 with quotas for tenant 0, and plane 2 taken whole by tenant 1. -/
def paired (l : List Alloc) : State := { tiered l with planes := (tiered l).planes.set 3 { Plane.reset with up := true, quotas := [(0, 16)] } }
def taken : Alloc := ⟨2, 0, 0, 2 ^ 26, 0, 1, false, .live, false, none⟩

theorem witness_swalloc_mirrored : (∀ k ∈ [2, partnerOf 2], (paired []).regardsUp k = true ∧ ((paired []).plane k).up = true ∧
      (paired []).usage k 0 + 16 ≤ (paired []).quota k 0) ∧ (0x22 : Word).toNat % 32 = 2 ∧ (0x22 : Word).getLsbD 5 = true ∧
    (paired []).allocs = [] ∧ (tiered []).usage 3 0 + 16 > (tiered []).quota 3 0 := by decide +kernel

theorem witness_swalloc_nospace : (tiered [taken]).usage 2 0 + 16 ≤ (tiered [taken]).quota 2 0 ∧ taken.holds 2 = true ∧
    ∀ base, base + 16 ≤ 2 ^ 26 → ¬ (taken.base + taken.units ≤ base ∨ base + 16 ≤ taken.base) := by
  refine ⟨by decide +kernel, by decide +kernel, fun base h => ?_⟩
  show ¬ (0 + 2 ^ 26 ≤ base ∨ base + 16 ≤ 0)
  omega

theorem witness_swalloc_any : let order (s : State) : List Nat :=
      ((List.range 18).map (fun i => (((s.lastGrant.map (· + 1)).getD 0) + i) % 18)).filter s.regardsUp
    order (tiered []) = [0, 1] ++ 2 :: (List.range 15).map (· + 3) ∧ (∀ k ∈ [0, 1], ¬ (tiered []).usage k 0 + 16 ≤ (tiered []).quota k 0) ∧
    (∀ k ∈ order (tiered []), ¬ (tiered []).usage k 0 + 17 ≤ (tiered []).quota k 0) ∧
    (order (tiered [])).getLast? = some 17 ∧ order { tiered [] with swRegs := { base.swRegs with up := 0 } } = [] := by decide +kernel

theorem witness_swfree_refused :
    (let x := grantOf .lost false
     let s := holding (tiered [x]) 5 x.handle
     s.allocs.find? (fun y => y.handle == s.reg 5) = some x ∧ x.onPrimary = false ∧ x.waits = none) ∧
    (let x : Alloc := { grantOf .live false with tenant := 1 }
     let s := holding (tiered [x]) 5 x.handle
     s.allocs.find? (fun y => y.handle == s.reg 5) = some x ∧ s.tenantOf (s.slotOf 0) ≠ some x.tenant) ∧
    (let x : Alloc := { grantOf .live false with plane := 17 }
     let s := holding { tiered [x] with planes := untiered.planes } 5 x.handle
     s.allocs.find? (fun y => y.handle == s.reg 5) = some x ∧ x.onPrimary = true ∧ (s.plane 17).up = false) := by decide +kernel

theorem witness_swfree : let x := grantOf .live false
    let s := holding (tiered [x]) 5 x.handle
    s.allocs.find? (fun y => y.handle == s.reg 5) = some x ∧ (s.reg 5).toNat / 2 ^ 58 % 32 = 2 ∧ s.regardsUp 2 = true ∧
    (s.plane 2).up = true ∧ s.mem.wf = true ∧ x.waits = none ∧ x.state = .live := by decide +kernel

def switching (write : Bool) (off len : Nat) (key : Option Nat) (op : Option (AtomOp × Nat × Nat)) : SwitchReq :=
  ⟨2, 0, off, 0, key, write, List.replicate len 7, len, op⟩

theorem witness_switch_access : let s := tiered [grantOf .mirrored false]
    (s.plane 2).up = true ∧ (s.plane 2).gen.toNat % 32 = 0 ∧ (s.plane 2).locks = [] ∧ s.mem.wf = true ∧
    s.allocs.find? (fun y => y.plane == 2 && y.listed && y.covers 60) = some (grantOf .mirrored false) ∧
    (switching true 60 4 none none).offset % 64 + (switching true 60 4 none none).len ≤ 64 ∧
    (s.plane 2).sealOf 0 = none ∧ (s.plane 3).sealOf 0 = none ∧ (switching true 0 64 (some 0) none).data.length = 64 ∧
    s.poison.contains (planeStore 2 / 64 + 0) = false ∧ (untiered.plane 17).up = false ∧
    (switching true 0 4 (some 0) none).key.isSome = true ∧ (switching true 8 8 none (some (.add, 1, 0))).len = 8 ∧
    (s.plane 2).gen.toNat % 32 ≠ 31 := by decide +kernel

theorem witness_failover : let s := tiered [grantOf .mirrored false]
    (s.plane 3).up = true ∧ (s.plane 3).locks = [] ∧ s.agenda = [] ∧ partnerOf 2 = 3 ∧
    s.allocs.find? (fun y => y.plane == 2 && y.tag == 0 && y.onPartner && y.covers 60) = some (grantOf .mirrored false) ∧
    (tiered [grantOf .partnerOnly true]).allocs.find? (fun y => y.plane == 2 && y.listed && y.covers 0) =
      some (grantOf .partnerOnly true) := by decide +kernel

/-- An OPEN baton for the changes of the planes, of which the module regards none as up. -/
def changing : State := { batoned with swRegs := { batoned.swRegs with baton := hand, up := 0 }, batons := [(5, { bat with opn := true })] }

theorem witness_planes : let s := tiered [grantOf .mirrored false]
    (untiered.plane 17).up = false ∧ (s.plane 3).up = true ∧ s.allocs.any (fun y => y.plane == partnerOf 3 && y.onPartner && y.covers 0) = true ∧
    s.allocs.any (fun y => y.plane == partnerOf 3 && y.onPartner && y.covers 65536) = false ∧ s.liveHere s.swRegs.baton = false ∧
    changing.liveHere changing.swRegs.baton = true ∧ (changing.baton (handleKey changing.swRegs.baton)).opn = true ∧ (s.plane 2).held = [] ∧
    (s.plane 2).gen.toNat ≠ 1 ∧ s.regardsUp 2 = true ∧ changing.regardsUp 2 = false := by decide +kernel

/-! The matrix unit. -/

/-- A grant of M = N = 16, K = 32 and one type. -/
def granted (t : Nat) : State := (holding padded 5 (nearAt 0)).modRun (fun c => { c with
  vtype := 10, wmax := 2, vl := 8, rc := 16, mshape := BitVec.ofNat 23 (t * 2 ^ 19 + 32 * 2 ^ 12 + 16 * 2 ^ 6 + 16) })

theorem witness_grant : padded.unhindered ∧ (8 : Nat) ∈ [4, 8, 9, 12, 13, 14, 15] ∧ (5 : Nat) ∉ [4, 8, 9, 12, 13, 14, 15] := by
  unfold State.unhindered; decide +kernel

/-- A table of one segment that ends at 5. -/
def segmented : State := { padded.modRun (fun c => { c with msegNseg := 1, msegEn := true }) with mem := padded.mem.write (padStore 0) [5] }

theorem witness_segment : segmented.padHolds 0 4 ∧ segmented.padNat 0 4 = 5 ∧ segmented.core.run.msegCur = 0 ∧
    ¬ ((0 : Nat) ≤ 5 ∧ 5 < segmented.padNat 0 4) ∧ segmented.segment 4 = .ok (some (0, 0, 5)) ∧
    segmented.segment 5 = .ok none := by
  unfold State.padHolds; decide +kernel

theorem witness_product : (granted 14).core.run.mType = 14 ∧ (granted 14).core.run.mM = 16 ∧ (granted 14).core.run.mN = 16 ∧
    (granted 14).core.run.mK = 32 ∧ 16 ≤ (granted 14).core.run.rgroups (granted 14).core.lanes ∧ 16 ≤ 8 * (granted 14).core.lanes ∧
    (granted 14).issues [1, 2] 1 ∧ (granted 8).issues [1, 2] 2 ∧ (granted 4).issues [1] 1 ∧ (granted 14).padHolds 0 (128 * 16) ∧
    2 ^ 64 - 2 ^ 18 ≤ ((granted 14).reg 5).toNat ∧ ((granted 14).reg 5).toNat % 128 = 0 ∧ (granted 14).core.run.msegEn = false ∧
    VReg.get (granted 14).core.run.v[1] 60 4 = 0 ∧ (granted 14).padHolds 0 128 := by
  and_intros <;> decide +kernel

/-- With the segment table on, rows 1 and after leave row 0's segment at row 2. -/
def gathering : State := { (granted 14).modRun (fun c => { c with msegNseg := 1, msegEn := true, v := c.v.set 1 (BitVec.ofNat 65536 (9 * 2 ^ 64)) }) with
  mem := padded.mem.write (padStore 0) [5] }

theorem witness_gather : gathering.segment (VReg.get gathering.core.run.v[1] 0 4) = .ok (some (0, 0, 5)) ∧
    VReg.get gathering.core.run.v[1] 4 4 < 5 ∧ ¬ VReg.get gathering.core.run.v[1] 8 4 < 5 ∧ gathering.issues [1, 2] 1 ∧
    gathering.padHolds 0 128 ∧ 2 ≤ gathering.core.run.mM := by
  and_intros <;> decide +kernel

theorem witness_matrix_checks : padded.core.run.mM = 0 ∧ (12 : Nat) ≠ (granted 14).core.run.mType ∧
    ((granted 14).reg 6).toNat < 2 ^ 64 - 2 ^ 18 ∧ (nearAt 64).toNat % 128 ≠ 0 ∧ padded.issues [1, 2] 1 := by
  refine ⟨by decide +kernel, by decide +kernel, by decide +kernel, by decide +kernel, ?_⟩
  unfold State.issues State.unhindered; decide +kernel

/-- A grant of one row, whose words lie from the bottom of the own scratchpad on. -/
def rowed : State := (holding padded 5 (nearAt 0)).modRun (fun c => { c with
  mshape := BitVec.ofNat 23 (14 * 2 ^ 19 + 32 * 2 ^ 12 + 1 * 2 ^ 6 + 1) })

theorem rowed_translates : ∀ j, j < 32 → ∀ acc ∈ [Access.read, .write],
    rowed.translateAccess rowed.me acc false (rowed.reg 5 + BitVec.ofNat 64 0 * rowed.core.run.rstride + BitVec.ofNat 64 (4 * j)) 4 =
      .ok [(padXlat (4 * j), 4)] := by decide +kernel

theorem witness_accumulator : rowed.core.run.mM = 1 ∧ rowed.core.run.ecc = [] ∧ rowed.unhindered ∧ rowed.core.run.heldBytes = [] ∧
    rowed.mem.wf = true ∧ rowed.core.run.strip = none ∧ rowed.issues [1] 2 ∧
    (∀ acc, acc = .read ∨ acc = .write → ∀ j, j < 32 → rowed.attains acc false
      (rowed.reg 5 + BitVec.ofNat 64 0 * rowed.core.run.rstride + BitVec.ofNat 64 (4 * j)) 4 (padStore 0 + 4 * j)) := by
  refine ⟨by decide +kernel, by decide +kernel, by unfold State.unhindered; decide +kernel, by decide +kernel, by decide +kernel,
    by decide +kernel, by unfold State.issues State.unhindered; decide +kernel, fun acc h j hj => ⟨padXlat (4 * j), ?_, ?_⟩⟩
  · exact rowed_translates j hj acc (by rcases h with rfl | rfl <;> simp)
  · refine Or.inl ⟨Or.inl ⟨4 * j, rfl, rfl, rfl, ?_, ?_⟩, fun x => by cases x⟩
    · rw [show rowed.core.padBytes = 262144 by decide +kernel]; omega
    · rw [State.padPoisoned, show rowed.padPoison = [] by decide +kernel]; simp

theorem witness_attention : (granted 14).core.run.ty = 10 ∧ (granted 14).issues [1, 2, 3] 4 ∧ (granted 14).issues [1] 0 ∧
    (granted 14).core.run.rc.toNat ≤ 64 ∧ 8 * (granted 14).core.run.rc.toNat ≤ 128 * (granted 14).core.run.rgroups (granted 14).core.lanes ∧
    0 < (granted 14).core.run.vl.toNat := by
  and_intros <;> decide +kernel

/-! Control registers, configuration and the split. -/

def lowly : State := base.modRun (fun c => { c with priv := false, ceil := 3 })

theorem witness_cset : lowly.enables on ∧ lowly.core.run.priv = false ∧ lowly.core.run.ceil.toNat < (4 : BitVec 5).toNat ∧
    ¬ (7 : Word).toNat % 8 < 5 ∧ (16 : BitVec 5).toNat ≤ 16 ∧ base.core.coros.any (fun k => k.place == .spill) = false := by
  unfold State.enables; decide +kernel

theorem witness_split : stripped.core.run.strip.isSome = true ∧ padded.core.run.strip = none ∧ posting.core.run.strip = none ∧
    posting.posted = true ∧ padded.core.spways = 8 ∧ (8 : Fin 16).val ≤ 8 ∧ padded.core.queue = [] ∧
    (∀ l ∈ caching.caches.l1, l.dirty = 0) ∧ caching.posted = false ∧ base.core.lanes ≠ 0 := by decide +kernel

/-! Position translation. -/

/-- One position, 0, of stream 0, whose page is translated or not. -/
def positions (ptb : List PtbEntry) (handler : Word) : State :=
  (base.modRun (fun c => { c with vtype := 3, wmax := 3, vl := 1, rc := 1 })).modCore (fun c => { c with
    ptb := ptb, shadow := c.shadow.set 7 handler })

theorem witness_pxl : (positions [⟨0, 0, 0, 0x1000, 0⟩] 0).issues [1, 2] 8 ∧ (positions [] 0).core.run.vtype = 3 ∧
    ((positions [⟨0, 0, 0, 0x1000, 0⟩] 0).core.ptbFind 0 0 0).isSome = true ∧ (positions [] 0).core.ptbFind 0 0 0 = none ∧
    (positions [] 0).inTile 0 0 ∧ (positions [] 0).core.run.active on 0 0 = true ∧ (positions [] 0).core.pxLast = none ∧
    (positions [] 0).core.shadow[7] = 0 ∧ (positions [] 0x40).core.shadow[7] ≠ 0 ∧ (positions [] 0).core.ptb.length < 64 := by
  unfold State.issues State.unhindered State.inTile; decide +kernel

def missing : State := base.modCore (fun c => { c with px := some ⟨c.run.s, 0x40, 3, 1, 0, none, 0⟩ })

theorem witness_pxret : missing.core.px.isSome = true ∧ missing.core.slot = none ∧ missing.core.live = .running ∧
    base.core.px = none := by decide +kernel

/-! Stream records: one at the bottom of page 0, which names slots from 0x100 on and a state at 0x400. -/

def sealings : List (Nat × KeyMat) := (List.range 128).map (fun i => (0x9000 + i, none)) ++ base.sealKeys
def attending (r : Nat) (cs : List Cleanup) (bs : List (Nat × Baton)) : State :=
  { base with sealKeys := sealings, mem := base.mem.write 0x90000 (leBytes 128 r), cleanups := cs, batons := bs }
def streaming (r : Nat) : State := attending r [] []

theorem sealings_find : ∀ b, b < 128 → (sealings.find? (·.1 = 0x9000 + b)).map (·.2) = some none := by decide +kernel

theorem blockKey_attending (r : Nat) (cs : List Cleanup) (bs : List (Nat × Baton)) (a : Nat) (ha : a < 2048) :
    (attending r cs bs).blockKey (0x90000 + a) = some ((attending r cs bs).keyMat 0) := by
  have h := sealings_find (a / 16) (by omega)
  have e : (0x90000 + a) / 16 = 0x9000 + a / 16 := by omega
  simp [State.keyMat, State.blockKey, attending, e, h]

theorem lies_attending (r : Nat) (cs : List Cleanup) (bs : List (Nat × Baton)) (off n : Nat) (h : off + n ≤ 2048) :
    (attending r cs bs).lies (hbmXlat (0x90000 + off)) n (0x90000 + off) := by
  refine Or.inr ⟨0x90000 + off, rfl, rfl, rfl, rfl, ?_, ?_, by intro l hl; cases hl⟩
  · rw [State.poisoned, show (attending r cs bs).poison = [] by rfl]; simp
  · intro i hi
    rw [Nat.add_assoc]; exact blockKey_attending r cs bs (off + i) (by omega)

theorem witness_record : (streaming 0).holdsRecord 0 0x90000 ∧ (streaming (5 + 2 ^ 160)).holdsRecord 0 0x90000 :=
  ⟨⟨by decide, by decide +kernel, by decide +kernel, hbmXlat 0x90000, by decide +kernel, rfl, lies_attending 0 [] [] 0 128 (by omega)⟩,
    ⟨by decide, by decide +kernel, by decide +kernel, hbmXlat 0x90000, by decide +kernel, rfl, lies_attending _ [] [] 0 128 (by omega)⟩⟩

theorem witness_stream : (streaming 0).rests ∧ (streaming 0).mem.readNat 0x90000 128 = 0 ∧ (streaming 0).cleanups = [] ∧
    (streaming 0).enables on := by
  unfold State.rests State.enables; decide +kernel

/-- Records: GCUR at most 62 beyond PCUR, or 65 beyond it; EPOCH, PEND and TBATON 0. -/
theorem witness_cursors : fieldOf 5 0 4 = 5 ∧ fieldOf 5 4 4 + 1 < fieldOf 5 0 4 ∧ fieldOf 0 0 4 ≤ fieldOf 0 4 4 + 1 ∧
    fieldOf 65 4 4 < fieldOf 65 0 4 - 63 ∧ fieldOf 65 24 8 = 0 ∧ fieldOf 0 18 2 = 0 ∧ 2 ^ 32 ≤ (0x100000000 : Word).toNat := by decide +kernel

/-- A record with cursor 0, its slots at `ring` and a mirror at 0x200, a state of 128 bytes at 0x400, a table at 0x600, the
flags `fl` and the failure `fail`. -/
def streamRecord (ring fl fail : Nat) : Nat :=
  fl * 2 ^ 160 + fail * 2 ^ 176 + 0x400 * 2 ^ 256 + 128 * 2 ^ 320 + ring * 2 ^ 384 + 0x200 * 2 ^ 448 + 0x600 * 2 ^ 512

def cleaning (r oldG : Nat) (st : CleanStage) : Cleanup := ⟨0x90000, 0, 0, 0, oldG, hand, 0, 0, true, 0, 0, st, r⟩
def cleanable (r oldG : Nat) (st : CleanStage) : State := attending r [cleaning r oldG st] [(5, bat)]

def cleaner : Who := ⟨0, true, none, 0, none⟩

/-- A clean-up whose turn comes: on a stalled record, with no page above the cursor or with one, and of a size out of range. -/
theorem witness_cleanup_start : (cleanable (streamRecord 0x100 0 0) 0 .queued).cleanups.find? (·.record == 0x90000) =
      some (cleaning (streamRecord 0x100 0 0) 0 .queued) ∧
    (∀ r st, (cleanable r 0 st).recordReads (cleaning r 0 st) ((cleanable r 0 st).mem.readNat 0x90000 128)) ∧
    (∀ r ∈ [streamRecord 0x100 0 3, streamRecord 0x100 0 0, 0], (cleanable r 0 .queued).mem.readNat 0x90000 128 = r) ∧
    (cleanable 0 0 .queued).mem.wf = true ∧ fieldOf (streamRecord 0x100 0 0) 22 1 = 0 ∧ fieldOf (streamRecord 0x100 0 3) 22 1 ≠ 0 ∧
    fieldOf (streamRecord 0x100 0 0) 21 1 ≤ 24 ∧ fieldOf (streamRecord 0x100 0 0) 40 4 = 128 ∧ fieldOf 0 40 4 = 0 ∧
    (cleaning 0 0 .queued).oldG / 16 < 1 ∧ 1 ≤ (cleaning 0 16 .queued).oldG / 16 :=
  ⟨by decide +kernel, fun _ _ => ⟨rfl, rfl, fun i hi => blockKey_attending _ _ _ i (by omega)⟩, by and_intros <;> decide +kernel⟩

/-- Its parts: a page to detach, and one beyond the last; tags that are the cursor or not; beats, and the place after them. -/
theorem witness_cleanup_parts : let at_ (st : CleanStage) := cleanable (streamRecord 0x100 1 0) 16 st
    fieldOf (streamRecord 0x100 1 0) 64 8 = 0x600 ∧ (at_ (.detach 0)).finds cleaner .atomic 0x600 8 0x90600 ∧ (1 + 0 ≤ 16 / 16 ∧ 16 / 16 < 1 + 1) ∧
    (at_ (.tag false true)).finds cleaner .read 0x100 8 0x90100 ∧
    (cleanable (streamRecord 0x20 1 0) 16 (.tag false false)).finds cleaner .read 0x20 8 0x90020 ∧
    (at_ (.tag true false)).finds cleaner .read 0x200 8 0x90200 ∧ fieldOf (streamRecord 0x100 1 0) 20 1 % 2 = 1 ∧
    fieldOf (streamRecord 0x20 0 0) 20 1 % 2 ≠ 1 ∧ (at_ (.copy false 0)).findsBeat cleaner .read 0x180 0x90180 ∧
    (at_ (.copy false 0)).findsBeat cleaner .write 0x400 0x90400 ∧ 0 < fieldOf (streamRecord 0x100 1 0) 40 4 / 128 :=
  ⟨by decide +kernel, ⟨hbmXlat 0x90600, by decide +kernel, lies_attending _ _ _ 0x600 8 (by omega)⟩, by decide,
    ⟨hbmXlat 0x90100, by decide +kernel, lies_attending _ _ _ 0x100 8 (by omega)⟩,
    ⟨hbmXlat 0x90020, by decide +kernel, lies_attending _ _ _ 0x20 8 (by omega)⟩,
    ⟨hbmXlat 0x90200, by decide +kernel, lies_attending _ _ _ 0x200 8 (by omega)⟩, by decide +kernel, by decide +kernel,
    ⟨hbmXlat 0x90180, hbmXlat 0x901C0, by decide +kernel, lies_attending _ _ _ 0x180 64 (by omega), lies_attending _ _ _ 0x1C0 64 (by omega)⟩,
    ⟨hbmXlat 0x90400, hbmXlat 0x90440, by decide +kernel, lies_attending _ _ _ 0x400 64 (by omega), lies_attending _ _ _ 0x440 64 (by omega)⟩,
    by decide +kernel⟩

theorem witness_cleanup_tags : (cleanable (streamRecord 0x100 1 0) 0 (.tag false true)).mem.readNat 0x90100 8 = 0 ∧
    (cleanable (streamRecord 0x20 1 0) 0 (.tag false false)).mem.readNat 0x90020 8 ≠ 0 := by decide +kernel

/-- A clean-up that fails, with and without room for its record. -/
theorem witness_cleanup_fails : let s := cleanable 0 0 .failed
    let q : FaultQueue := { s.fqAt 0 with en := true, base := 0x100 }
    (s.fqAt 0).writable = false ∧ (s.fqAt 0).lost ≠ 0xFFFF ∧ ((s.setFq 0 q).fqAt 0).writable = true ∧ ((s.setFq 0 q).fqAt 0).baton = 0 ∧
    (s.setFq 0 q).inSpillRegion 0x100000 = false ∧ (s.setFq 0 q).inSpillRegion (0x100000 + 63) = false ∧
    hbmStore 0x90000 + 128 ≤ 0x100000 ∧ s.liveHere hand = true := by decide +kernel

/-! Address spaces, fences and maintenance. -/

theorem witness_asid : base.asidEn = true ∧ State.reset.asidEn = false ∧ tablePlace 0x80000 = true ∧
    tablePlace (2 ^ 51) = false ∧ base.hbmWord 0 % 4 = 1 ∧ base.hbmWord 8 % 4 = 0 ∧ base.inSpillRegion 0 = false ∧
    base.inSpillRegion 15 = false ∧ (base.maint.filter (fun m => m.1 == 0)).length < 16 ∧ canonical (nearAt 0) = true ∧
    canonical 0x0080000000000000 = false ∧ base.rests ∧
    ¬ (({ base with maint := List.replicate 16 (0, ⟨.glob, 0⟩) } : State).maint.filter (fun m => m.1 == 0)).length < 16 := by
  and_intros <;> decide +kernel

/-- The cached line with its first word stored to. -/
def dirtied : State := { keyed with caches := { keyed.caches with l1 := [{ cached with dirty := 0xF }] } }

theorem witness_fence : stripped.core.run.strip.isSome = true ∧ dirtied.core.run.strip = none ∧ dirtied.posted = false ∧
    posting.posted = true ∧ base.rests ∧ dirtied.mem.wf = true ∧ stripped.posted = false ∧
    (∀ l ∈ dirtied.caches.l1, l.line < 2 ^ 54 ∧ l.bad = 0 ∧ (∃ pa, l.x.target = .hbm pa) ∧
      (∀ b, b < 4 → dirtied.blockKey (64 * l.line + 16 * b) = some (dirtied.keyMat l.x.key)) ∧
      ∀ m ∈ dirtied.caches.l1, m.line = l.line → m = l) := by
  and_intros <;> try decide +kernel
  intro l hl
  cases List.mem_singleton.mp hl
  refine ⟨by decide +kernel, by decide, ⟨0x90000, rfl⟩, ?_, fun m hm _ => List.mem_singleton.mp hm⟩
  show ∀ b, b < 4 → dirtied.blockKey (64 * 0x2400 + 16 * b) = some (dirtied.keyMat 0)
  decide +kernel

/-- The entry of address space 1 is Retiring, and core 0 holds a translation of it. -/
def retiring : State := { batoned with
  mem := batoned.mem.write 8 [2], maint := [(0, ⟨.retire 1, hand⟩), (0, ⟨.va 0 0, hand⟩)]
  core := { batoned.core with tlb := [⟨1, false, 0, 1, 1⟩] } }

theorem witness_maintenance : (∀ c ∈ retiring.cores, ∀ k ∈ c.allCoros, k.strip = none ∧ k.pending = [] ∧ k.flight = none) ∧
    (∀ l ∈ retiring.caches.l1, l.loose = 0) ∧ retiring.hbmWord 8 % 4 = 2 ∧
    retiring.maint.filter (fun m => m.2.retires == some 1) = [(0, ⟨.retire 1, hand⟩)] ∧
    (retiring.maint.filter (fun m => m.1 == 0 && m.2.retires.isNone))[0]? = some (0, ⟨.va 0 0, hand⟩) ∧
    retiring.inSpillRegion 8 = false ∧ retiring.inSpillRegion 15 = false := by
  and_intros <;> decide +kernel

/-! The starter. -/

/-- Object 7, held by queue 0, whose entry 0 starts at 0; its image spans page 0. -/
def object (pending : Bool) : CodeObj := ⟨7, pending, 0, 65536, [(0, [])], [0], []⟩
def queuing (r : Nat) (recs : List QRec) : State := { attending r [] [(5, bat)] with
  core := { base.core with spways := 8 }
  starter := { base.starter with queues := [(0, ⟨0, false, true⟩)], recs := recs, objs := [object false] } }
def qrec (type : Nat) (st : RecState) : QRec :=
  ⟨3, type, 0, 0, 0, 7, 0, 0, [(2, 1)], 0, 0, [], hand, 1, 0, 0, 0, st, 0, 0, false, 1, 0, false, 0⟩

/-- A signal record, and a launch of object 7. -/
def signalRecord : Nat := 4 + hand.toNat * 2 ^ 128
def launchRecord : Nat := 1 + 7 * 2 ^ 32

theorem lies_queuing (r : Nat) (recs : List QRec) (off n : Nat) (h : off + n ≤ 2048) :
    (queuing r recs).lies (hbmXlat (0x90000 + off)) n (0x90000 + off) := by
  refine Or.inr ⟨0x90000 + off, rfl, rfl, rfl, rfl, ?_, ?_, by intro l hl; cases hl⟩
  · rw [State.poisoned, show (queuing r recs).poison = [] by rfl]; simp
  · intro i hi
    have e : (0x90000 + (off + i)) / 16 = 0x9000 + (off + i) / 16 := by omega
    have h := sealings_find ((off + i) / 16) (by omega)
    rw [Nat.add_assoc]
    simp [State.keyMat, State.blockKey, queuing, attending, e, h, hbmXlat]

theorem witness_launch_reads : (∃ x z : Xlat, (queuing signalRecord []).translateAccess (queuing signalRecord []).me .read true 0 128 =
      .ok [(x, 64), (z, 64)] ∧ (queuing signalRecord []).found x 64 0x90000 ∧ (queuing signalRecord []).found z 64 (0x90000 + 64)) ∧
    (∃ x z : Xlat, (queuing launchRecord []).translateAccess (queuing launchRecord []).me .read true 0 128 =
      .ok [(x, 64), (z, 64)] ∧ (queuing launchRecord []).found x 64 0x90000 ∧ (queuing launchRecord []).found z 64 (0x90000 + 64)) :=
  ⟨⟨hbmXlat 0x90000, hbmXlat 0x90040, by decide +kernel, Or.inl ⟨lies_queuing _ _ 0 64 (by omega), fun _ => by decide +kernel⟩,
      Or.inl ⟨lies_queuing _ _ 64 64 (by omega), fun _ => by decide +kernel⟩⟩,
    ⟨hbmXlat 0x90000, hbmXlat 0x90040, by decide +kernel, Or.inl ⟨lies_queuing _ _ 0 64 (by omega), fun _ => by decide +kernel⟩,
      Or.inl ⟨lies_queuing _ _ 64 64 (by omega), fun _ => by decide +kernel⟩⟩⟩

theorem witness_launch : let bs (r : Nat) := leBytes 128 r
    (queuing signalRecord []).recGood (bs signalRecord) = true ∧ (queuing launchRecord []).recGood (bs launchRecord) = true ∧
    (queuing launchRecord []).recGood (bs 0) = false ∧ (queuing launchRecord []).sys.scrub = false ∧
    (queuing launchRecord []).findObj 7 = some (object false) ∧ 0 ∈ (object false).holders ∧
    (object false).entries[0]? = some (0, []) ∧ levelsGood (recLevels (bs launchRecord)) = true ∧
    ((queuing launchRecord []).qcfg 0).depth.toNat = 0 ∧
    ((queuing launchRecord [qrec 1 .queued]).starter.recs.filter (fun r => r.queue == 0 && r.state == .queued)).length = 1 ∧
    (queuing launchRecord []).inSpillRegion ((queuing launchRecord []).starter.slBase.toNat * 4096 + 32) = false ∧
    (queuing launchRecord []).inSpillRegion ((queuing launchRecord []).starter.slBase.toNat * 4096 + 63) = false ∧
    (queuing launchRecord []).core.run.strip = none ∧ (queuing launchRecord []).core.run.flight = none ∧ (queuing launchRecord []).rests ∧
    stripped.core.run.strip ≠ none ∧ stripped.core.run.priv = true ∧ posting.posted = true ∧ posting.core.run.priv = true := by
  unfold State.rests; decide +kernel

theorem witness_cancel_records : (queuing 0 [qrec 1 .queued]).starter.recs = [qrec 1 .queued] ∧
    BitVec.ofNat 64 ((qrec 1 .queued).seq * 256) = 0x300 ∧ (qrec 1 .running).state ≠ .queued ∧ (qrec 1 .queued).deps = [] := by decide +kernel

/-- A launch waits, with core `x` in focus and every core as after reset. -/
def dispatching (x : Nat) : State := { queuing 0 [qrec 1 .queued] with core := Core.reset x }

theorem coreAt_dispatching (x id : Nat) : (dispatching x).coreAt id = Core.reset id := by
  have ho : (queuing 0 [qrec 1 .queued]).others = [] := by decide +kernel
  have hi : (Core.reset x).id = x := rfl
  simp only [State.coreAt, dispatching, ho, hi]
  split
  · next h => rw [h]
  · rfl

/-- Where the launch places does not depend on the focus, so that it places on the core in focus of some state. -/
theorem place_dispatching (x y : Nat) (r : QRec) : (dispatching x).place r = (dispatching y).place r := by
  have hp : ∀ d n, (dispatching x).placeOn r d n = (dispatching y).placeOn r d n := by
    intro d n
    simp only [State.placeOn, coreAt_dispatching]
    rfl
  have hd : ∀ n k ds, (dispatching x).placeDies r n k ds = (dispatching y).placeDies r n k ds := by
    intro n k
    induction k with
    | zero => intro ds; rfl
    | succ k ih => intro ds; simp only [State.placeDies, hp, ih]
  simp only [State.place, hd]
  rfl

/-- One coroutine places, whichever die and whichever core is asked first. -/
theorem witness_places : ∃ plan, (dispatching 0).place (qrec 1 .queued) = some plan := by
  have hf : ∀ d, d < 16 → (Core.reset (d * 384 + 1)).freeSlots ((qrec 1 .queued).coro (Core.reset (d * 384 + 1)).lanes 0)
      (dispatching 0).stamp (dispatching 0).starter.stcap.toNat = 1 := by decide +kernel
  have hd : ∀ d, d < 16 → ((dispatching 0).placeOn (qrec 1 .queued) d 1).isSome = true := by
    intro d hlt
    have hk : Config.freeCore (dispatching 0).fresh % 384 < 384 := Nat.mod_lt _ (by decide)
    have hm : d * 384 + 1 ∈ (dispatching 0).dieCores d := by
      refine List.mem_map.mpr ⟨(385 - Config.freeCore (dispatching 0).fresh % 384) % 384,
        List.mem_range.mpr (Nat.mod_lt _ (by decide)), ?_⟩
      omega
    have hc := coreAt_dispatching 0 (d * 384 + 1)
    have hle : ∀ l : List (Nat × Nat), (d * 384 + 1, 1) ∈ l → 1 ≤ (l.map (·.2)).sum := fun l hx =>
      List.single_le_sum (fun x _ => Nat.zero_le x) 1 (List.mem_map.mpr ⟨_, hx, rfl⟩)
    unfold State.placeOn
    simp only
    rw [if_pos (hle _ (List.mem_map.mpr ⟨d * 384 + 1, hm, by rw [hc, hf d hlt]⟩))]
    rfl
  have h : ∀ ds : List Nat, ds ≠ [] → (∀ d ∈ ds, d < 16) →
      ∃ plan, (dispatching 0).placeDies (qrec 1 .queued) 1 1 ds = some plan := by
    intro ds hn hm
    obtain ⟨d, hd1, hd2⟩ : ∃ d ∈ ds, ((dispatching 0).placeOn (qrec 1 .queued) d 1).isSome = true := by
      obtain ⟨d, rest, rfl⟩ := List.exists_cons_of_ne_nil hn
      exact ⟨d, List.mem_cons_self .., hd d (hm d (List.mem_cons_self ..))⟩
    have hf : (ds.find? (fun d => ((dispatching 0).placeOn (qrec 1 .queued) d 1).isSome)).isSome = true :=
      List.find?_isSome.mpr ⟨d, hd1, by simpa using hd2⟩
    obtain ⟨x, hx⟩ := Option.isSome_iff_exists.mp hf
    obtain ⟨q, hq⟩ : ∃ q, (dispatching 0).placeOn (qrec 1 .queued) x 1 = some q :=
      Option.isSome_iff_exists.mp (by simpa using List.find?_some hx)
    exact ⟨[q], by simp [State.placeDies, hx, hq]⟩
  obtain ⟨plan, hp⟩ := h ((List.range 16).map (fun i => (i + Config.freeDie (dispatching 0).fresh % 16) % 16))
    (by simp) (by intro d hx; obtain ⟨i, -, rfl⟩ := List.mem_map.mp hx; exact Nat.mod_lt _ (by decide))
  refine ⟨plan, ?_⟩
  unfold State.place
  rw [show levelCount (qrec 1 .queued).levels 3 = 1 by decide, show levelCount (qrec 1 .queued).levels 2 = 1 by decide]
  simp only
  rw [if_neg (by decide)]
  exact hp

/-- It places on the core in focus of one of these states. -/
theorem witness_dispatch : ∃ x plan, (dispatching x).place (qrec 1 .queued) = some plan ∧
    (plan.getD (mixed (qrec 1 .queued).levels 3 (levelIndices (qrec 1 .queued).levels 0)) ([], 0)).1.getD
      (mixed (qrec 1 .queued).levels 2 (levelIndices (qrec 1 .queued).levels 0)) 0 = (dispatching x).core.id ∧
    (dispatching x).core.inRoom.length + 1 ≤ 48 ∧ sumBlocks (dispatching x).core.inRoom + 1 ≤ 256 ∧
    (dispatching x).starter.recs = [qrec 1 .queued] ∧ (qrec 1 .queued).queue < 64 ∧ (dispatching x).starter.lastQ = [] ∧
    levelCount (qrec 1 .queued).levels 2 * levelCount (qrec 1 .queued).levels 3 = 1 := by
  obtain ⟨plan, hp⟩ := witness_places
  exact ⟨_, plan, (place_dispatching _ 0 _).trans hp, rfl, (by decide : 0 + 1 ≤ 48), (by decide : 0 + 1 ≤ 256), rfl, by decide, rfl,
    by decide⟩

def failing : State := { queuing 0 [{ qrec 1 .queued with deps := [(hand, 0)] }] with batons := [(5, { bat with err := 7 })] }
def unloading : State := { queuing 0 [] with starter := { base.starter with objs := [{ object true with holders := [] }] } }

theorem witness_starter : (queuing 0 [qrec 4 .queued]).liveHere (qrec 4 .queued).sbaton = true ∧
    (∃ x ∈ (queuing 0 [{ qrec 1 .queued with heldFor := 1 }]).starter.recs, x.state = .queued ∧ x.heldFor ≠ 0) ∧
    (queuing 0 [{ qrec 1 .queued with heldFor := 65536 }]).findRec 3 = some { qrec 1 .queued with heldFor := 65536 } ∧
    (failing.baton (handleKey hand)).err ≠ 0 ∧ hand ≠ 0 ∧ handleKey hand ≠ handleKey 0 ∧
    (queuing 0 [qrec 1 .running]).inSpillRegion 0 = false ∧ (qrec 1 .running).alive = 0 ∧
    unloading.findObj 7 = some { object true with holders := [] } ∧ unloading.objRefs { object true with holders := [] } = 0 := by decide +kernel

theorem witness_completion_word : ∃ p, (queuing 0 [{ qrec 1 .running with cwaddr := 0x100 }]).finds ⟨0, false, none, 0, none⟩ .write 0x100 8 p :=
  ⟨0x90000 + 0x100, hbmXlat (0x90000 + 0x100), by decide +kernel, lies_queuing _ _ 0x100 8 (by omega)⟩

/-! The pacer. -/

theorem witness_preempt : companied.ordinary ∧ companied.core.uncut = false ∧ companied.core.run.deferred = none ∧
    companied.core.run.convoy = none ∧ (companied.modCore (fun c => { c with first := some 1 })).core.first ≠ none ∧
    (∃ c ∈ companied.core.coros, c.state = .ready ∧ c.pending = [] ∧ companied.core.run.prio.toNat ≤ min 31 (c.prio.toNat + c.passed / 4096)) ∧
    companied.core.roomFits (companied.core.run.fullContext companied.core.lanes).blocks = true ∧ handling.core.slot.isSome = true ∧
    companied.posted = false ∧ posting.ordinary ∧ posting.posted = true ∧ posting.core.uncut = false ∧
    (∀ c ∈ base.core.coros, c.state = .ready → min 31 (c.prio.toNat + c.passed / 4096) < base.core.run.prio.toNat) := by
  unfold State.ordinary State.unhindered; decide +kernel

/-- A running core whose call room is full, coroutine 1 having the least priority there. -/
def filled : State := base.modCore (fun c => { c with
  coros := readyCo 1 0 :: (List.range 47).map (fun i => readyCo (i + 2) 9), spillEn := true, spillBase := 1 })

theorem witness_spill : filled.core.live ≠ .idle ∧ filled.core.slot = none ∧
    filled.core.roomFits (filled.core.run.fullContext filled.core.lanes).blocks = false ∧
    base.core.roomFits (base.core.run.fullContext base.core.lanes).blocks = true ∧ base.core.slot = none ∧
    readyCo 1 0 ∈ filled.core.coros ∧ (∀ x ∈ filled.core.coros, x.cnum = (readyCo 1 0).cnum → x = readyCo 1 0) ∧
    (readyCo 1 0).place = .callRoom ∧ filled.core.spillEn = true ∧ filled.mem.wf = true ∧
    sumBlocks filled.core.inSpill + (readyCo 1 0).blocks ≤ 4096 ∧
    (∀ x ∈ filled.core.coros, x ≠ readyCo 1 0 → spillsBefore (readyCo 1 0) x = true) ∧
    (filled.core.coros.map (·.cnum)).Nodup := by
  decide +kernel

/-- An idle core with two Ready contexts, of which coroutine 1 comes first. -/
def pacing : State := { companied.modCore (fun c => { c with live := .idle, spillEn := true, spillBase := 1 }) with
  starter := { base.starter with objs := [object false] } }

theorem witness_decision : pacing.core.live = .idle ∧ pacing.core.slot = none ∧ pacing.core.first = none ∧
    readyCo 1 9 ∈ pacing.core.coros ∧ (∀ x ∈ pacing.core.coros, x.cnum = (readyCo 1 9).cnum → x = readyCo 1 9) ∧
    (∀ x ∈ pacing.core.coros, x ≠ readyCo 1 9 → min 31 (x.prio.toNat + x.passed / 4096) < 9) ∧
    (readyCo 1 9).badCtx = false ∧ (readyCo 1 9).lostVec = false ∧ (readyCo 1 9).deferred = none ∧
    pacing.inSomeObject (readyCo 1 9).pc = true ∧ pacing.core.inService = true := by decide +kernel

/-- Coroutine 2 in the spill region. -/
def spilled : Coro := { readyCo 2 0 with place := .spill, spillAt := [0] }

theorem witness_return : let s := pacing.modCore (fun c => { c with coros := [spilled] })
    spilled ∈ s.core.coros ∧ (∀ x ∈ s.core.coros, x.cnum = spilled.cnum → x = spilled) ∧ spilled.state = .ready ∧
    s.core.roomFits spilled.blocks = true := by decide +kernel

/-! Units of a core and of a die. -/

def deferring : State := reporting.modRun (fun c => { c with deferred := some ⟨.nearOutOfRange, 3, 0, 0, 0, true, none⟩ })

theorem witness_deferred : deferring.core.run.deferred.isSome = true ∧ deferring.ordinary ∧ deferring.posted = false ∧ deferring.reportsTrap ∧
    deferring.core.roomFits (deferring.core.run.fullContext deferring.core.lanes).blocks = true := by
  unfold State.ordinary State.unhindered State.reportsTrap; decide +kernel

/-- Coroutine 1 waits for a datum, for a baton, or in a `vwait` of two elements. -/
def waitingCo (st : Coro) : State := vwaits.modCore (fun c => { c with coros := [st] })
def datumCo (dst : PendingDst) (part : Option (Xlat × Nat)) : Coro := { readyCo 1 0 with
  state := .waiting, pending := [{ dst := dst, addr := 0, part := part, op := none, coro := 0, asid := 0, eslot := 0 }] }
def batonCo : Coro := { readyCo 1 0 with state := .waiting, armed := some (hand, 3) }
def vwaitCo : Coro := { vwaits.core.run with cnum := 1, state := .waitingVec ⟨on, 0, 2, 3, 0⟩ }

theorem witness_datum : ∀ dst ∈ [PendingDst.load 5 8 true 0 8, .load 6 2 false 0 2, .elem 3 128 8 0 0],
    ∀ part ∈ [none, some (padXlat 0, 8)],
    let c := datumCo dst part
    let s := waitingCo c
    c ∈ s.core.coros ∧ s.core.run.cnum ≠ c.cnum ∧ (∀ x ∈ s.core.allCoros, x.cnum = c.cnum → x = c) ∧ c.pending.length = 1 ∧
    c.strip = none ∧ s.core.slot = none ∧ c.deferred = none := by decide +kernel

theorem witness_datum_part : (waitingCo (datumCo (.load 5 8 true 0 8) (some (padXlat 0, 8)))).lies (padXlat 0) 8 (padStore 0) :=
  Or.inl ⟨0, rfl, rfl, rfl, by decide +kernel, by decide +kernel⟩

theorem witness_arrivals :
    (waitingCo batonCo).core.allCoros.find? (fun x => x.cnum.toNat == 1) = some batonCo ∧ batonCo ∈ (waitingCo batonCo).core.coros ∧
    ((batoned.baton (handleKey hand)).count - 3).toNat < 2 ^ 31 ∧ ¬ ((batoned.baton (handleKey hand)).count - 4).toNat < 2 ^ 31 ∧
    (batoned.baton (handleKey hand)).err = 0 := by decide +kernel

theorem witness_vwait_round : (waitingCo vwaitCo).core.coros.find? (fun x => x.cnum.toNat == 1) = some vwaitCo ∧
    vwaitCo.tyBytes = 4 ∧ (waitingCo vwaitCo).core.slot = none ∧
    (∀ p ∈ ((waitingCo vwaitCo).withRun vwaitCo).enumerated on (fun _ _ => some 0), p = (0, 0) ∨ p = (0, 1)) ∧
    ((waitingCo vwaitCo).withRun vwaitCo).reaches .read false (nearAt 0) 4 (padStore 0) ∧
    (waitingCo vwaitCo).mem.readNat (padStore 0) 4 = ((waitingCo vwaitCo).withRun vwaitCo).core.run.elem 3 4 0 0 ∧
    ((waitingCo vwaitCo).mem.write (padStore 0) [1]).readNat (padStore 0) 4 ≠
      ((waitingCo vwaitCo).withRun vwaitCo).core.run.elem 3 4 0 1 := by
  refine ⟨by decide +kernel, by decide +kernel, by decide +kernel, by decide +kernel,
    ⟨padXlat 0, by decide +kernel, Or.inl ⟨0, rfl, rfl, rfl, by decide +kernel, by decide +kernel⟩⟩, by decide +kernel, by decide +kernel⟩

theorem witness_fault_queue : let q := { reporting.fqAt 0 with waiting := [⟨[1]⟩] }
    q.writable = true ∧ q.waiting = [⟨[1]⟩] ∧ q.baton = 0 ∧ reporting.inSpillRegion (q.base.toNat * 4096) = false ∧
    ({ q with head := 64 } : FaultQueue).writable = false := by decide +kernel

theorem witness_remote : let s := { batoned with batons := [(5, { bat with opn := true })] }
    (s.liveHere hand = true ∧ (s.baton (handleKey hand)).opn = true) ∧ (s.fqAt (handleDie hand)).writable = false ∧
    base.liveHere hand = false ∧ (base.fqAt (handleDie hand)).writable = false ∧ 1 ≠ Config.moduleNumber ∧
    (1, 0, 0) ∉ s.aborts ∧ (s.batons.map (·.1)).Nodup ∧ (∀ z ∈ s.batons, z.1 < 2 ^ 22) ∧ (s.fqAt 0).baton = 0 := by decide +kernel

/-- Coroutine 1 of core 0 is Parked. -/
def parking (c : Cause) : State := base.modCore (fun k => { k with coros := [{ readyCo 1 0 with state := .parked c }], live := .idle })

theorem witness_control_block : (parking .illegalInstruction).targetCoro 0 1 0 = some (0, { readyCo 1 0 with state := .parked .illegalInstruction }) ∧
    (parking .dataContext).targetCoro 0 1 0 = some (0, { readyCo 1 0 with state := .parked .dataContext }) ∧
    ((parking .illegalInstruction).ccbAt 0).target = none ∧ base.targetCoro 0 1 0 = none ∧ companied.targetCoro 0 1 0 = some (0, readyCo 1 9) ∧
    ({ readyCo 1 0 with state := .parked .illegalInstruction } : Coro).tags = [] ∧ ({ readyCo 1 0 with state := .parked .illegalInstruction } : Coro).lostVec = false := by
  decide +kernel

/-! The memory system, the register space and the host link. -/

theorem witness_walks : canonical 0xFFFF = true ∧ isNear 0xFFFF = false ∧ base.walk (some 0) 0 0xFFFF ≠ .error .pageNotValid ∧
    (match base.walk (some 0) 0 0xFFFF with
      | .ok (leaf, level) => base.holdable ⟨0, true, some 0, 0, none⟩ [.read, .write, .fetch] leaf level 0xFFFF && bitAt leaf 4
      | .error _ => false) = true ∧
    (match ({ base with mem := base.mem.write 0x86000 (leBytes 8 0x9003F) } : State).walk (some 0) 0 0xFFFF with
      | .ok (leaf, level) => base.holdable ⟨0, false, some 0, 0, none⟩ [.read, .write, .fetch] leaf level 0xFFFF
      | .error _ => true) = false ∧ base.core.tlb = [] ∧
    (match base.walk (some 0) 0 0x10000 with | .ok _ => false | .error _ => true) = true := by decide +kernel

theorem witness_conflict : (base.hbmSlot 0).1 = (base.hbmSlot 261376).1 ∧ (base.hbmSlot 0).2 ≠ (base.hbmSlot 261376).2 ∧
    base.sys.monitors = [] ∧ base.mem.readNat (base.memRegs.acBase.toNat * 2 ^ 16 + 2 * 9) 2 ≠ 0xFFFF ∧
    base.mem.readNat (base.memRegs.acBase.toNat * 2 ^ 16 + 2 * 9) 2 + 1 ≠ base.memRegs.acThresh.toNat ∧
    base.inSpillRegion (base.memRegs.acBase.toNat * 2 ^ 16 + 2 * 9 + 1) = false ∧
    base.inSpillRegion (base.memRegs.acBase.toNat * 2 ^ 16 + 2 * 9) = false := by decide +kernel

/-- Four migrations run, in domains 0 to 3. -/
def migrating : State := { base with domains := (List.range 4).map (fun d => (d, { Domain.reset d with mig := true, nver := 1 })) }

theorem witness_migration : (migrating.domain 0).mig = true ∧ (migrating.domain 4).mig = false ∧
    4 ≤ (migrating.domains.filter (fun z => z.2.mig)).length ∧ (base.domain 1023).mig = false ∧
    (0x80 : Word).extractLsb' 7 4 ≠ (base.domain 5).ver ∧ (0 : Word).extractLsb' 7 4 = (base.domain 5).ver ∧
    (0 : Word).extractLsb' 0 3 = (base.domain 5).func := by decide +kernel

theorem witness_keys : base.keyLoaded 63 = false ∧ ({ base with keys := [(1, 0)] } : State).keyLoaded 1 = true := by decide +kernel

/-- Master 1 owns the module over a link that is up. -/
def owned : State := { batoned with
  sys := { base.sys with ownV := true, ownMaster := 1, ownLv := true, ownLast := 1, link := true, left := 5, reload := 9 }
  batons := [(5, { bat with opn := true })] }

theorem witness_host : owned.sys.link = true ∧ owned.sys.ownMaster.toNat = 1 ∧ owned.hostBarred 0x90000 64 = false ∧
    owned.hostBarred Config.firmwareBase 1 = true ∧ owned.sys.monitors = [] ∧ owned.sys.scrub = false ∧
    owned.blockKey 0x90000 = none ∧ owned.sys.left ≠ 0 ∧ owned.liveHere hand = true ∧ (owned.baton (handleKey hand)).opn = true ∧
    base.sys.link = false ∧ (owned.fqAt (handleDie hand)).writable = false ∧ (owned.batons.map (·.1)).Nodup := by decide +kernel

/-- Requests of the owner and of another master: a read, a write and an atomic of 8 bytes. -/
def hostRead : HostReq := { master := 1, write := false, pa := 0x90000, len := 8, data := [] }
def hostWrite (x : Nat) : HostReq := { master := x, write := true, pa := 0x90000, len := 0, data := [1, 2, 3] }
def hostAtomic : HostReq := { hostRead with op := some (.add, 1, 0) }

theorem witness_host_access : (∀ i, i < 8 → owned.blockKey (0x90000 + i) = none ∨ owned.blockKey (0x90000 + i) = some none) ∧
    owned.hostBarred 0x90000 8 = false ∧ owned.poisoned 0x90000 8 = false ∧ hostRead.got = none ∧ hostRead.op = none ∧
    (hostWrite 1).data.length = 3 ∧ (hostWrite 2).master ≠ owned.sys.ownMaster.toNat ∧ hostAtomic.len = 8 ∧ hostAtomic.pa % 8 = 0 ∧
    ¬ (({ hostAtomic with len := 2 } : HostReq).len = 4 ∨ ({ hostAtomic with len := 2 } : HostReq).len = 8) := by decide +kernel

/-- Another module of the pod, and a handle of its. -/
def linked : State := { owned with peers := [(Config.moduleNumber + 1, [])] }
def foreign : Word := BitVec.ofNat 64 ((Config.moduleNumber + 1) * 2 ^ 54 + 2 ^ 32)

theorem witness_host_signal : linked.sys.ownV = true ∧ linked.sys.ownMaster.toNat = 1 ∧ linked.sys.scrub = false ∧
    handleModule foreign ≠ Config.moduleNumber ∧ linked.isMember (handleModule foreign) = true ∧ handleIndex foreign ≠ 0 ∧
    foreign.toNat % 256 = 0 ∧ handleModule hand = Config.moduleNumber := by decide +kernel

theorem witness_own : owned.sys.own < 2 ^ 64 ∧ (BitVec.ofNat 64 owned.sys.own).toNat = owned.sys.own ∧
    (BitVec.extractLsb' 56 2 (BitVec.ofNat 64 (2 ^ 63 + 2 * 2 ^ 56)) : BitVec 2) ≠ owned.sys.ownLast ∧ owned.sys.job = none ∧
    ({ owned with sys := { owned.sys with left := 0 } } : State).sys.left = 0 ∧
    ({ owned with sys := { owned.sys with scrub := true } } : State).sys.scrub = true ∧ owned.mem.wf = true := by decide +kernel

/-- A request for a scrub of slot 2 without a range, its receipt at 0x40000; and for an attestation there. -/
def requesting : State := { base with mem := base.mem.write 0x90000 (leBytes 8 2 ++ leBytes 8 0x40000) }

theorem witness_scrub : let w := (List.range 64).map (fun i => requesting.hbmWord (0x90000 + 8 * i))
    scrubGood w = true ∧ requesting.hbmWord 0x90000 % 64 = 2 ∧ requesting.scrubShared 2 = false ∧ requesting.sys.job = none ∧
    base.hbmWord 0x90000 % 64 = 0 ∧ scrubGood ((List.range 64).map (fun _ => 2 ^ 20)) = false ∧
    hbmRange (requesting.hbmWord 0x90008) 17344 = true ∧
    ({ requesting with core := { requesting.core with touched := 4 } } : State).scrubShared 2 = true ∧ requesting.mem.wf = true := by decide +kernel

/-! Service of the module, the guards and the step. -/

theorem witness_service : State.reset.sys.fabtr = false ∧ ({ base with sys := { base.sys with svc := 1 } } : State).sys.svc = 1 ∧
    base.mem.wf = true ∧ ([(2, 7), (3, 0)] : List (Nat × Nat)).map (·.1) = [2, 3] ∧ (base.domain 1021).gone = false ∧
    ({ base with domains := [(1021, { Domain.reset 1021 with gone := true })] } : State).domain 1021 = { Domain.reset 1021 with gone := true } ∧
    2 ≤ base.sys.svc.toNat ∧ base.sys.svc ≠ 3 ∧ (base.cores.map (·.id)).Nodup := by decide +kernel

theorem witness_disabled : ¬ base.enables notOn ∧ base.core.run.priv = true := by unfold State.enables; decide +kernel

/-- The core moves next. -/
def stepping : State := { base.placeWord 0x03C00000 with sched := [.core] }

theorem witness_step : stepping.stopped = false ∧ stepping.sched = [.core] ∧ stepping.ordinary ∧ stepping.core.run.deferred = none ∧
    stepping.core.run.ecc = [] ∧ stepping.core.run.pc.toNat % 4 = 0 ∧ stepping.core.run.nextWord = none ∧
    State.fetchWord { stepping with sched := [] } stepping.me stepping.core.run.pc = .ok 0x03C00000 ∧
    decode 0x03C00000 = .ok .nop ∧ Instr.nop.member = none ∧ stepping.sys.svc = 2 := by
  unfold State.ordinary State.unhindered; decide +kernel

theorem witness_agenda : let s := { base with agenda := [Event.linkLoss] }
    s.stopped = false ∧ background Event.linkLoss = false ∧ s.enabled Event.linkLoss = true ∧ s.agenda[0]? = some .linkLoss := by decide +kernel

theorem witness_inv : State.reset.Inv ∧ base.mem.wf = true := by unfold State.Inv; decide +kernel

theorem witness_encode : (Instr.addi on 6 6 1).wellFormed = true ∧ encode (.addi on 6 6 1) = some 0x15C30C01 := by decide +kernel

theorem witness_focus : (base.focus 5).core.id = 5 ∧ (∃ t, exec (.preemption 5 ⟨.pacer, []⟩) (base.focus 5) = .next t) := by
  refine ⟨by decide +kernel, ?_⟩
  exact ⟨_, rfl⟩
end Sys2Proof.Tests
end

section
/-! SUPPORT. Memory keeps its canonical form through the device's operations (log 1): the rewriting rules of the traps and
records, the planes of the switch tier, and what an access does at its home and in the L1. A rule names the memory that the
operation leaves: the same memory (`_mem`), or one in canonical form (`_mem_wf`). -/

namespace Sys2Proof.Machine

/-- The state that a stopped access leaves, if it leaves one, has memory in canonical form. -/
@[simp] def Stop.Wf : Stop → Prop
  | .wait => True
  | .cause _ t => t.mem.wf = true

/-- Of an access that gives a datum and a state: whichever state it leaves has memory in canonical form. -/
@[simp] def endsWf {α : Type} : Except Stop (α × State) → Prop
  | .ok x => x.2.mem.wf = true
  | .error e => e.Wf

theorem endsWf_ok {α : Type} {r : Except Stop (α × State)} {x : α × State} (k : endsWf r) (e : r = .ok x) :
    x.2.mem.wf = true := by rwa [e] at k

/-- Of an operation that may have to wait, and then gives no state. -/
@[simp] def someWf : Option State → Prop
  | some t => t.mem.wf = true
  | none => True

theorem someWf_iff {o : Option State} : someWf o ↔ ∀ t, o = some t → t.mem.wf = true := by
  cases o <;> simp

theorem endsWf_error {α : Type} {r : Except Stop (α × State)} {e : Stop} (k : endsWf r) (eq : r = .error e) : e.Wf := by
  rwa [eq] at k

theorem someWf_getD {o : Option State} {s : State} (k : someWf o) (h : s.mem.wf = true) : (o.getD s).mem.wf = true := by
  cases o with
  | none => exact h
  | some t => exact k

@[simp] theorem State.acquire_mem (s : State) (k : Nat) : (s.acquire k).mem = s.mem := by
  unfold State.acquire; split <;> simp

@[simp] theorem State.setDomain_mem (s : State) (d : Nat) (x : Domain) : (s.setDomain d x).mem = s.mem := rfl
@[simp] theorem State.setPlane_mem (s : State) (p : Nat) (x : Plane) : (s.setPlane p x).mem = s.mem := rfl
@[simp] theorem State.setAlloc_mem (s : State) (a : Alloc) : (s.setAlloc a).mem = s.mem := rfl

@[simp] theorem State.onCore_mem {s : State} (id : Nat) {f : State → State} (hf : ∀ t, (f t).mem = t.mem) :
    (s.onCore id f).mem = s.mem := by simp [State.onCore, hf]

section
variable {s : State} (h : s.mem.wf = true)
include h

theorem State.foldl_mem_wf {α : Type} (l : List α) {f : State → α → State}
    (hf : ∀ t : State, t.mem.wf = true → ∀ a, (f t a).mem.wf = true) : (l.foldl f s).mem.wf = true := by
  induction l generalizing s with
  | nil => exact h
  | cons a l ih => exact ih (hf s h a)

theorem State.ite_mem_wf {t : State} {p : Prop} [Decidable p] (h' : t.mem.wf = true) : (if p then s else t).mem.wf = true := by
  split
  · exact h
  · exact h'

/-! ## Traps and records: the laws of the shared operations, as rewriting rules -/

@[simp] theorem State.storeHbm_mem_wf (pa bs) : (s.storeHbm pa bs).mem.wf = true := State.storeHbm_wf pa bs h
@[simp] theorem State.writeRecord_mem_wf (die r) : (s.writeRecord die r).mem.wf = true := State.writeRecord_wf die r h
@[simp] theorem State.appendRecord_mem_wf (die b r) : (s.appendRecord die b r).mem.wf = true := State.appendRecord_wf die b r h
@[simp] theorem State.writeSpills_mem_wf (old) : (s.writeSpills old).mem.wf = true := State.writeSpills_wf old h
@[simp] theorem State.saveContext_mem_wf (k st why) : (s.saveContext k st why).mem.wf = true := State.saveContext_wf k st why h
@[simp] theorem State.takeTrap_mem_wf (t) : (s.takeTrap t).mem.wf = true := State.takeTrap_wf t h
@[simp] theorem State.trapDrained_mem_wf (t) : (s.trapDrained t).mem.wf = true := State.trapDrained_wf t h
@[simp] theorem State.raiseTrap_mem_wf (t) : (s.raiseTrap t).mem.wf = true := State.raiseTrap_wf t h
@[simp] theorem State.raise_mem_wf (c) : (s.raise c).mem.wf = true := State.raise_wf c h
@[simp] theorem State.raiseAt_mem_wf (c i a) : (s.raiseAt c i a).mem.wf = true := State.raiseAt_wf c i a h
@[simp] theorem State.raiseDataTrap_mem_wf (t) : (s.raiseDataTrap t).mem.wf = true := State.raiseDataTrap_wf t h
@[simp] theorem State.raiseData_mem_wf (c i a) : (s.raiseData c i a).mem.wf = true := State.raiseDataTrap_wf _ h
@[simp] theorem State.raiseAccess_mem_wf (c i a) : (s.raiseAccess c i a).mem.wf = true := State.raiseAccess_wf c i a h

@[simp] theorem State.onCore_mem_wf (id) {f : State → State} (hf : ∀ t : State, t.mem.wf = true → (f t).mem.wf = true) :
    (s.onCore id f).mem.wf = true := State.onCore_wf id f (fun t e => hf t (by rw [e, h]))

@[simp] theorem State.guarded_mem_wf (g) {f : State → State} (hf : (f s).mem.wf = true) : (s.guarded g f).mem.wf = true :=
  State.guarded_wf g f h hf

@[simp] theorem State.privileged_mem_wf {f : State → State} (hf : (f s).mem.wf = true) : (s.privileged f).mem.wf = true :=
  State.privileged_wf f h hf

@[simp] theorem State.noStrip_mem_wf {f : State → State} (hf : (f s).mem.wf = true) : (s.noStrip f).mem.wf = true :=
  State.noStrip_wf f h hf

/-! ## The switch tier (spec/03) -/

@[simp] theorem State.putGranule_mem_wf (p g bs k n b) : (s.putGranule p g bs k n b).mem.wf = true :=
  Memory.wf_write _ _ h

@[simp] theorem State.installImage_mem_wf (p g n bs k b) : (s.installImage p g n bs k b).mem.wf = true := by
  simp only [State.installImage]
  split_ifs <;> simp [h]

@[simp] theorem State.settleImages_mem_wf (q) : (s.settleImages q).mem.wf = true := by
  simp only [State.settleImages]
  refine State.foldl_mem_wf (by exact h) _ (fun t ht e => ?_)
  repeat' split
  all_goals simp [ht]

@[simp] theorem State.zeroRange_mem_wf (p lo n) : (s.zeroRange p lo n).mem.wf = true := Memory.wf_erase _ _ h

@[simp] theorem State.planeFail_mem_wf (p) : (s.planeFail p).mem.wf = true := by simp [State.planeFail, h]

omit h in
@[simp] theorem State.planeChange_mem (p up gen) : (s.planeChange p up gen).mem = s.mem := by simp [State.planeChange]

@[simp] theorem State.planeDownOp_mem_wf (p b) : (s.planeDownOp p b).mem.wf = true := by
  simp only [State.planeDownOp]
  split_ifs <;> simp [h]

@[simp] theorem State.planeEmpty_mem_wf (p gen) : (s.planeEmpty p gen).mem.wf = true := by
  simp only [State.planeEmpty]
  exact Memory.wf_erase _ _ (State.foldl_mem_wf (State.planeFail_mem_wf h p) _ (fun t ht a => State.zeroRange_mem_wf ht ..))

@[simp] theorem State.planeServes_mem_wf (p gen) : (s.planeServes p gen).mem.wf = true := by
  simp only [State.planeServes]
  split_ifs <;> simp [h]

@[simp] theorem State.planeUpOp_mem_wf (p gen) : (s.planeUpOp p gen).mem.wf = true := by simp [State.planeUpOp, h]

theorem State.granuleDo_mem_wf {p g o n r k q f x} (e : s.granuleDo p g o n r k q f = .ok x) : x.2.mem.wf = true := by
  simp only [State.granuleDo] at e
  repeat' split at e
  all_goals cases e
  · exact h
  · exact State.putGranule_mem_wf h ..
  · exact State.installImage_mem_wf (State.putGranule_mem_wf h ..) ..

theorem State.granuleTurn_mem_wf (p off n r k q f) : endsWf (s.granuleTurn p off n r k q f) := by
  simp only [State.granuleTurn]
  split
  · trivial
  · split
    · exact h
    · next e => exact State.granuleDo_mem_wf h e

theorem State.failover_mem_wf (p tag off n tenant r k f) : endsWf (s.failover p tag off n tenant r k f) := by
  simp only [State.failover]
  repeat' split
  case h_2.isFalse => exact State.granuleTurn_mem_wf (by simp [h]) ..
  all_goals exact h

theorem State.planeDo_mem_wf (p tag off n tenant r k f) : endsWf (s.planeDo p tag off n tenant r k f) := by
  simp only [State.planeDo]
  split
  · exact State.failover_mem_wf h ..
  · split
    · exact h
    · split_ifs
      · exact h
      · exact State.failover_mem_wf h ..
      · exact State.granuleTurn_mem_wf h ..
      · exact State.granuleTurn_mem_wf h ..

@[simp] theorem State.swfreeOp_mem_wf (w) : (s.swfreeOp w).2.mem.wf = true := by
  simp only [State.swfreeOp]
  repeat' split
  all_goals simp [h]

omit h in
theorem State.allocOn_mem {p n t b x} (e : s.allocOn p n t b = .ok x) : x.2.mem = s.mem := by
  simp only [State.allocOn] at e
  repeat' split at e
  all_goals cases e
  all_goals rfl

omit h in
theorem State.allocAny_mem {n t b k p last x} (e : s.allocAny n t b k p last = .ok x) : x.2.mem = s.mem := by
  induction k generalizing p last with
  | zero => cases e
  | succ k ih =>
    rw [State.allocAny] at e
    split at e
    · exact ih e
    · split at e
      · next e' =>
        cases e
        exact State.allocOn_mem e'
      · exact ih e

omit h in
@[simp] theorem State.swallocOp_mem (a b) : (s.swallocOp a b).2.mem = s.mem := by
  simp only [State.swallocOp]
  repeat' split
  any_goals rfl
  next e =>
    split at e
    · exact State.allocAny_mem e
    · exact State.allocOn_mem e

/-! ## Homes and the L1 (spec/02, spec/04) -/

@[simp] theorem State.rekey_mem_wf (k a) : (s.rekey k a).mem.wf = true := by
  simp only [State.rekey]
  split_ifs <;> simp [h, Memory.wf_write]

@[simp] theorem State.rekeyAll_mem_wf (k a n) : (s.rekeyAll k a n).mem.wf = true := by
  induction n generalizing s a with
  | zero => exact h
  | succ n ih => exact ih (State.rekey_mem_wf h k a) _

@[simp] theorem State.keyedWrite_mem_wf (k a bs) : (s.keyedWrite k a bs).mem.wf = true := by
  simp only [State.keyedWrite]
  split_ifs <;> simp [h, Memory.wf_write]

omit h in
@[simp] theorem State.memoryEvent_mem : s.memoryEvent.mem = s.mem := by simp [State.memoryEvent]

@[simp] theorem State.counterEvent_mem_wf (f b) : (s.counterEvent f b).mem.wf = true := by
  simp only [State.counterEvent]
  split_ifs <;> simp [h]

@[simp] theorem State.countAccess_mem_wf (pa b) : (s.countAccess pa b).mem.wf = true := by
  simp only [State.countAccess]
  split_ifs <;> simp [h]

theorem State.logAccess_mem_wf (r) : someWf (s.logAccess r) := by
  simp only [State.logAccess]
  repeat' split
  all_goals simp [h]

theorem State.homeArrive_mem_wf (r) : someWf (s.homeArrive r) := by
  have k := State.logAccess_mem_wf h r
  simp only [State.homeArrive]
  split
  · trivial
  · next e =>
    rw [e] at k
    split_ifs
    · exact State.countAccess_mem_wf k ..
    · exact k

theorem State.homeArrive_some {r t} (e : s.homeArrive r = some t) : t.mem.wf = true :=
  someWf_iff.1 (State.homeArrive_mem_wf h r) t e

theorem State.blockDo_mem_wf (k a n r f) : endsWf (s.blockDo k a n r f) := by
  simp only [State.blockDo]
  repeat' split
  all_goals simp [h]

theorem State.hostDo_mem_wf (a n r f) : endsWf (s.hostDo a n r f) := by
  simp only [State.hostDo]
  repeat' split
  all_goals simp [h, Memory.wf_write]

theorem State.tierDo_mem_wf (iss x p tag off n r f) : endsWf (s.tierDo iss x p tag off n r f) :=
  State.planeDo_mem_wf h ..

omit h in
@[simp] theorem State.allocL2_mem (d st pa k sl b) : (s.allocL2 d st pa k sl b).mem = s.mem := rfl
omit h in
@[simp] theorem State.dirtyL2_mem (st) : (s.dirtyL2 st).mem = s.mem := rfl
omit h in
@[simp] theorem State.revoke_mem (p st n) : (s.revoke p st n).mem = s.mem := rfl
omit h in
@[simp] theorem State.forget_mem (st n) : (s.forget st n).mem = s.mem := rfl

@[simp] theorem State.putHome_mem_wf (x st bs) : (s.putHome x st bs).mem.wf = true := by
  have k := State.hostDo_mem_wf h (st - hostStore) bs.length false (fun _ => some bs)
  simp only [State.putHome]
  repeat' split
  all_goals simp_all

@[simp] theorem State.performWords_mem_wf (l ws) : (s.performWords l ws).mem.wf = true := by
  have k := State.foldl_mem_wf (s := { s with caches := s.caches.revokeWords (· != l.core) l.line (ws &&& wordsOf l.dirty) }) h
    (l.runs (l.dirty &&& wordBytes (ws &&& ~~~ l.bad))) (f := fun t r => t.putHome l.x (l.line * 64 + r.1) r.2)
    (fun t ht r => State.putHome_mem_wf ht ..)
  simp only [State.performWords]
  split_ifs
  · exact k
  · exact k

@[simp] theorem State.countBack_mem_wf (l) : (s.countBack l).mem.wf = true := by
  simp only [State.countBack]
  repeat' split
  all_goals simp [h]

@[simp] theorem State.writeBack_mem_wf (l) : (s.writeBack l).mem.wf = true := by
  simp only [State.writeBack]
  split_ifs <;> simp [h]

@[simp] theorem State.writeBackAll_mem_wf (p) : (s.writeBackAll p).mem.wf = true :=
  State.foldl_mem_wf h _ (fun _ ht _ => State.writeBack_mem_wf ht _)

@[simp] theorem State.registerCore_mem_wf (id) : (s.registerCore id).mem.wf = true :=
  State.foldl_mem_wf h _ (fun _ ht l => State.performWords_mem_wf ht l _)

@[simp] theorem State.registerAll_mem_wf : s.registerAll.mem.wf = true :=
  State.foldl_mem_wf h _ (fun _ ht id => State.registerCore_mem_wf ht id)

theorem State.homeDo_mem_wf (iss x n r w q f) : endsWf (s.homeDo iss x n r w q f) := by
  have arrives : ∀ {req t}, (if q = true then some s else s.homeArrive req) = some t → t.mem.wf = true := by
    intro req t e
    split at e
    · cases e
      exact h
    · exact State.homeArrive_some h e
  simp only [State.homeDo]
  split
  · split
    · trivial
    · next e => exact State.blockDo_mem_wf (by split <;> simp [arrives e]) ..
  · split
    · trivial
    · next e => exact State.hostDo_mem_wf (by split <;> simp [arrives e]) ..
  · exact h

theorem State.beatArrive_mem_wf (iss x n w) : someWf (s.beatArrive iss x n w) := by
  simp only [State.beatArrive]
  split
  · exact State.homeArrive_mem_wf h _
  · exact State.homeArrive_mem_wf h _
  · exact h

theorem State.beatsArrive_mem_wf (iss w cur ps) : someWf (s.beatsArrive iss w cur ps) := by
  induction ps generalizing s cur with
  | nil =>
    unfold State.beatsArrive
    split
    · exact h
    · exact State.beatArrive_mem_wf h ..
  | cons p ps ih =>
    unfold State.beatsArrive
    split
    · exact ih h _
    · split
      · exact ih h _
      · split
        · trivial
        · next e => exact ih (someWf_iff.1 (State.beatArrive_mem_wf h ..) _ e) _

@[simp] theorem State.l1Find_mem_wf (x a) : (s.l1Find x a).2.mem.wf = true := by
  simp only [State.l1Find]
  repeat' split
  all_goals simp [h]

@[simp] theorem State.l1Line_mem_wf (iss x a) : (s.l1Line iss x a).2.mem.wf = true := by
  have k := State.l1Find_mem_wf h x a
  simp only [State.l1Line]
  repeat' split
  all_goals simp_all

theorem State.l1Read_mem_wf (iss x a n) : endsWf (s.l1Read iss x a n) := by
  have k := State.homeDo_mem_wf (State.l1Line_mem_wf h iss x a) iss x.lineOf 64 true false false (fun _ => none)
  simp only [State.l1Read]
  repeat' split
  all_goals simp_all

@[simp] theorem State.l1Write_mem_wf (iss x a bs) : (s.l1Write iss x a bs).mem.wf = true :=
  State.foldl_mem_wf (by exact State.l1Line_mem_wf h iss x a) _ (fun _ ht _ => State.putHome_mem_wf ht ..)

@[simp] theorem State.l1Leave_mem_wf (a n) : (s.l1Leave a n).mem.wf = true := State.writeBackAll_mem_wf h _

theorem State.relayDo_mem_wf (iss x a n r w f) : endsWf (s.relayDo iss x a n r w f) := by
  have k := State.homeDo_mem_wf (s := if w then s.l1Leave a n else s) (by split <;> simp [h]) iss x n r w true f
  simp only [State.relayDo]
  split
  · exact h
  · split
    · next e => rwa [e] at k
    · next e =>
      rw [e] at k
      cases w <;> exact k

theorem State.outerDo_mem_wf (iss x n r w fr f) : endsWf (s.outerDo iss x n r w fr f) := by
  simp only [State.outerDo]
  split
  · exact State.blockDo_mem_wf h ..
  · exact State.tierDo_mem_wf h ..
  · exact h
  · exact h
  · exact h
  · split
    · exact h
    · split_ifs
      · exact State.relayDo_mem_wf h ..
      · exact State.homeDo_mem_wf h ..
      · exact State.homeDo_mem_wf (State.l1Leave_mem_wf h ..) ..
      · exact State.l1Read_mem_wf h ..
      · split
        · exact h
        · exact State.l1Write_mem_wf h ..

end
end Sys2Proof.Machine
end

section
/-! SUPPORT. Memory keeps its canonical form while coroutines begin, end and are suspended, and through writes of the
register space. -/

namespace Sys2Proof.Machine

section
variable {s : State}

@[simp] theorem State.askStarter_mem : s.askStarter.mem = s.mem := by
  unfold State.askStarter; split <;> simp

@[simp] theorem State.setRec_mem (r) : (s.setRec r).mem = s.mem := rfl
@[simp] theorem State.askUnloads_mem : s.askUnloads.mem = s.mem := rfl
@[simp] theorem State.dropTags_mem (n) : (s.dropTags n).mem = s.mem := rfl
@[simp] theorem State.orphan_mem (l l') : (s.orphan l l').mem = s.mem := by simp [State.orphan]
@[simp] theorem State.touch_mem (a) : (s.touch a).mem = s.mem := rfl

@[simp] theorem State.continueHeld_mem : s.continueHeld.mem = s.mem := by
  unfold State.continueHeld; split <;> simp

@[simp] theorem State.cregSetSys_mem (n v) : (s.cregSetSys n v).mem = s.mem := by
  simp only [State.cregSetSys]
  repeat' split
  all_goals simp

@[simp] theorem State.cregWrite_mem (n v) : (s.cregWrite n v).mem = s.mem := by
  unfold State.cregWrite; split <;> simp

@[simp] theorem State.domainEvent_mem (d) : (s.domainEvent d).mem = s.mem := by simp [State.domainEvent]

@[simp] theorem State.bankConflictOp_mem (d) : (s.bankConflictOp d).mem = s.mem := by
  simp only [State.bankConflictOp]
  split_ifs <;> simp

@[simp] theorem State.migrationCompleteOp_mem (d) : (s.migrationCompleteOp d).mem = s.mem := by
  simp only [State.migrationCompleteOp]
  split_ifs <;> simp

@[simp] theorem State.mctlOp_mem (v) : (s.mctlOp v).mem = s.mem := rfl
@[simp] theorem State.swRegWrite_mem (o v) : (s.swRegWrite o v).mem = s.mem := by
  simp only [State.swRegWrite]
  split_ifs <;> rfl

@[simp] theorem State.starterWrite_mem (o v) : (s.starterWrite o v).mem = s.mem := by
  simp only [State.starterWrite]
  split_ifs <;> rfl

@[simp] theorem State.setCcb_mem (d b) : (s.setCcb d b).mem = s.mem := rfl
@[simp] theorem State.ccbStatus_mem (d n) : (s.ccbStatus d n).mem = s.mem := rfl
@[simp] theorem State.closeOn_mem (d n) : (s.closeOn d n).mem = s.mem := by
  unfold State.closeOn; split <;> simp

@[simp] theorem State.ccmdOpenOp_mem (d t i) : (s.ccmdOpenOp d t i).mem = s.mem := by
  unfold State.ccmdOpenOp
  repeat' split
  all_goals simp

@[simp] theorem State.ccmdResumeOp_mem (d t i) : (s.ccmdResumeOp d t i).mem = s.mem := by
  unfold State.ccmdResumeOp
  repeat' split
  all_goals simp [State.onCore]

@[simp] theorem State.ccmdCloseOp_mem (d) : (s.ccmdCloseOp d).mem = s.mem := rfl

@[simp] theorem State.editOpen_mem (d f) : (s.editOpen d f).mem = s.mem := by
  unfold State.editOpen; split <;> simp [State.onCore]

@[simp] theorem State.keyLoadOp_mem (n r) : (s.keyLoadOp n r).mem = s.mem := by
  unfold State.keyLoadOp
  repeat' split
  all_goals rfl

@[simp] theorem State.keyEraseOp_mem (n) : (s.keyEraseOp n).mem = s.mem := rfl
@[simp] theorem State.systemEvent_mem : s.systemEvent.mem = s.mem := by simp [State.systemEvent]
@[simp] theorem State.scrubStatus_mem (n) : (s.scrubStatus n).mem = s.mem := rfl

@[simp] theorem State.cancelChan_mem (i) : (s.cancelChan i).mem = s.mem := by
  unfold State.cancelChan; split <;> simp

@[simp] theorem State.cancelWhere_mem (id p) : (s.cancelWhere id p).mem = s.mem :=
  State.foldl_mem _ (fun t i => by
    repeat' split
    all_goals simp) _ s

@[simp] theorem State.attestOp_mem (req) : (s.attestOp req).mem = s.mem := by
  simp only [State.attestOp]
  split_ifs <;> simp

@[simp] theorem State.hostsigOp_mem (v) : (s.hostsigOp v).mem = s.mem := by
  unfold State.hostsigOp; split <;> rfl

end

section
variable {s : State} (h : s.mem.wf = true)
include h

/-! ## Coroutines (spec/06, spec/15) -/

@[simp] theorem State.journal_mem_wf (r e n) : (s.journal r e n).mem.wf = true := by simp [State.journal, h]

@[simp] theorem State.countEnd_mem_wf (c b) : (s.countEnd c b).mem.wf = true := by
  simp only [State.countEnd, State.askStarter_mem]
  repeat' split
  all_goals simp [h]

@[simp] theorem State.abortTag_mem_wf (n g c) : (s.abortTag n g c).mem.wf = true := by
  simp only [State.abortTag]
  exact State.appendRecord_mem_wf (State.foldl_mem_wf h _ (fun t ht b => by simp [ht])) ..

@[simp] theorem State.sendAborts_mem_wf (l) : (s.sendAborts l).mem.wf = true :=
  State.foldl_mem_wf h _ (fun t ht g => by simp [ht])

@[simp] theorem State.endRunning_mem_wf (b) : (s.endRunning b).mem.wf = true := by
  simp only [State.endRunning]
  split <;> simp [h]

@[simp] theorem State.endSaved_mem_wf (c) : (s.endSaved c).mem.wf = true := by simp [State.endSaved, h]

@[simp] theorem State.killCoro_mem_wf (n) : (s.killCoro n).mem.wf = true := by
  simp only [State.killCoro]
  repeat' split
  all_goals simp [h]

@[simp] theorem State.killSoon_mem_wf (n) : (s.killSoon n).mem.wf = true := by
  unfold State.killSoon
  split <;> simp [h]

theorem State.addCoro_mem_wf {c x} (e : s.addCoro c = some x) : x.2.mem.wf = true := by
  simp only [State.addCoro] at e
  split at e
  · cases e
  · cases e
    split <;> simp [h]

@[simp] theorem State.takeDeferred_mem_wf : s.takeDeferred.mem.wf = true := by
  simp only [State.takeDeferred]
  repeat' split
  all_goals simp [h]

@[simp] theorem State.preempt_mem_wf : s.preempt.mem.wf = true := by
  simp only [State.preempt]
  repeat' split
  all_goals simp [h]

@[simp] theorem State.preemptDrained_mem_wf (why) : (s.preemptDrained why).mem.wf = true := by
  unfold State.preemptDrained
  split <;> simp [h]

@[simp] theorem State.preemptFor_mem_wf (why) : (s.preemptFor why).mem.wf = true := by
  unfold State.preemptFor
  repeat' split
  all_goals simp [h]

@[simp] theorem State.drainStep_mem_wf (d) : (s.drainStep d).mem.wf = true := by
  simp only [State.drainStep]
  repeat' split
  all_goals simp [h]

@[simp] theorem State.machineCheckCore_mem_wf : s.machineCheckCore.mem.wf = true := by
  simp only [State.machineCheckCore]
  refine State.foldl_mem_wf ?_ _ (fun t ht k => by simp [ht])
  rw [State.modCore_mem]
  repeat' split
  all_goals simp [h]

/-! ## Registers (spec/02 R58 to R66, spec/15 R366 to R369, spec/18 R396) -/

@[simp] theorem State.clearBitmap_mem_wf (d) : (s.clearBitmap d).mem.wf = true := Memory.wf_erase _ _ h
@[simp] theorem State.setMoved_mem_wf (d x) : (s.setMoved d x).mem.wf = true := Memory.wf_set _ _ h

@[simp] theorem State.hdcfgOp_mem_wf (d v) : (s.hdcfgOp d v).mem.wf = true := by
  simp only [State.hdcfgOp]
  repeat' split
  all_goals simp [h]

@[simp] theorem State.granuleMoveOp_mem_wf (d) : (s.granuleMoveOp d).mem.wf = true := by
  simp only [State.granuleMoveOp]
  split_ifs <;> simp [h]

@[simp] theorem State.memRegWrite_mem_wf (o v) : (s.memRegWrite o v).mem.wf = true := by
  unfold State.memRegWrite
  extract_lets
  iterate 14 refine State.ite_mem_wf (by exact h) ?_
  refine State.ite_mem_wf (State.hdcfgOp_mem_wf h ..) ?_
  split <;> exact h

@[simp] theorem State.ccmdKillOp_mem_wf (d t i) : (s.ccmdKillOp d t i).mem.wf = true := by
  unfold State.ccmdKillOp
  split
  · simp [h]
  · simpa using State.onCore_mem_wf h _ (fun t ht => State.killSoon_mem_wf ht _)

@[simp] theorem State.ccmdOp_mem_wf (d v) : (s.ccmdOp d v).mem.wf = true := by
  simp only [State.ccmdOp]
  repeat' split
  all_goals simp [h]

@[simp] theorem State.ccbWrite_mem_wf (d o v) : (s.ccbWrite d o v).mem.wf = true := by
  unfold State.ccbWrite
  split_ifs <;> simp [h]

@[simp] theorem State.killWhere_mem_wf (id p) : (s.killWhere id p).mem.wf = true :=
  State.foldl_mem_wf h _ (fun _ ht k => State.onCore_mem_wf ht _ (fun _ hu => State.killCoro_mem_wf hu k.cnum))

theorem State.killAll_mem_wf (ids : List Nat) (p) : (ids.foldl (fun t id => t.killWhere id p) s).mem.wf = true :=
  State.foldl_mem_wf h _ (fun _ ht _ => State.killWhere_mem_wf ht ..)

omit h in
theorem State.cancelAll_mem (ids : List Nat) (p) : (ids.foldl (fun t id => t.cancelWhere id p) s).mem = s.mem :=
  State.foldl_mem _ (fun _ _ => State.cancelWhere_mem ..) ids s

@[simp] theorem State.engagementScrubOp_mem_wf (req) : (s.engagementScrubOp req).mem.wf = true := by
  simp only [State.engagementScrubOp]
  split_ifs
  · exact h
  · exact h
  · exact h
  · exact h
  · rw [State.push_mem]
    dsimp only
    rw [State.cancelAll_mem]
    exact State.killAll_mem_wf h ..

@[simp] theorem State.sysWrite_mem_wf (b o v) : (s.sysWrite b o v).mem.wf = true := by
  unfold State.sysWrite
  extract_lets
  refine State.ite_mem_wf (by split <;> exact h) ?_
  refine State.ite_mem_wf (by simp [h]) ?_
  iterate 2 refine State.ite_mem_wf (by exact h) ?_
  refine State.ite_mem_wf (by split <;> simp [h]) ?_
  refine State.ite_mem_wf (State.engagementScrubOp_mem_wf h _) ?_
  refine State.ite_mem_wf (by simp [h]) ?_
  iterate 4 refine State.ite_mem_wf (by exact h) ?_
  split
  · exact State.writeBackAll_mem_wf h _
  · exact h

@[simp] theorem State.regWrite_mem_wf (b pa v) : (s.regWrite b pa v).mem.wf = true := by
  simp only [State.regWrite]
  split_ifs <;> simp [h]

end
end Sys2Proof.Machine
end

section
/-! SUPPORT. Memory keeps its canonical form through loads, stores and atomics, at whatever target they reach, and through
the operations on batons and the decisions of the pacer. -/

namespace Sys2Proof.Machine

/-- Of an access whose outcome is a datum, a cause or a wait: the state in it has memory in canonical form. -/
@[simp] def Done.Wf {α : Type} : Done α → Prop
  | .ok _ t => t.mem.wf = true
  | .cause _ t => t.mem.wf = true
  | .wait t => t.mem.wf = true

theorem Done.wf_of_eq {α : Type} {r r' : Done α} (k : r.Wf) (e : r = r') : r'.Wf := e ▸ k

/-- Of an access that gives a state alone. -/
@[simp] def stateWf : Except Stop State → Prop
  | .ok t => t.mem.wf = true
  | .error e => e.Wf

/-! ## What asks and posts changes no memory (R180, R227) -/

section
variable {s : State}

@[simp] theorem State.setFlight_mem (f) : (s.setFlight f).mem = s.mem := rfl

theorem State.takeReply_mem {c o n x} (e : s.takeReply c o n = some x) : x.2.mem = s.mem := by
  simp only [State.takeReply] at e
  repeat' split at e
  all_goals cases e
  rfl

theorem State.joinQueue_mem {c r t} (e : s.joinQueue c r = some t) : t.mem = s.mem := by
  simp only [State.joinQueue] at e
  split at e
  all_goals cases e
  simp [State.onCore]

theorem State.askFor_mem {c f els x} (e : s.askFor c f els = some x) : x.1.mem = s.mem := by
  simp only [State.askFor] at e
  split at e
  · cases e
  · obtain ⟨t, et, rfl⟩ := Option.map_eq_some_iff.1 e
    exact (State.joinQueue_mem et :)

theorem State.ask_mem {p els t} (e : s.ask p els = some t) : t.mem = s.mem := by
  simp only [State.ask] at e
  split_ifs at e
  · cases e
    rfl
  · cases e
    split
    · rfl
    · next e' => exact State.askFor_mem e'

@[simp] theorem State.post_mem (c fuel els k) : (s.post c fuel els k).1.mem = s.mem := by
  induction fuel generalizing s els k with
  | zero => rfl
  | succ n ih =>
    unfold State.post
    split
    · rfl
    · dsimp only
      split
      · rfl
      · next e => rw [ih, State.joinQueue_mem e]

@[simp] theorem State.postFar_mem (els) : (s.postFar els).1.mem = s.mem := by
  simp only [State.postFar]
  split <;> simp

@[simp] theorem State.deferFailure_mem (d) : (s.deferFailure d).mem = s.mem := by
  unfold State.deferFailure; split <;> rfl

end

/-! ## Accesses (spec/11 R277, R288, spec/01 R31) -/

section
variable {s : State} (h : s.mem.wf = true)
include h

theorem State.padBytesDo_mem_wf (a n r f) : endsWf (s.padBytesDo a n r f) := by
  simp only [State.padBytesDo]
  repeat' split
  all_goals simp [h, Memory.wf_write]

theorem State.padDo_mem_wf (iss c o n r f) : endsWf (s.padDo iss c o n r f) := by
  simp only [State.padDo]
  split
  · split
    · exact h
    · split
      · trivial
      · next r t e =>
        have k : t.mem = s.mem := State.takeReply_mem e
        split <;> simpa [k] using h
  · split
    · exact h
    · exact State.padBytesDo_mem_wf h ..

theorem State.regDo_mem_wf (pa r f) : endsWf (s.regDo pa r f) := by
  simp only [State.regDo]
  repeat' split
  all_goals simp [h]

theorem State.partAt_mem_wf (iss x n r w fr f) : endsWf (s.partAt iss x n r w fr f) := by
  unfold State.partAt
  split
  · exact State.padDo_mem_wf h ..
  · exact State.regDo_mem_wf h ..
  · exact State.outerDo_mem_wf h ..

theorem State.partDo_mem_wf (iss x n r w f) : endsWf (s.partDo iss x n r w f) := State.partAt_mem_wf h ..

theorem State.readBy_mem_wf {one} (hone : ∀ t : State, t.mem.wf = true → ∀ x n, endsWf (one t x n)) (ps) :
    endsWf (s.readBy one ps) := by
  induction ps generalizing s with
  | nil => exact h
  | cons p ps ih =>
    have k1 := hone s h p.1 p.2
    unfold State.readBy
    split
    · next e => rwa [e] at k1
    · next t e =>
      rw [e] at k1
      have k2 := ih k1
      split
      · next e' => rwa [e'] at k2
      · next e' => rwa [e'] at k2

theorem State.readParts_mem_wf (iss ps) : endsWf (s.readParts iss ps) :=
  State.readBy_mem_wf h (fun _ ht _ _ => State.partDo_mem_wf ht ..) ps

theorem State.readFresh_mem_wf (iss ps) : endsWf (s.readFresh iss ps) :=
  State.readBy_mem_wf h (fun _ ht _ _ => State.partAt_mem_wf ht ..) ps

theorem State.writeEach_mem_wf (iss bs ps) : stateWf (s.writeEach iss bs ps) := by
  induction ps generalizing s bs with
  | nil => exact h
  | cons p ps ih =>
    have k := State.partDo_mem_wf h iss p.1 p.2 false true (fun _ => some (bs.take p.2))
    unfold State.writeEach
    split
    · next e => rwa [e] at k
    · next e =>
      rw [e] at k
      exact ih k _

theorem State.writeParts_mem_wf (iss bs ps) : endsWf (s.writeParts iss bs ps) := by
  have k := State.writeEach_mem_wf h iss bs ps
  simp only [State.writeParts]
  split
  · exact h
  · split
    · next e => rwa [e] at k
    · exact h
    · trivial

@[simp] theorem State.cureWhole_mem_wf (iss ps) : (s.cureWhole iss ps).mem.wf = true := by
  simp only [State.cureWhole]
  refine State.foldl_mem_wf h _ (fun t ht q => ?_)
  have k (n bs) := State.partDo_mem_wf ht iss q.1 n false true (fun _ => some bs)
  split
  · exact ht
  · split
    · exact ht
    · split
      · exact ht
      · next e => exact endsWf_ok (k _ _) e

theorem State.readOver_mem_wf (iss sh ps) : endsWf (s.readOver iss sh ps) := by
  have k := State.readParts_mem_wf h iss ps
  simp only [State.readOver]
  split_ifs
  · exact k
  · exact h
  · exact h
  · split
    · next e => rwa [e] at k
    · next e => rwa [e] at k

theorem State.performSent_mem_wf {c iss hs x} (e : s.performSent c iss hs = some x) : x.2.mem.wf = true := by
  simp only [State.performSent] at e
  split at e
  · cases e
  · have k := State.writeParts_mem_wf (s := (s.post c (s.farStores hs.va hs.idx hs.insn hs.member hs.data hs.parts).length
      (s.farStores hs.va hs.idx hs.insn hs.member hs.data hs.parts) 0).1) (by simp [h]) iss hs.data hs.parts
    split at e
    · cases e
    · next e' =>
      cases e
      rwa [e'] at k

theorem State.release_mem_wf {k t} (e : s.release k = some t) : t.mem.wf = true := by
  simp only [State.release] at e
  split_ifs at e
  · cases e
    simp [h]
  · cases e
    exact h

@[simp] theorem State.released_mem_wf (k) {f : State → State} (hf : ∀ t : State, t.mem.wf = true → (f t).mem.wf = true) :
    (s.released k f).mem.wf = true := by
  unfold State.released
  split
  · exact hf s h
  · split
    · exact h
    · next e => exact hf _ (State.release_mem_wf h e)

@[simp] theorem State.performed_mem_wf (k) : (s.performed k).mem.wf = true := by
  unfold State.performed
  repeat' split
  all_goals simp [h]

theorem State.load_mem_wf (who iss b a n) : (s.load who iss b a n).Wf := by
  simp only [State.load]
  split
  · exact h
  · next ps _ =>
    split
    · next e => simpa [State.ask_mem e] using h
    · have k := State.readParts_mem_wf h iss ps
      split
      · exact h
      · next e => rwa [e] at k
      · next e => rwa [e] at k

theorem State.atomicDo_mem_wf (iss x n f) : (s.atomicDo iss x n f).Wf := by
  have k := State.partDo_mem_wf h iss x n true true (fun old => (f (leNat old)).map (leBytes n))
  simp only [State.atomicDo]
  split
  · exact h
  · next e => rwa [e] at k
  · next e => rwa [e] at k

theorem State.store_mem_wf (iss a bs ps) : (s.store iss a bs ps).Wf := by
  have k (els) := State.writeParts_mem_wf (s := (s.postFar els).1) (by simp [h]) iss bs ps
  simp only [State.store]
  split
  · next e =>
    have := k (s.farStores a 0 s.core.insn s.core.run.member bs ps)
    have := State.postFar_mem (s := s) (s.farStores a 0 s.core.insn s.core.run.member bs ps)
    simp_all
  · next e =>
    have k1 := k (s.farStores a 0 s.core.insn s.core.run.member bs ps)
    have k2 := State.postFar_mem (s := s) (s.farStores a 0 s.core.insn s.core.run.member bs ps)
    rw [e] at k1 k2
    split
    all_goals simp_all

theorem State.storeAs_mem_wf (who iss a bs) : stateWf (s.storeAs who iss a bs) := by
  simp only [State.storeAs]
  split
  · exact h
  · next ps _ =>
    have k := State.writeParts_mem_wf h iss bs ps
    split
    all_goals simp_all

theorem State.loadAs_mem_wf (who iss a n) : endsWf (s.loadAs who iss a n) := by
  have k := State.load_mem_wf h who iss true a n
  simp only [State.loadAs]
  split
  all_goals simp_all

end

/-! ## Batons (spec/05) -/

section
variable {s : State}

@[simp] theorem State.asked_mem (w) : (s.asked w).mem = s.mem := by
  unfold State.asked; split <;> rfl

@[simp] theorem State.bnewOp_mem (d f) : (s.bnewOp d f).mem = s.mem := by
  simp only [State.bnewOp]
  repeat' split
  all_goals simp

@[simp] theorem State.leaveTag_mem (b) : (s.leaveTag b).mem = s.mem := by
  simp only [State.leaveTag]
  split <;> simp

@[simp] theorem State.bfreeOp_mem (d w) : (s.bfreeOp d w).mem = s.mem := by
  simp only [State.bfreeOp]
  split <;> simp

end

section
variable {s : State} (h : s.mem.wf = true)
include h

@[simp] theorem State.checked_mem_wf (c) {f : State → State} (hf : (f s).mem.wf = true) : (s.checked c f).mem.wf = true := by
  unfold State.checked
  split <;> simp [h, hf]

@[simp] theorem State.checkedDone_mem_wf (w) {f : State → State} (hf : (f (s.asked w)).mem.wf = true) :
    (s.checkedDone w f).mem.wf = true := State.checked_mem_wf (by simp [h]) _ hf

@[simp] theorem State.armOp_mem_wf (w t b) : (s.armOp w t b).mem.wf = true := by
  simp only [State.armOp]
  split_ifs <;> simp [h]

@[simp] theorem State.bsigOp_mem_wf (w n) : (s.bsigOp w n).mem.wf = true := by
  refine State.checked_mem_wf h _ (State.noStrip_mem_wf h (State.released_mem_wf h _ (fun t ht => ?_)))
  split <;> simp [ht]

@[simp] theorem State.bsigErrOp_mem_wf (w n) : (s.bsigErrOp w n).mem.wf = true := by
  refine State.checked_mem_wf h _ (State.noStrip_mem_wf h ?_)
  refine State.ite_mem_wf (by simp [h]) (State.released_mem_wf h _ (fun t ht => ?_))
  split <;> simp [ht]

@[simp] theorem State.barvOp_mem_wf (d w n) : (s.barvOp d w n).mem.wf = true := by
  refine State.checked_mem_wf h _ (State.noStrip_mem_wf h (State.released_mem_wf h _ (fun t ht => ?_)))
  dsimp only
  split_ifs <;> simp [ht]

/-! ## The memory system and the pacer (spec/02, spec/06) -/

omit h in
@[simp] theorem State.walkFor_mem (n accs a) : (s.walkFor n accs a).mem = s.mem := by
  simp only [State.walkFor]
  repeat' split
  all_goals rfl

omit h in
@[simp] theorem State.homeServe_mem (r) : (s.homeServe r).mem = s.mem := by
  simp only [State.homeServe]
  split <;> simp

@[simp] theorem State.parkSaved_mem_wf (k t) : (s.parkSaved k t).mem.wf = true := by simp [State.parkSaved, h]

@[simp] theorem State.pace_mem_wf : s.pace.mem.wf = true := by
  simp only [State.pace]
  repeat' split
  all_goals simp [h]

@[simp] theorem State.requestPreempt_mem_wf (why cut e) : (s.requestPreempt why cut e).mem.wf = true := by
  unfold State.requestPreempt
  split_ifs <;> simp [h]

end
end Sys2Proof.Machine
end

section
/-! SUPPORT. Memory keeps its canonical form through scalar loads, stores and atomics, through launches and the starter,
and through the duplex streams. -/

namespace Sys2Proof.Machine

/-! ## Scalar loads, stores and atomics (spec/11) -/

section
variable {s : State} (h : s.mem.wf = true)
include h

@[simp] theorem State.handlerRange_mem_wf (a n) {f : State → State} (hf : (f s).mem.wf = true) :
    (s.handlerRange a n f).mem.wf = true := by
  unfold State.handlerRange
  split <;> simp [h, hf]

@[simp] theorem State.failAccess_mem_wf (acc c i a n) : (s.failAccess acc c i a n).mem.wf = true := by
  simp [State.failAccess, h]

@[simp] theorem State.loadOp_mem_wf (d a n b acq) : (s.loadOp d a n b acq).mem.wf = true := by
  refine State.handlerRange_mem_wf h _ _ ?_
  split
  · simp [h]
  · next ps _ =>
    have k := State.readOver_mem_wf h s.issuer s.core.run.shownBytes ps
    dsimp only
    split
    · next e => rw [State.ask_mem e, h]
    · split
      all_goals simp_all

@[simp] theorem State.storeOp_mem_wf (d a n r) : (s.storeOp d a n r).mem.wf = true := by
  refine State.handlerRange_mem_wf h _ _ ?_
  split
  · simp [h]
  · next ps _ =>
    dsimp only
    split
    on_goal 1 => refine State.noStrip_mem_wf h ?_
    all_goals
      refine State.released_mem_wf h _ (fun u hu => ?_)
      have k := State.store_mem_wf hu u.issuer a (lowBytes n (u.getS d)) ps
      split
      all_goals simp_all

@[simp] theorem State.loadWpOp_mem_wf (d a c n) : (s.loadWpOp d a c n).mem.wf = true := by
  unfold State.loadWpOp
  repeat' split
  all_goals simp [h]

@[simp] theorem State.atomApply_mem_wf (d a n op acq) : (s.atomApply d a n op acq).mem.wf = true := by
  simp only [State.atomApply]
  split
  · simp [h]
  · next ps _ =>
    have k := State.atomicDo_mem_wf h s.issuer ((ps.map (·.1)).headD { target := .zero }) n (fun old =>
      atomNew op n old ((s.getS (pairEven d)).toNat % 2 ^ (8 * n)) ((s.getS (pairOdd d)).toNat % 2 ^ (8 * n)))
    split
    · next e => rw [State.ask_mem e, h]
    · split
      · exact h
      · simp_all
      · split <;> simp_all

@[simp] theorem State.atomOp_mem_wf (g d a sc o w op) : (s.atomOp g d a sc o w op).mem.wf = true := by
  refine State.guarded_mem_wf h _ ?_
  dsimp only
  generalize (if w then 8 else 4) = n
  split
  on_goal 1 => refine State.noStrip_mem_wf h ?_
  all_goals
    refine State.handlerRange_mem_wf h _ _ ?_
    split
    · simp [h]
    · split
      · simp [h]
      · exact State.released_mem_wf h _ (fun t ht => State.atomApply_mem_wf ht ..)

/-! ## Launches and the starter (spec/14) -/

theorem State.readTable_mem_wf (who iss a z n) : endsWf (s.readTable who iss a z n) := by
  induction n generalizing s a with
  | zero => exact h
  | succ n ih =>
    have k1 := State.loadAs_mem_wf h who iss a z
    unfold State.readTable
    split
    · next e => rwa [e] at k1
    · next t e =>
      have k2 := ih (endsWf_ok k1 e) (a + w64 z)
      split
      · next e' => rwa [e'] at k2
      · next e' => rwa [e'] at k2

theorem State.readImage_mem_wf (who iss a z) : endsWf (s.readImage who iss a z) := by
  have k1 := State.loadAs_mem_wf h who iss a 64
  simp only [State.readImage]
  split
  · next e => rwa [e] at k1
  · next hd t e =>
    have ht := endsWf_ok k1 e
    split
    · exact ht
    · have k2 (a z n) := State.readTable_mem_wf (s := t) ht who iss a z n
      split
      · next e' => have := k2 (a + w64 (recField hd 24 8)) 32 (recField hd 8 4); rwa [e'] at this
      · next secs u e' =>
        have k3 (a z n) := State.readTable_mem_wf (s := u) (endsWf_ok (k2 ..) e') who iss a z n
        split
        · next e'' => have := k3 (a + w64 (recField hd 32 8)) 64 (recField hd 12 4); rwa [e''] at this
        · next e'' => exact (endsWf_ok (k3 ..) e'' :)

theorem State.storeCompletion_mem_wf (r n) : someWf (s.storeCompletion r n) := by
  simp only [State.storeCompletion]
  split
  · exact h
  · have k := State.storeAs_mem_wf h (s.agent r.asid (bitAt r.flags 0)) ⟨0, r.asid.toNat, s.slotOf r.asid.toNat, .device⟩
      r.cwaddr (leBytes 8 (r.completionWord n))
    split
    · trivial
    · exact State.appendRecord_mem_wf h ..
    · next e => rwa [e] at k

theorem State.completeRec_mem_wf (r n err) : someWf (s.completeRec r n err) := by
  have k := State.storeCompletion_mem_wf h r n
  unfold State.completeRec
  cases e : s.storeCompletion r n with
  | none => trivial
  | some t =>
    rw [e] at k
    have ht : t.mem.wf = true := k
    simp only [Option.map_some, someWf, State.askStarter_mem]
    split <;> simp [ht]



omit h in
@[simp] theorem State.unqueue_mem (r) : (s.unqueue r).mem = s.mem := by
  have k := State.foldl_mem (fun (t : State) (d : Word × BitVec 32) => t.releaseBaton d.1) (by simp) r.deps s
  simp only [State.unqueue]
  split <;> exact k

@[simp] theorem State.accept_mem_wf (r) : (s.accept r).2.mem.wf = true := by
  have k (t : State) (l : List (Word × BitVec 32)) : (l.foldl (fun t d => t.holdBaton d.1) t).mem = t.mem :=
    State.foldl_mem _ (by simp) l t
  simp only [State.accept]
  split <;> simp [k, h]

@[simp] theorem State.enqueue_mem_wf (r) : (s.enqueue r).2.mem.wf = true := by
  have k := State.accept_mem_wf h r
  simp only [State.enqueue, State.askStarter_mem]
  refine State.ite_mem_wf ?_ ?_ <;> exact k

omit h in
@[simp] theorem State.holdObj_mem (o q) : (s.holdObj o q).mem = s.mem := rfl

@[simp] theorem State.acceptLaunch_mem_wf (r o) : (s.acceptLaunch r o).2.mem.wf = true := by
  simp only [State.acceptLaunch]
  repeat' split
  all_goals simp [h]

theorem State.acceptLoad_mem_wf {bs x} (e : s.acceptLoad bs = some x) : x.2.mem.wf = true := by
  have k := State.readImage_mem_wf h { s.me with core := none } { s.issuer with via := .device } (parseRec bs).arg
    (recField bs 24 8)
  have load {t : State} (ht : t.mem.wf = true) {o : CodeObj} {y : Word × State}
      (e : ((((t.holdObj o (parseRec bs).queue).accept (parseRec bs)).2.completeRec
        ((t.holdObj o (parseRec bs).queue).accept (parseRec bs)).1 0 none).map (fun u =>
          (w64 (((t.holdObj o (parseRec bs).queue).accept (parseRec bs)).1.seq * 256), u))) = some y) : y.2.mem.wf = true := by
    obtain ⟨u, eu, rfl⟩ := Option.map_eq_some_iff.1 e
    exact someWf_iff.1 (State.completeRec_mem_wf (by simp [ht]) ..) _ eu
  simp only [State.acceptLoad] at e
  split at e
  · cases e
    exact h
  · split at e
    · cases e
    · cases e
      exact h
    · cases e
      exact h
    · next e' =>
      have ht := endsWf_ok k e'
      split at e
      · exact load ht e
      · split_ifs at e
        · cases e
          exact h
        · cases e
          exact h
        · exact load ht e

theorem State.submit_mem_wf {bs x} (e : s.submit bs = some x) : x.2.mem.wf = true := by
  simp only [State.submit] at e
  repeat' split at e
  case isFalse.isTrue => exact State.acceptLoad_mem_wf h e
  all_goals
    cases e
    simp [h]

@[simp] theorem State.launchOp_mem_wf (d a) : (s.launchOp d a).mem.wf = true := by
  refine State.released_mem_wf h _ (fun t ht => ?_)
  have k := State.load_mem_wf ht t.me t.issuer true a 128
  split
  · simp [ht]
  · split
    · next e => rwa [e] at k
    · next e =>
      rw [e] at k
      exact State.failAccess_mem_wf k ..
    · next e =>
      rw [e] at k
      split
      · exact ht
      · next e' => simpa using State.submit_mem_wf k e'

omit h in
@[simp] theorem State.acquireDeps_mem (r) : (s.acquireDeps r).mem = s.mem := State.foldl_mem _ (by simp) _ s

@[simp] theorem State.createOn_mem_wf (r n id b) : (s.createOn r n id b).mem.wf = true := by
  simp only [State.createOn, apply_ite State.mem, State.push_mem, ite_self]
  refine State.onCore_mem_wf h id (fun t ht => ?_)
  split
  · exact ht
  · next e =>
    have := State.addCoro_mem_wf (by simp [ht]) e
    split <;> exact this

@[simp] theorem State.createAll_mem_wf (r plan lin n) : (s.createAll r plan lin n).mem.wf = true := by
  induction n generalizing s lin with
  | zero => exact h
  | succ n ih =>
    unfold State.createAll
    exact ih (State.createOn_mem_wf h ..) _

@[simp] theorem State.dispatchLaunch_mem_wf (r plan) : (s.dispatchLaunch r plan).mem.wf = true := by
  unfold State.dispatchLaunch
  extract_lets n r1 s0 s1
  have h1 : s1.mem.wf = true := h
  split
  · split
    · next e => exact (someWf_iff.1 (State.completeRec_mem_wf h1 ..) _ e :)
    · exact h1
  · exact State.createAll_mem_wf h1 ..

@[simp] theorem State.dispatchUnload_mem_wf (r) : (s.dispatchUnload r).mem.wf = true := by
  simp only [State.dispatchUnload]
  split
  · exact someWf_getD (State.completeRec_mem_wf h ..) h
  · exact h

@[simp] theorem State.dispatch_mem_wf (r plan) : (s.dispatch r plan).mem.wf = true := by
  unfold State.dispatch
  extract_lets y s1 s2
  have h2 : s2.mem.wf = true := by simp [s2, s1, h]
  split
  · exact State.dispatchLaunch_mem_wf h2 ..
  · exact State.dispatchUnload_mem_wf h2 _
  · exact someWf_getD (State.completeRec_mem_wf (by simp [h2]) ..) h2

omit h in
@[simp] theorem State.holdRecs_mem (cs) : (s.holdRecs cs).mem = s.mem := by
  simp only [State.holdRecs]
  exact State.foldl_mem _ (by simp) _ _

@[simp] theorem State.decision_mem_wf : s.decision.mem.wf = true := by
  simp only [State.decision]
  split <;> simp [h]

omit h in
@[simp] theorem State.askTimed_mem : s.askTimed.mem = s.mem := by
  unfold State.askTimed; split <;> simp

omit h in
@[simp] theorem State.unname_mem (r) : (s.unname r).mem = s.mem := by
  simp only [State.unname]
  split <;> simp

theorem State.endQueued_mem_wf {r b n err t} (e : s.endQueued r b n err = some t) : t.mem.wf = true := by
  obtain ⟨u, eu, rfl⟩ := Option.map_eq_some_iff.1 e
  have ht : (if b then (s.unname r).journal r 3 0 else s.unname r).mem.wf = true := by split <;> simp [h]
  exact (someWf_iff.1 (State.completeRec_mem_wf ht ..) _ eu :)

@[simp] theorem State.cancelOp_mem_wf (d id) : (s.cancelOp d id).mem.wf = true := by
  simp only [State.cancelOp]
  repeat' split
  any_goals simp [h]
  next e => exact State.endQueued_mem_wf h e

end
end Sys2Proof.Machine
end

section
/-! SUPPORT. Memory keeps its canonical form through the duplex streams and their clean-ups, through messages, and through
what the core's units and other modules bring to it. -/

namespace Sys2Proof.Machine

/-! ## Duplex streams (spec/12) -/

section
variable {s : State}

@[simp] theorem State.setStage_mem (u st) : (s.setStage u st).mem = s.mem := rfl
@[simp] theorem State.goOn_mem (u st) : (s.goOn u st).mem = s.mem := rfl
@[simp] theorem State.cleanFails_mem (u b c) : (s.cleanFails u b c).mem = s.mem := rfl
@[simp] theorem State.dropPositions_mem (u n) : (s.dropPositions u n).mem = s.mem := rfl

@[simp] theorem State.endCleanup_mem (u) : (s.endCleanup u).mem = s.mem := by
  simp only [State.endCleanup]
  split <;> simp

@[simp] theorem State.ringFails_mem (u m c) : (s.ringFails u m c).mem = s.mem := by
  simp only [State.ringFails]
  split <;> simp

end

section
variable {s : State} (h : s.mem.wf = true)
include h

@[simp] theorem State.dropNotice_mem_wf (die w) : (s.dropNotice die w).mem.wf = true := by simp [State.dropNotice, h]

@[simp] theorem State.dsBaton_mem_wf (c die w tb) : (s.dsBaton c die w tb).2.mem.wf = true := by
  simp only [State.dsBaton]
  split_ifs
  · exact h
  · split <;> simp [h]

@[simp] theorem State.afterTruncate_mem_wf (c slot a pa x old n w) : (s.afterTruncate c slot a pa x old n w).mem.wf = true := by
  simp only [State.afterTruncate]
  split_ifs <;> simp [h]

@[simp] theorem State.streamAfter_mem_wf (c slot f b a pa x old) : (s.streamAfter c slot f b a pa x old).mem.wf = true := by
  simp only [State.streamAfter]
  repeat' split
  all_goals simp [h]

@[simp] theorem State.dsOp_mem_wf (f a b w bad) : (s.dsOp f a b w bad).mem.wf = true := by
  simp only [State.dsOp]
  refine State.ite_mem_wf (by simp [h]) (State.noStrip_mem_wf h (State.checkedDone_mem_wf h _ ?_))
  have h1 : (s.asked w).mem.wf = true := by simp [h]
  refine State.checked_mem_wf h1 _ ?_
  split
  · exact State.failAccess_mem_wf h1 ..
  · next pa x _ =>
    refine State.released_mem_wf h1 _ (fun t ht => ?_)
    have k := State.atomicDo_mem_wf ht t.issuer x 128 (f.new b)
    split
    · exact h
    · simp_all
    · split <;> simp_all

theorem State.freePage_mem_wf (u a) : stateWf (s.freePage u a) := by
  simp only [State.freePage]
  split
  · exact h
  · split
    · exact h
    · next x _ =>
      have k := State.atomicDo_mem_wf h (u.issuer .device) x 8 (fun old => if old = 0 then none else some (old ||| 1))
      split <;> simp_all

theorem State.beatRead_mem_wf (u a) : endsWf (s.beatRead u a) := by
  simp only [State.beatRead]
  split
  · exact h
  · split
    · trivial
    · next e => exact State.readParts_mem_wf (someWf_iff.1 (State.beatsArrive_mem_wf h ..) _ e) ..

theorem State.beatWrite_mem_wf (u a bs) : stateWf (s.beatWrite u a bs) := by
  simp only [State.beatWrite]
  split
  · exact h
  · next ps _ =>
    split
    · trivial
    · next e =>
      have k := State.writeParts_mem_wf (someWf_iff.1 (State.beatsArrive_mem_wf h ..) _ e) (u.issuer .unit) bs ps
      split <;> simp_all

theorem State.dsBytes_mem_wf (u o n r w f) : endsWf (s.dsBytes u o n r w f) := State.homeDo_mem_wf h ..

@[simp] theorem State.putFail_mem_wf (u n) : (s.putFail u n).mem.wf = true := by
  simp only [State.putFail]
  split
  · exact h
  · next e => exact endsWf_ok (State.dsBytes_mem_wf h ..) e

@[simp] theorem State.cleanupStart_mem_wf (u) : (s.cleanupStart u).mem.wf = true := by
  have k1 := State.dsBytes_mem_wf h u 0 64 true false (fun _ => none)
  simp only [State.cleanupStart]
  split
  · simp [h]
  · simp_all
  · next e =>
    have k2 := State.dsBytes_mem_wf (endsWf_ok k1 e) u 64 64 true false (fun _ => none)
    repeat' split
    all_goals simp_all

@[simp] theorem State.cleanTag_mem_wf (u m again) : (s.cleanTag u m again).mem.wf = true := by
  have k := State.loadAs_mem_wf h u.who (u.issuer .device) (u.slotAt m) 8
  simp only [State.cleanTag]
  repeat' split
  all_goals simp_all

@[simp] theorem State.cleanBeat_mem_wf (u m n) : (s.cleanBeat u m n).mem.wf = true := by
  have k1 := State.beatRead_mem_wf h u (u.slotAt m + w64 (128 + 128 * n))
  simp only [State.cleanBeat]
  split
  · simp [h]
  · split
    · simp [h]
    · simp_all
    · next bs t e =>
      have k2 := State.beatWrite_mem_wf (endsWf_ok k1 e) u (dsState u.rec_ + w64 (128 * n)) bs
      split
      · simp [h]
      · simp_all
      · simp_all

@[simp] theorem State.cleanupStep_mem_wf (pa) : (s.cleanupStep pa).mem.wf = true := by
  simp only [State.cleanupStep]
  split
  · exact h
  · next u _ =>
    split
    case h_2 =>
      split
      · simp [h]
      · next page _ =>
        have k := State.freePage_mem_wf h u (dsBtab u.rec_ + w64 (8 * (page % 2 ^ dsBtlog u.rec_)))
        split <;> simp_all
    all_goals simp [h]

@[simp] theorem State.cleanupDone_mem_wf (pa) : (s.cleanupDone pa).mem.wf = true := by
  simp only [State.cleanupDone]
  split
  · exact h
  · next u _ =>
    split
    · exact h
    · have k := State.dsBytes_mem_wf h u 18 2 true true (fun bs => some (leBytes 2 (leNat bs + 65535)))
      split <;> simp_all

@[simp] theorem State.cleanupFail_mem_wf (pa b c) : (s.cleanupFail pa b c).mem.wf = true := by
  simp only [State.cleanupFail]
  repeat' split
  all_goals simp [h]

end

/-! ## Messages (spec/11 R297 to R300) and the failures of posted stores (R418) -/

section
variable {s : State}

@[simp] theorem State.replyNow_mem (m n) : (s.replyNow m n).mem = s.mem := rfl

@[simp] theorem State.beginHandler_mem (m rest) : (s.beginHandler m rest).mem = s.mem := by
  simp only [State.beginHandler]
  repeat' split
  all_goals simp

@[simp] theorem State.deferTo_mem (core cnum inc d) : (s.deferTo core cnum inc d).mem = s.mem := by
  refine State.onCore_mem _ (fun t => ?_)
  dsimp only
  repeat' split
  all_goals simp

@[simp] theorem State.cureWords_mem (els) : (s.cureWords els).mem = s.mem := by
  simp only [State.cureWords]
  split <;> simp

@[simp] theorem State.datumLands_mem (c p out) : (s.datumLands c p out).mem = s.mem := by
  simp only [State.datumLands]
  generalize (fun x : Core => _) = f
  split <;> simp

@[simp] theorem State.replyLands_mem (cnum inc id r) : (s.replyLands cnum inc id r).mem = s.mem := by
  simp only [State.replyLands]
  repeat' split
  all_goals simp

@[simp] theorem State.deliver_mem (core cnum inc id rs) : (s.deliver core cnum inc id rs).mem = s.mem := by
  refine State.onCore_mem _ (fun t => ?_)
  dsimp only
  split
  · rfl
  · exact State.foldl_mem _ (by simp) _ _

end

section
variable {s : State} (h : s.mem.wf = true)
include h

theorem State.queueMessage_mem_wf {t : State} (ht : t.mem.wf = true) (r) : (s.queueMessage t r).mem.wf = true := by
  simp only [State.queueMessage]
  split
  · exact h
  · split
    · exact h
    · next e => simp [State.onCore, State.release_mem_wf ht e]

@[simp] theorem State.amsendOp_mem_wf (a) : (s.amsendOp a).mem.wf = true := by
  have k := State.load_mem_wf h s.me s.issuer true a 64
  simp only [State.amsendOp]
  split
  · simp [h]
  · split
    · simp_all
    · simp_all
    · next e =>
      rw [e] at k
      split
      · exact State.raise_mem_wf k _
      · exact State.checkedDone_mem_wf k _
          (State.noStrip_mem_wf (by simpa using k) (State.queueMessage_mem_wf h (by simpa using k) _))

@[simp] theorem State.amregOp_mem_wf (a b) : (s.amregOp a b).mem.wf = true := by
  simp only [State.amregOp]
  split_ifs <;> simp [h]

theorem State.performHeld_mem_wf (c iss) {fails : State → Deferred → State} (hf : ∀ t d, (fails t d).mem = t.mem) (hs) :
    (s.performHeld c iss fails hs).1.mem.wf = true := by
  induction hs generalizing s with
  | nil => exact h
  | cons x xs ih =>
    unfold State.performHeld
    split
    · exact h
    · next e => exact ih (State.performSent_mem_wf h e :)
    · next e => exact ih (by rw [hf]; exact (State.performSent_mem_wf h e :))

theorem State.performAll_mem_wf (c iss) {fails : State → Deferred → State} (hf : ∀ t d, (fails t d).mem = t.mem) (hs) :
    (s.performAll c iss fails hs).1.mem.wf = true := by
  simp only [State.performAll]
  split
  · exact State.performHeld_mem_wf (State.cureWhole_mem_wf h ..) _ _ hf _
  · exact State.performHeld_mem_wf h _ _ hf _

@[simp] theorem State.applyStores_mem_wf (sender cnum inc es) : (s.applyStores sender cnum inc es).mem.wf = true := by
  induction es generalizing s with
  | nil => exact h
  | cons e es ih =>
    have k := State.padDo_mem_wf h slotIssuer s.core.id e.off e.data.length false (fun _ => some e.data)
    unfold State.applyStores
    split
    · exact ih (by simp [h])
    · exact ih h
    · next e' => exact ih (endsWf_ok k e' :)

@[simp] theorem State.serveAll_mem_wf (es) : (s.serveAll es).2.mem.wf = true := by
  induction es generalizing s with
  | nil => exact h
  | cons e es ih =>
    unfold State.serveAll
    dsimp only
    split
    · exact ih h
    · exact ih h
    · next e' => exact ih (endsWf_ok (State.padDo_mem_wf h ..) e' :)

@[simp] theorem State.serveHead_mem_wf (r rest) : (s.serveHead r rest).mem.wf = true := by
  simp only [State.serveHead]
  split <;> simp [h]

end

/-! ## Record writes, pending data and batons of other modules (spec/05, spec/15 R373, spec/06 R180) -/

/-- Of an attempt to serve what is pending: the state in it has memory in canonical form. -/
@[simp] def Served.Wf : Served → Prop
  | .wait => True
  | .asked _ t => t.mem.wf = true
  | .out _ t => t.mem.wf = true

theorem Served.wf_of_eq {r r' : Served} (k : r.Wf) (e : r = r') : r'.Wf := e ▸ k

section
variable {s : State}

@[simp] theorem State.erasePending_mem (c ps) : (s.erasePending c ps).mem = s.mem := rfl
@[simp] theorem State.movePending_mem (c ps k) : (s.movePending c ps k).mem = s.mem := rfl

@[simp] theorem State.poll_mem (n) : (s.poll n).mem = s.mem := by
  simp only [State.poll]
  repeat' split
  all_goals simp

end

section
variable {s : State} (h : s.mem.wf = true)
include h

@[simp] theorem State.waitingWrite_mem_wf (die) : (s.waitingWrite die).mem.wf = true := by
  simp only [State.waitingWrite]
  repeat' split
  all_goals simp [h]

theorem State.serveAtoms_mem_wf (x n ps) : (s.serveAtoms x n ps).Wf := by
  induction ps generalizing s with
  | nil => exact h
  | cons p ps ih =>
    unfold State.serveAtoms
    split
    · trivial
    all_goals
      next e =>
        have k2 := ih (Done.wf_of_eq (State.atomicDo_mem_wf h ..) e)
        split
        · next e' => rwa [e'] at k2
        · exact k2

theorem State.serveParts_mem_wf (c ps x n) : (s.serveParts c ps x n).Wf := by
  simp only [State.serveParts]
  split
  · split
    · trivial
    · next e =>
      have k := State.askFor_mem e
      simp_all
  · split
    · exact State.serveAtoms_mem_wf h ..
    · have k := State.readParts_mem_wf h ((ps.map Pending.issuer).headD s.issuer) [(x, n)]
      split <;> simp_all

theorem State.servePendingStream_mem_wf (c p f b x) : someWf (s.servePendingStream c p f b x) := by
  have k := State.atomicDo_mem_wf h p.issuer x 128 (f.new b)
  simp only [State.servePendingStream]
  split
  · trivial
  · simp_all
  · split
    · simp_all
    · split <;> simp_all

@[simp] theorem State.pendingStores_mem_wf (c p) : (s.pendingStores c p).mem.wf = true := by
  have k := State.performAll_mem_wf h c p.issuer (fails := fun t d => t.deferTo s.core.id c.cnum.toNat c.inc.toNat d)
    (by simp) (storesOf c.pending)
  simp only [State.pendingStores]
  split_ifs <;> simp [k]

@[simp] theorem State.orphanStores_mem_wf (c p) : (s.orphanStores c p).mem.wf = true := by
  have k := State.performAll_mem_wf h c p.issuer (fails := fun t _ => t) (by simp)
    (storesOf (s.core.orphans.filter (fun q => q.coro == p.coro)))
  simp only [State.orphanStores]
  split_ifs <;> simp [k]

@[simp] theorem State.pendingStep_mem_wf (c p v) : (s.pendingStep c p v).mem.wf = true := by
  simp only [State.pendingStep]
  split
  · simp [h]
  · split_ifs <;> simp [h]
  · split
    · simp [h]
    · next e =>
      have := someWf_iff.1 (State.servePendingStream_mem_wf h ..) _ e
      split_ifs <;> simp [this]
  · split
    · simp [h]
    all_goals
      next e =>
        have k := Served.wf_of_eq (State.serveParts_mem_wf h ..) e
        simpa [State.foldl_mem] using k

@[simp] theorem State.orphanStep_mem_wf (p) : (s.orphanStep p).mem.wf = true := by
  simp only [State.orphanStep]
  split
  · simp [h]
  · simp [h]
  · exact someWf_getD (State.servePendingStream_mem_wf (by exact h) ..) h
  · split
    · exact h
    all_goals
      next e => exact Served.wf_of_eq (State.serveParts_mem_wf (by exact h) ..) e

@[simp] theorem State.datumArrives_mem_wf (cnum idx v b) : (s.datumArrives cnum idx v b).mem.wf = true := by
  simp only [State.datumArrives]
  repeat' split
  all_goals simp [h]

@[simp] theorem State.signalDropped_mem_wf (n w) : (s.signalDropped n w).mem.wf = true := by simp [State.signalDropped, h]

@[simp] theorem State.remoteSignal_mem_wf (n w k) : (s.remoteSignal n w k).mem.wf = true := by
  simp only [State.remoteSignal]
  repeat' split
  all_goals simp [h]

@[simp] theorem State.abortReceived_mem_wf (n g c) : (s.abortReceived n g c).mem.wf = true := by
  simp only [State.abortReceived]
  split <;> simp [h]

end
end Sys2Proof.Machine
end

section
/-! SUPPORT. Memory keeps its canonical form through the host's link, the scrubs, reset, training and power, and through
branches and the coroutine instructions. -/

namespace Sys2Proof.Machine

/-! ## The host link, scrubs, reset and power (spec/18) -/

section
variable {s : State}

@[simp] theorem State.leaseTick_mem (m) : (s.leaseTick m).mem = s.mem := by
  simp only [State.leaseTick]
  repeat' split
  all_goals simp

@[simp] theorem State.answer_mem (r) : (s.answer r).mem = s.mem := rfl
@[simp] theorem State.refuseHost_mem (m) : (s.refuseHost m).mem = s.mem := rfl

@[simp] theorem State.loseLink_mem : s.loseLink.mem = s.mem := State.foldl_mem _ (by simp) _ _

@[simp] theorem State.resetRegisters_mem : s.resetRegisters.mem = s.mem := rfl

@[simp] theorem State.lapse_mem : s.lapse.mem = s.mem := by
  simp only [State.lapse]
  split <;> simp

@[simp] theorem State.fullService_mem (b) : (s.fullService b).mem = s.mem := by
  simp only [State.fullService]
  repeat' split
  all_goals simp

@[simp] theorem State.repair_mem (b n) : (s.repair b n).mem = s.mem := by
  simp only [State.repair]
  split <;> simp

@[simp] theorem State.throttle_mem : s.throttle.mem = s.mem := rfl

@[simp] theorem State.unthrottle_mem : s.unthrottle.mem = s.mem := by
  simp only [State.unthrottle]
  repeat' split
  all_goals simp

end

section
variable {s : State} (h : s.mem.wf = true)
include h

theorem State.hostLine_mem_wf {r n x} (e : s.hostLine r n = some x) : x.2.mem.wf = true := by
  unfold State.hostLine at e
  extract_lets a at e
  split at e
  · cases e
  · next e' =>
    have ht := State.homeArrive_some h e'
    extract_lets s1 s2 old bad at e
    have h2 : s2.mem.wf = true := by
      dsimp only [s2, s1]
      split <;> simp [ht]
    clear_value s2
    cases e
    repeat' split
    all_goals simp [h2]

@[simp] theorem State.hostServe_mem_wf (r n) : (s.hostServe r n).mem.wf = true := by
  induction n generalizing s r with
  | zero => exact h
  | succ n ih =>
    unfold State.hostServe
    dsimp only
    split
    · exact h
    · split
      · exact h
      · next e =>
        have ht := State.hostLine_mem_wf h e
        exact ih ht _

@[simp] theorem State.hostRegister_mem_wf (r) : (s.hostRegister r).mem.wf = true := by
  unfold State.hostRegister
  split
  · split
    · exact h
    · rw [State.answer_mem]
      exact State.regWrite_mem_wf h ..
  · rw [State.answer_mem]
    exact h

@[simp] theorem State.hostRequest_mem_wf (r) : (s.hostRequest r).mem.wf = true := by
  have serve (n) := State.hostServe_mem_wf h r n
  unfold State.hostRequest
  extract_lets n refuse
  refine State.ite_mem_wf (serve _) ?_
  iterate 3 refine State.ite_mem_wf (by exact h) ?_
  refine State.ite_mem_wf (State.ite_mem_wf (by exact h) (serve _)) ?_
  exact State.ite_mem_wf (State.hostRegister_mem_wf h r) h

@[simp] theorem State.hostSignalOp_mem_wf (m w n) : (s.hostSignalOp m w n).mem.wf = true := by
  simp only [State.hostSignalOp]
  split_ifs <;> simp [h]

@[simp] theorem State.regainLink_mem_wf : s.regainLink.mem.wf = true := Memory.wf_foldl_set _ h

@[simp] theorem State.zeroHbm_mem_wf (lo hi) : (s.zeroHbm lo hi).mem.wf = true := Memory.wf_erase _ _ h

@[simp] theorem State.zeroRanges_mem_wf (lo hi) : (s.zeroRanges lo hi).mem.wf = true :=
  State.foldl_mem_wf h _ (fun _ ht r => State.zeroHbm_mem_wf ht r.1 r.2)

@[simp] theorem State.zeroPad_mem_wf (n) : (s.zeroPad n).mem.wf = true := Memory.wf_erase _ _ h

@[simp] theorem State.dropLine_mem_wf (l) : (s.dropLine l).mem.wf = true := by
  simp only [State.dropLine]
  split
  · exact h
  · exact Memory.wf_write _ _ h

@[simp] theorem State.dropLines_mem_wf (n) : (s.dropLines n).mem.wf = true :=
  State.foldl_mem_wf h _ (fun _ ht l => State.dropLine_mem_wf ht l)

@[simp] theorem State.zeroSpill_mem_wf (n) : (s.zeroSpill n).mem.wf = true := by
  simp only [State.zeroSpill]
  split <;> simp [h]

@[simp] theorem State.writeReceipt_mem_wf (d k n e r c b) : (s.writeReceipt d k n e r c b).mem.wf = true := by
  simp [State.writeReceipt, h]

@[simp] theorem State.startOwnerScrub_mem_wf : s.startOwnerScrub.mem.wf = true := by
  have t0 (l : List QRec) : (l.foldl (fun t r => (t.unname r).releaseBaton r.cbaton) s).mem = s.mem :=
    State.foldl_mem _ (by simp) _ _
  simp only [State.startOwnerScrub]
  split
  · exact h
  · rw [State.push_mem, State.cancelAll_mem]
    exact State.killAll_mem_wf (by simpa [t0] using h) ..

@[simp] theorem State.startSupervisor_mem_wf : s.startSupervisor.mem.wf = true := by
  simp only [State.startSupervisor]
  split
  · exact h
  · refine State.onCore_mem_wf (Memory.wf_foldl_set _ h) _ (fun t ht => ?_)
    split
    · exact ht
    · next e =>
      have k := State.addCoro_mem_wf ht e
      split
      · exact k
      · simpa using k

@[simp] theorem State.finishOwnerScrub_mem_wf : s.finishOwnerScrub.mem.wf = true := by
  have t0 : (s.namedBatons.foldl State.releaseBaton s).mem = s.mem := State.foldl_mem _ (by simp) _ _
  simp only [State.finishOwnerScrub]
  refine State.startSupervisor_mem_wf (State.writeReceipt_mem_wf ?_ ..)
  rw [State.resetRegisters_mem, State.mapCores_mem]
  refine Memory.wf_erase _ _ (State.zeroHbm_mem_wf (State.zeroHbm_mem_wf ?_ ..) ..)
  rwa [t0]

@[simp] theorem State.finishScrub_mem_wf (n e d rs) : (s.finishScrub n e d rs).mem.wf = true := by
  simp only [State.finishScrub]
  rw [State.systemEvent_mem]
  refine State.writeReceipt_mem_wf ?_ ..
  have h1 (l : List (Nat × Nat)) : (l.foldl (fun t r => t.zeroRanges (bits r.1 51 16 * 2 ^ 16)
      (bits r.1 51 16 * 2 ^ 16 + bits r.2 40 16 * 2 ^ 16)) (s.dropLines n)).mem.wf = true :=
    State.foldl_mem_wf (State.dropLines_mem_wf h n) _ (fun _ ht _ => State.zeroRanges_mem_wf ht ..)
  have h2 {t : State} (ht : t.mem.wf = true) (l : List Nat) : (l.foldl (fun t id => ({ t.zeroPad id with
      caches := { t.caches with l1 := t.caches.l1.filter (·.core != id) } }).zeroSpill id) t).mem.wf = true :=
    State.foldl_mem_wf ht _ (fun _ hu id => State.zeroSpill_mem_wf (by exact State.zeroPad_mem_wf hu id) _)
  generalize hu : List.foldl _ (s.dropLines n) _ = u
  generalize hv : List.foldl _ u _ = v
  have ku : u.mem.wf = true := hu ▸ h1 _
  have kv : v.mem.wf = true := hv ▸ h2 ku _
  split <;> simp [kv]

@[simp] theorem State.finishReport_mem_wf (d n) : (s.finishReport d n).mem.wf = true := by simp [State.finishReport, h]

@[simp] theorem State.casOwn_mem_wf (x e n) : (s.casOwn x e n).mem.wf = true := by
  simp only [State.casOwn]
  split_ifs <;> simp [h]

@[simp] theorem State.powerOn_mem_wf : s.powerOn.mem.wf = true := Memory.wf_erase _ _ h

@[simp] theorem State.resetModule_mem_wf : s.resetModule.mem.wf = true := by
  simp only [State.resetModule]
  exact State.startSupervisor_mem_wf (by exact State.powerOn_mem_wf h)

@[simp] theorem State.learnPlane_mem_wf (p) : (s.learnPlane p).mem.wf = true := by
  simp only [State.learnPlane]
  split <;> simp [h]

@[simp] theorem State.trainFabric_mem_wf (ps) : (s.trainFabric ps).mem.wf = true := by
  simp only [State.trainFabric, State.fullService_mem]
  exact State.foldl_mem_wf (State.foldl_mem_wf (by exact h) _ (fun _ ht p => State.planeFail_mem_wf ht p)) _
    (fun _ ht p => State.learnPlane_mem_wf ht p)

@[simp] theorem State.heatStop_mem_wf : s.heatStop.mem.wf = true := by
  have k := State.foldl_mem_wf h (s.cores.map (·.id)) (f := fun t id => t.onCore id State.machineCheckCore)
    (fun _ ht id => State.onCore_mem_wf ht id (fun _ hu => State.machineCheckCore_mem_wf hu))
  simp only [State.heatStop]
  generalize List.foldl _ s _ = t at k ⊢
  exact k

end

/-! ## Branches and coroutine instructions (spec/07 R205 to R213, spec/06) -/

section
variable {s : State}

@[simp] theorem State.loopOp_mem (k i) : (s.loopOp k i).mem = s.mem := by
  simp only [State.loopOp]
  split_ifs <;> simp

@[simp] theorem State.countSpawn_mem : s.countSpawn.mem = s.mem := by
  simp only [State.countSpawn]
  split <;> simp

@[simp] theorem State.register_mem (w n) : (s.register w n).mem = s.mem := by
  simp only [State.register]
  split_ifs <;> simp

end

section
variable {s : State} (h : s.mem.wf = true)
include h

@[simp] theorem State.spawnOp_mem_wf (d pc arg) : (s.spawnOp d pc arg).mem.wf = true := by
  simp only [State.spawnOp]
  split
  · simp [h]
  · split
    · simp [h]
    · next e => simp [State.addCoro_mem_wf h e]

@[simp] theorem State.awaitOp_mem_wf (w live keep) : (s.awaitOp w live keep).mem.wf = true := by
  simp only [State.awaitOp]
  split <;> simp [h]

@[simp] theorem State.yieldOp_mem_wf (live keep) : (s.yieldOp live keep).mem.wf = true := by
  simp only [State.yieldOp]
  repeat' split
  all_goals simp [h]

end
end Sys2Proof.Machine
end

section
/-! SUPPORT. Memory keeps its canonical form through the vector instructions (spec/08 to spec/11). -/

namespace Sys2Proof.Machine

/-! ## What the vector instructions share (R255, R378) -/

section
variable {s : State} (h : s.mem.wf = true)
include h

@[simp] theorem State.vIssue_mem_wf (op) {k : State → State} (hk : (k s).mem.wf = true) : (s.vIssue op k).mem.wf = true := by
  unfold State.vIssue
  split <;> simp [h, hk]

@[simp] theorem State.endCut_mem_wf (why) : (s.endCut why).mem.wf = true := by
  simp only [State.endCut]
  exact State.preemptFor_mem_wf (by exact h) _

@[simp] theorem State.stopV_mem_wf (p why) : (s.stopV p why).mem.wf = true := by
  simp only [State.stopV]
  split <;> simp [h]

@[simp] theorem State.finishV_mem_wf : s.finishV.mem.wf = true := by
  unfold State.finishV
  split <;> simp [h]

@[simp] theorem State.finishAt_mem_wf (cut) : (s.finishAt cut).mem.wf = true := by
  unfold State.finishAt
  repeat' split
  all_goals simp [h]

omit h in
@[simp] theorem State.retireLanes_mem (n) : (s.retireLanes n).mem = s.mem := rfl

@[simp] theorem State.raiseLane_mem_wf (c i l r e m) : (s.raiseLane c i l r e m).mem.wf = true := by
  simp only [State.raiseLane]
  split <;> simp [h]

@[simp] theorem State.raiseVreg_mem_wf (x) : (s.raiseVreg x).mem.wf = true := by
  simp only [State.raiseVreg]
  split <;> simp [h]

@[simp] theorem State.sweepTo_mem_wf (op stop body) : (s.sweepTo op stop body).mem.wf = true := by
  simp only [State.sweepTo]
  split <;> simp [h]

@[simp] theorem State.sweep_mem_wf (op body) : (s.sweep op body).mem.wf = true :=
  State.vIssue_mem_wf h _ (State.sweepTo_mem_wf h ..)

@[simp] theorem State.crossSweep_mem_wf (op part body) : (s.crossSweep op part body).mem.wf = true := by
  refine State.vIssue_mem_wf h _ ?_
  split <;> simp [h]

@[simp] theorem State.elementwise_mem_wf (op g f) : (s.elementwise op g f).mem.wf = true := State.sweep_mem_wf h ..

/-! ## Element-wise instructions (spec/08, spec/10) -/

@[simp] theorem State.vvv_mem_wf (g d a b ok f) : (s.vvv g d a b ok f).mem.wf = true := State.elementwise_mem_wf h ..
@[simp] theorem State.vvs_mem_wf (g d a b ok f) : (s.vvs g d a b ok f).mem.wf = true := State.elementwise_mem_wf h ..
@[simp] theorem State.vcmp_mem_wf (g d a b f) : (s.vcmp g d a b f).mem.wf = true := State.elementwise_mem_wf h ..
@[simp] theorem State.mmm_mem_wf (g d a b f) : (s.mmm g d a b f).mem.wf = true := State.elementwise_mem_wf h ..
@[simp] theorem State.maskCount_mem_wf (g d a f) : (s.maskCount g d a f).mem.wf = true := State.crossSweep_mem_wf h ..
@[simp] theorem State.vfff_mem_wf (g d a b f) : (s.vfff g d a b f).mem.wf = true := State.elementwise_mem_wf h ..
@[simp] theorem State.vffs_mem_wf (g d a b f) : (s.vffs g d a b f).mem.wf = true := State.elementwise_mem_wf h ..
@[simp] theorem State.vfcmp_mem_wf (g d a b cc) : (s.vfcmp g d a b cc).mem.wf = true := State.elementwise_mem_wf h ..
@[simp] theorem State.vfsign_mem_wf (g d a b f) : (s.vfsign g d a b f).mem.wf = true := State.elementwise_mem_wf h ..
@[simp] theorem State.vsf_mem_wf (g d a f) : (s.vsf g d a f).mem.wf = true := State.elementwise_mem_wf h ..
@[simp] theorem State.vconv_mem_wf (g d a t r) : (s.vconv g d a t r).mem.wf = true := State.elementwise_mem_wf h ..
@[simp] theorem State.vquantOp_mem_wf (g op f) : (s.vquantOp g op f).mem.wf = true := State.sweep_mem_wf h ..
@[simp] theorem State.vquantGiven_mem_wf (g d a m b p) : (s.vquantGiven g d a m b p).mem.wf = true :=
  State.vquantOp_mem_wf h ..

/-! ## Loads and stores of elements (R281 to R286) -/

@[simp] theorem State.failElem_mem_wf (acc x c w) : (s.failElem acc x c w).mem.wf = true := by simp [State.failElem, h]

theorem State.waitOrStop_mem_wf {t : State} (ht : t.mem.wf = true) : (s.waitOrStop t).mem.wf = true := by
  unfold State.waitOrStop
  split
  · exact ht
  · split <;> simp [h, ht]

omit h in
@[simp] theorem State.keepXlats_mem (acc far pend ps) : (s.keepXlats acc far pend ps).mem = s.mem := by
  unfold State.keepXlats
  split <;> simp

theorem State.loadParts_mem_wf (shown f i ps) : (s.loadParts shown f i ps).2.2.mem.wf = true := by
  induction ps generalizing s i with
  | nil => exact h
  | cons p ps ih =>
    have k := State.readOver_mem_wf h s.issuer shown [p.part]
    unfold State.loadParts
    dsimp only
    split
    · exact ih h _
    · split
      · exact ih h _
      · simp_all
      · next e => exact ih (endsWf_ok k e :) _

omit h in
@[simp] theorem State.landParts_mem (d w acq ps) : (s.landParts d w acq ps).mem = s.mem := by
  simp only [State.landParts]
  split <;> simp

@[simp] theorem State.endLoad_mem_wf (d w acq first ps fail stop cut) :
    (s.endLoad d w acq first ps fail stop cut).mem.wf = true := by
  simp only [State.endLoad]
  repeat' split
  all_goals simp [h]

@[simp] theorem State.loadEls_mem_wf (d w acq ps fail stop cut) : (s.loadEls d w acq ps fail stop cut).mem.wf = true := by
  have k := State.loadParts_mem_wf h s.core.run.heldBytes (s.core.run.flightOr []) 0 (VPart.parts ps)
  simp only [State.loadEls]
  split
  · next e =>
    split at e
    · cases e
    · rw [State.ask_mem e, h]
  · exact State.ite_mem_wf h (State.endLoad_mem_wf k ..)

@[simp] theorem State.vloadBody_mem_wf (op bad g d f ch acq) : (s.vloadBody op bad g d f ch acq).mem.wf = true := by
  simp only [State.vloadBody]
  repeat' split
  all_goals simp [h]

@[simp] theorem State.vload_mem_wf (g d f ch acq) : (s.vload g d f ch acq).mem.wf = true :=
  State.vIssue_mem_wf h _ (State.ite_mem_wf (State.raise_mem_wf h _) (State.vloadBody_mem_wf h ..))

theorem State.storeEach_mem_wf (data idx xs) : someWf (s.storeEach data idx xs) := by
  induction xs generalizing s with
  | nil => exact h
  | cons x xs ih =>
    have k := State.writeParts_mem_wf h s.issuer (data x.1) x.2
    unfold State.storeEach
    split
    · trivial
    · next e => exact ih (endsWf_ok k e)
    · next e => exact ih (by simpa using endsWf_ok k e)

theorem State.performEls_mem_wf (data idx ps) : (s.performEls data idx ps).Wf := by
  have k := State.postFar_mem (s := s.keepXlats .write (!(s.farWrites data idx ps).isEmpty) [] ps) (s.farWrites data idx ps)
  rw [State.keepXlats_mem] at k
  simp only [State.performEls]
  split
  · next e =>
    rw [e] at k
    simp_all
  · next e =>
    rw [e] at k
    have ht := k ▸ h
    split
    · exact ht
    · next e' => exact someWf_iff.1 (State.storeEach_mem_wf (State.cureWhole_mem_wf ht ..) ..) _ e'

theorem State.performStore_mem_wf (n data idx ps) : (s.performStore n data idx ps).Wf := by
  unfold State.performStore
  split
  · exact h
  · exact State.performEls_mem_wf h ..

theorem State.storeEls_mem_wf (rel n data idx ps) {fin : State → State}
    (hf : ∀ t : State, t.mem.wf = true → (fin t).mem.wf = true) : (s.storeEls rel n data idx ps fin).mem.wf = true := by
  unfold State.storeEls
  split
  · exact State.waitOrStop_mem_wf h h
  · next t e =>
    have ht : t.mem.wf = true := by
      split at e
      · cases e
        exact h
      · split at e
        · cases e
          exact h
        · exact State.release_mem_wf h e
    have k := State.performStore_mem_wf ht n data idx ps
    split
    · next e' => exact State.waitOrStop_mem_wf h (Done.wf_of_eq k e')
    · exact h
    · next e' => exact hf _ (State.performed_mem_wf (Done.wf_of_eq k e') _)

@[simp] theorem State.vstoreBody_mem_wf (op bad g d f rel) : (s.vstoreBody op bad g d f rel).mem.wf = true := by
  simp only [State.vstoreBody]
  split
  · simp [h]
  · refine State.ite_mem_wf (State.raise_mem_wf h _) (State.storeEls_mem_wf h _ _ _ _ _ (fun t ht => ?_))
    split <;> simp [ht]

@[simp] theorem State.vstore_mem_wf (g d f o sc) : (s.vstore g d f o sc).mem.wf = true :=
  State.vIssue_mem_wf h _ (State.ite_mem_wf (State.raise_mem_wf h _)
    (State.ite_mem_wf (State.raise_mem_wf h _) (State.vstoreBody_mem_wf h ..)))

/-! ## Vector atomics (R290, R291) -/

theorem State.vatomElem_mem_wf (c o d e w p) : (s.vatomElem c o d e w p).Wf := by
  simp only [State.vatomElem]
  exact State.atomicDo_mem_wf h ..

theorem State.vatomEach_mem_wf {c o d e w ps x} (eq : s.vatomEach c o d e w ps = some x) : x.2.mem.wf = true := by
  induction ps generalizing s x with
  | nil =>
    cases eq
    exact h
  | cons p ps ih =>
    have k := State.vatomElem_mem_wf h c o d e w p
    unfold State.vatomEach at eq
    split at eq
    · cases eq
    · next e' =>
      obtain ⟨y, ey, rfl⟩ := Option.map_eq_some_iff.1 eq
      exact (ih (Done.wf_of_eq k e') ey :)
    · next e' => exact ih (by exact Done.wf_of_eq k e') eq

@[simp] theorem State.failMisaligned_mem_wf (x) : (s.failMisaligned x).mem.wf = true := by simp [State.failMisaligned, h]

@[simp] theorem State.vatomEnd_mem_wf (acq w stop fails) : (s.vatomEnd acq w stop fails).mem.wf = true := by
  simp only [State.vatomEnd]
  repeat' split
  all_goals simp [h]

@[simp] theorem State.vatomBody_mem_wf (g op o d e a rel acq) : (s.vatomBody g op o d e a rel acq).mem.wf = true := by
  simp only [State.vatomBody]
  split
  · simp [h]
  · split
    · simp [h]
    · refine State.released_mem_wf h _ (fun t ht => ?_)
      split
      · next e' => rw [State.ask_mem e', State.keepXlats_mem, ht]
      · split
        · simpa using ht
        · next e' => exact State.vatomEnd_mem_wf (State.vatomEach_mem_wf (by simpa using ht) e') ..

@[simp] theorem State.vatom_mem_wf (g o d e a sc ord) : (s.vatom g o d e a sc ord).mem.wf = true :=
  State.vIssue_mem_wf h _ (State.noStrip_mem_wf h (State.vatomBody_mem_wf h ..))

end

/-! ## Vector waits (R292) -/

/-- Of a round of `vwait`: the state in it has memory in canonical form. -/
@[simp] def Round.Wf : Round → Prop
  | .wait t => t.mem.wf = true
  | .held t => t.mem.wf = true
  | .unmet t => t.mem.wf = true
  | .cause _ _ t => t.mem.wf = true

theorem Round.wf_of_eq {r r' : Round} (k : r.Wf) (e : r = r') : r'.Wf := e ▸ k

section
variable {s : State}

@[simp] theorem State.backFrom_mem (t c) : (s.backFrom t c).mem = t.mem := rfl

variable (h : s.mem.wf = true)
include h

theorem State.roundEach_mem_wf (iss c v ok ps) : (s.roundEach iss c v ok ps).Wf := by
  induction ps generalizing s ok with
  | nil =>
    unfold State.roundEach
    split <;> exact h
  | cons p ps ih =>
    have k := State.readFresh_mem_wf h iss p.2
    unfold State.roundEach
    split
    · exact h
    · simp_all
    · next e => exact ih (endsWf_ok k e) _

theorem State.roundOf_mem_wf (v els) : (s.roundOf v els).Wf := by
  unfold State.roundOf
  split
  · next e => simp [State.ask_mem e, h]
  · exact State.roundEach_mem_wf h ..

theorem State.vwaitRoundOf_mem_wf (c v) : (s.vwaitRoundOf c v).Wf := by
  have k (els) := State.roundOf_mem_wf (s := s.modCore (fun k => { k with run := c, slot := none })) h v els
  simp only [State.vwaitRoundOf]
  split
  · simpa using h
  · split
    all_goals
      next e =>
        simpa using Round.wf_of_eq (k _) e

@[simp] theorem State.vwaitFirst_mem_wf (v els) : (s.vwaitFirst v els).mem.wf = true := by
  have k := State.roundOf_mem_wf h v els
  simp only [State.vwaitFirst]
  split <;> simp_all

@[simp] theorem State.vwaitOp_mem_wf (g cc a b) : (s.vwaitOp g cc a b).mem.wf = true := by
  refine State.vIssue_mem_wf h _ (State.noStrip_mem_wf h ?_)
  dsimp only
  repeat' split
  all_goals simp [h]

@[simp] theorem State.vwaitAgain_mem_wf (n) : (s.vwaitAgain n).mem.wf = true := by
  simp only [State.vwaitAgain]
  split
  · next c _ =>
    split
    · next v _ =>
      have k := State.vwaitRoundOf_mem_wf h c v
      split
      · simp_all
      · simp_all
      · split <;> simp_all
      · simp_all
    · exact h
  · split
    · exact h
    · next c _ =>
      split
      · next v _ =>
        have k := State.vwaitRoundOf_mem_wf h c v
        split
        · exact h
        · split <;> simp_all
      · exact h

end
end Sys2Proof.Machine
end

section
/-! SUPPORT. Memory keeps its canonical form through the matrix, position and control instructions, the relays, what comes
before an instruction's meaning, and the requests of the switch tier. -/

namespace Sys2Proof.Machine

/-! ## Matrix and position instructions (spec/11 R302 to R319) -/

section
variable {s : State} (h : s.mem.wf = true)
include h

@[simp] theorem State.raiseRow_mem_wf (x) : (s.raiseRow x).mem.wf = true := by
  simp only [State.raiseRow]
  split <;> simp [h]

@[simp] theorem State.rowSweep_mem_wf (rows stop body) : (s.rowSweep rows stop body).mem.wf = true := by
  simp only [State.rowSweep]
  split <;> simp [h]

@[simp] theorem State.rowIssue_mem_wf (regs w) {k : State → State} (hk : (k s).mem.wf = true) :
    (s.rowIssue regs w k).mem.wf = true := State.vIssue_mem_wf h _ hk

@[simp] theorem State.macRows_mem_wf (g e t m rows bs ops) : (s.macRows g e t m rows bs ops).mem.wf = true :=
  State.rowSweep_mem_wf h ..

@[simp] theorem State.mmkOp_mem_wf (g e a b t) : (s.mmkOp g e a b t).mem.wf = true := by
  simp only [State.mmkOp]
  refine State.rowIssue_mem_wf h _ _ ?_
  repeat' split
  all_goals simp [h]

@[simp] theorem State.gatherMac_mem_wf (g e a b t m bs) : (s.gatherMac g e a b t m bs).mem.wf = true := by
  simp only [State.gatherMac]
  split <;> simp [h]

@[simp] theorem State.mmgaOp_mem_wf (g e a b t) : (s.mmgaOp g e a b t).mem.wf = true := by
  simp only [State.mmgaOp]
  refine State.rowIssue_mem_wf h _ _ ?_
  repeat' split
  all_goals simp [h]

@[simp] theorem State.failRow_mem_wf (acc x c) : (s.failRow acc x c).mem.wf = true := by simp [State.failRow, h]

omit h in
@[simp] theorem State.enterPx_mem (a b c) : (s.enterPx a b c).mem = s.mem := rfl

@[simp] theorem State.missAt_mem_wf (st p r e) : (s.missAt st p r e).mem.wf = true := by
  simp only [State.missAt]
  split_ifs <;> simp [h]

/-! ## Control instructions (spec/09 R239 to R248, spec/11 R294) -/

@[simp] theorem State.vcfgOp_mem_wf (d r w) : (s.vcfgOp d r w).mem.wf = true := by
  simp only [State.vcfgOp]
  split <;> simp [h]

@[simp] theorem State.serveAccesses_mem_wf (q) : (s.serveAccesses q).mem.wf = true := by
  induction q generalizing s with
  | nil => exact h
  | cons r q ih =>
    cases r <;> unfold State.serveAccesses
    case message m => exact ih h
    all_goals exact ih (State.serveHead_mem_wf h ..)

@[simp] theorem State.splitWays_mem_wf (n) : (s.splitWays n).mem.wf = true := by
  simp only [State.splitWays]
  split
  · exact h
  · exact Memory.wf_erase _ _ h

@[simp] theorem State.spsplitOp_mem_wf (d n) : (s.spsplitOp d n).mem.wf = true := by
  unfold State.spsplitOp
  split
  · exact h
  · next e =>
    have ht := State.release_mem_wf h e
    dsimp only
    split
    · simp [ht]
    · simp only [State.advance_mem, State.landed_mem, State.setS_mem]
      exact State.splitWays_mem_wf (State.writeBackAll_mem_wf (State.serveAccesses_mem_wf ht _) _) _

@[simp] theorem State.commitOp_mem_wf : s.commitOp.mem.wf = true := by
  simp only [State.commitOp]
  split
  · simp [h]
  · split
    · simp [h]
    · simpa using State.performAll_mem_wf h _ _ (by simp) _

@[simp] theorem State.setAsidEntry_mem_wf (a e) : (s.setAsidEntry a e).mem.wf = true := State.storeHbm_mem_wf h ..

@[simp] theorem State.asidBindOp_mem_wf (a w) : (s.asidBindOp a w).mem.wf = true := by
  simp only [State.asidBindOp]
  split_ifs <;> simp [h]

omit h in
@[simp] theorem State.addMaint_mem (k b e) : (s.addMaint k b e).mem = s.mem := by simp [State.addMaint]

@[simp] theorem State.asidRetireOp_mem_wf (a b) : (s.asidRetireOp a b).mem.wf = true := by
  refine State.checkedDone_mem_wf h _ ?_
  dsimp only
  have h1 : (s.asked b).mem.wf = true := by simp [h]
  refine State.ite_mem_wf (State.raise_mem_wf h1 _) (State.ite_mem_wf h1 (State.released_mem_wf h1 _ (fun t ht => ?_)))
  split_ifs <;> simp [ht]

@[simp] theorem State.maintainOp_mem_wf (k b) : (s.maintainOp k b).mem.wf = true := by
  refine State.checkedDone_mem_wf h _ ?_
  have h1 : (s.asked b).mem.wf = true := by simp [h]
  exact State.noStrip_mem_wf h1 (State.ite_mem_wf h1 (State.released_mem_wf h1 _ (fun t ht => by simp [ht])))

omit h in
@[simp] theorem State.invalidate_mem (k) : (s.invalidate k).mem = s.mem := by
  simp only [State.invalidate]
  split <;> rfl

@[simp] theorem State.maintDone_mem_wf (die i) : (s.maintDone die i).mem.wf = true := by
  simp only [State.maintDone]
  split
  · exact h
  · split <;> simp [h]

@[simp] theorem State.retireDone_mem_wf (a) : (s.retireDone a).mem.wf = true := by
  simp only [State.retireDone]
  split_ifs
  · exact h
  · exact h
  · rw [State.foldl_mem _ (by simp)]
    simp [h]

@[simp] theorem State.fenceOp_mem_wf (k sc) : (s.fenceOp k sc).mem.wf = true := by
  refine State.released_mem_wf h _ (fun t ht => ?_)
  rw [State.advance_mem, State.acquire_mem]
  split <;> exact ht

/-! ## The relays (spec/05 R143 to R153) -/

omit h in
@[simp] theorem State.setChan_mem (c x) : (s.setChan c x).mem = s.mem := rfl

omit h in
@[simp] theorem State.startRelay_mem (c m b) : (s.startRelay c m b).mem = s.mem := by
  simp only [State.startRelay]
  split <;> simp

@[simp] theorem State.issueRelay_mem_wf (c m b) : (s.issueRelay c m b).mem.wf = true := by
  refine State.checkedDone_mem_wf h _ ?_
  have h1 : (s.asked m.baton).mem.wf = true := by simp [h]
  split
  · exact State.raiseAt_mem_wf h1 ..
  · exact State.released_mem_wf h1 _ (fun t ht => by simp [ht])

@[simp] theorem State.rcopyOp_mem_wf (c d r l b) : (s.rcopyOp c d r l b).mem.wf = true := by
  simp only [State.rcopyOp]
  split_ifs <;> simp [h]

@[simp] theorem State.rcopyShapeOp_mem_wf (c v b) : (s.rcopyShapeOp c v b).mem.wf = true := by
  simp only [State.rcopyShapeOp]
  split
  · simp [h]
  · split
    · simp [h]
    · split <;> simp [h]

omit h in
@[simp] theorem State.cacheRelay_mem (who e acc a) : (s.cacheRelay who e acc a).mem = s.mem := by
  simp only [State.cacheRelay]
  repeat' split
  all_goals rfl

theorem State.relayRead_mem_wf (iss x n) : endsWf (s.relayRead iss x n) := by
  have k (n) := State.partDo_mem_wf h iss x n true false (fun _ => none)
  simp only [State.relayRead]
  split
  · next e =>
    split
    · exact k _
    · simpa [e] using k n
  · exact k n

theorem State.relayPiece_mem_wf (m e pos lim first) : endsWf (s.relayPiece m e pos lim first) := by
  have arrives {t : State} (ht : t.mem.wf = true) {p : Prop} [Decidable p] {x n w u}
      (e : (if p then t.beatArrive m.issuer x n w else some t) = some u) : u.mem.wf = true := by
    split at e
    · exact someWf_iff.1 (State.beatArrive_mem_wf ht ..) _ e
    · cases e
      exact ht
  simp only [State.relayPiece]
  split
  · exact h
  · split
    · simpa using h
    · split
      · trivial
      · next e3 =>
        have h3 := arrives (by simpa using h) e3
        split
        · trivial
        · next e4 =>
          have h4 := arrives h3 e4
          split
          · next e5 => exact endsWf_error (State.relayRead_mem_wf h4 ..) e5
          · next bs s5 e5 =>
            have h5 := endsWf_ok (State.relayRead_mem_wf h4 ..) e5
            split
            · next e6 => exact endsWf_error (State.writeParts_mem_wf h5 ..) e6
            · next e6 => exact (endsWf_ok (State.writeParts_mem_wf h5 ..) e6 :)
            · next e6 => exact (endsWf_ok (State.writeParts_mem_wf h5 ..) e6 :)

omit h in
@[simp] theorem State.readAhead_mem (m e pos) : (s.readAhead m e pos).mem = s.mem := by
  simp only [State.readAhead]
  split
  · split
    · rfl
    · refine State.foldl_mem _ (fun t i => ?_) _ s
      split <;> rfl
  · rfl

@[simp] theorem State.relayPieces_mem_wf (c m e stop first n) : (s.relayPieces c m e stop first n).1.mem.wf = true := by
  induction n generalizing s first with
  | zero => exact h
  | succ n ih =>
    have k (pos lim) := State.relayPiece_mem_wf h m e pos lim first
    unfold State.relayPieces
    dsimp only
    split
    · exact h
    · split
      · exact h
      · next e' => exact (endsWf_error (k _ _) e' :)
      · next e' => exact ih (by exact (endsWf_ok (k _ _) e' :)) _

omit h in
@[simp] theorem State.freeEngine_mem (c) : (s.freeEngine c).mem = s.mem := rfl
omit h in
@[simp] theorem State.relayIdle_mem (c b x) : (s.relayIdle c b x).mem = s.mem := rfl
omit h in
@[simp] theorem State.setBudget_mem (c m n) : (s.setBudget c m n).mem = s.mem := rfl

omit h in
@[simp] theorem State.relayEnd_mem (c m b) : (s.relayEnd c m b).mem = s.mem := by simp [State.relayEnd]

@[simp] theorem State.relayStop_mem_wf (c m x) : (s.relayStop c m x).mem.wf = true := by
  simp only [State.relayStop]
  split <;> simp [h]

omit h in
@[simp] theorem State.relayNext_mem (c m) : (s.relayNext c m).mem = s.mem := by
  simp only [State.relayNext]
  repeat' split
  all_goals simp

omit h in
@[simp] theorem State.chunkOp_mem (c) : (s.chunkOp c).mem = s.mem := by
  simp only [State.chunkOp]
  repeat' split
  all_goals simp

@[simp] theorem State.beatOp_mem_wf (c) : (s.beatOp c).mem.wf = true := by
  simp only [State.beatOp]
  split
  · split <;> simp [h]
  · exact h

end

/-! ## Before an instruction's meaning (R201, R208, R210, R380) -/

/-- Of what a fetch and its checks come to: the state in it has memory in canonical form. -/
@[simp] def Ready.Wf : Ready → Prop
  | .undecoded _ t => t.mem.wf = true
  | .ended t => t.mem.wf = true
  | .run _ t => t.mem.wf = true
  | _ => True

theorem Ready.wf_of_eq {r r' : Ready} (k : r.Wf) (e : r = r') : r'.Wf := e ▸ k

section
variable {s : State} (h : s.mem.wf = true)
include h

omit h in
@[simp] theorem State.refilled_mem (pc) : (s.refilled pc).mem = s.mem := by
  unfold State.refilled
  split <;> simp

@[simp] theorem State.raiseForm_mem_wf (c m a w) : (s.raiseForm c m a w).mem.wf = true := by
  simp only [State.raiseForm]
  split <;> simp [h]

@[simp] theorem State.raiseScalar_mem_wf (m n) : (s.raiseScalar m n).mem.wf = true := by
  simp only [State.raiseScalar]
  exact State.raiseData_mem_wf (by exact h) ..

theorem State.joinConvoy_mem_wf (find w c m) : (s.joinConvoy find w c m).Wf := by
  simp only [State.joinConvoy]
  split
  · exact h
  · simp [h]
  · split
    · trivial
    · simp [h]
    · exact h

theorem State.takeIn_mem_wf (find w t) : (s.takeIn find w t).Wf := by
  simp only [State.takeIn]
  split
  · next u e =>
    have hu : u.mem.wf = true := by
      split at e
      · exact Ready.wf_of_eq (State.joinConvoy_mem_wf h ..) e
      · cases e
        exact h
    split
    · split_ifs
      · simp [hu]
      · exact hu
      · split <;> simp [hu]
    · split_ifs
      · exact hu
      · split <;> simp [hu]
  · split
    · exact State.joinConvoy_mem_wf h ..
    · exact h

theorem State.ready_mem_wf (find) : (s.ready find).Wf := by
  have k {u : State} (hu : u.mem.wf = true) (w t) := State.takeIn_mem_wf hu find w t
  simp only [State.ready]
  split
  · trivial
  · trivial
  · split
    · simpa using h
    · split
      · split
        · trivial
        · simpa using h
      · split
        · split
          · simp [h]
          · exact k (by simpa using h) ..
        · exact k (by simpa using h) ..

/-! ## The run-ahead pipeline (spec/01 R44 to R48) -/

omit h

@[simp] theorem State.aheadEls_mem (acc xs) : (s.aheadEls acc xs).1.mem = s.mem := by
  induction xs generalizing s with
  | nil => rfl
  | cons x xs ih =>
    unfold State.aheadEls
    split
    · rfl
    · rw [ih]
      simp

@[simp] theorem State.aheadWord_mem (x w) : (s.aheadWord x w).1.mem = s.mem := by
  unfold State.aheadWord
  extract_lets
  split
  · rfl
  · split <;> simp

@[simp] theorem State.aheadFrom_mem (last n x pc) : (s.aheadFrom last n x pc).mem = s.mem := by
  induction n generalizing s x pc with
  | zero => rfl
  | succ n ih =>
    unfold State.aheadFrom
    split
    · rfl
    · next w _ =>
      have k := State.aheadWord_mem (s := s) x w
      split
      · next e => rwa [e] at k
      · next e =>
        rw [e] at k
        split
        · exact k
        · exact (ih ..).trans k

@[simp] theorem State.runAheadOp_mem (pc) : (s.runAheadOp pc).mem = s.mem := by
  simp only [State.runAheadOp]
  split <;> simp

end

/-! ## Scalar instructions (spec/09) -/

section
variable {s : State}

@[simp] theorem State.finishFp_mem (d r) : (s.finishFp d r).mem = s.mem := by simp [State.finishFp]
@[simp] theorem State.finishFcmp_mem (d r) : (s.finishFcmp d r).mem = s.mem := by simp [State.finishFcmp]

variable (h : s.mem.wf = true)
include h

@[simp] theorem State.alu_mem_wf (g d a b f) : (s.alu g d a b f).mem.wf = true := State.guarded_mem_wf h _ (by simp [h])
@[simp] theorem State.alu1_mem_wf (g d a f) : (s.alu1 g d a f).mem.wf = true := State.guarded_mem_wf h _ (by simp [h])
@[simp] theorem State.compare_mem_wf (g d a b f) : (s.compare g d a b f).mem.wf = true :=
  State.guarded_mem_wf h _ (by simp [h])
@[simp] theorem State.combine_mem_wf (g d a b f) : (s.combine g d a b f).mem.wf = true :=
  State.guarded_mem_wf h _ (by simp [h])
@[simp] theorem State.fop_mem_wf (g d a b f o) : (s.fop g d a b f o).mem.wf = true := State.guarded_mem_wf h _ (by simp [h])
@[simp] theorem State.fminmax_mem_wf (g d a b f m) : (s.fminmax g d a b f m).mem.wf = true :=
  State.guarded_mem_wf h _ (by simp [h])
@[simp] theorem State.ffma_mem_wf (g d a b f) : (s.ffma g d a b f).mem.wf = true := State.guarded_mem_wf h _ (by simp [h])
@[simp] theorem State.fsqrt_mem_wf (g d a f) : (s.fsqrt g d a f).mem.wf = true := State.guarded_mem_wf h _ (by simp [h])
@[simp] theorem State.fcompare_mem_wf (g d a b f c) : (s.fcompare g d a b f c).mem.wf = true :=
  State.guarded_mem_wf h _ (by simp [h])

/-! ## Requests of the switch tier (spec/03 R77 to R95) -/

omit h in
@[simp] theorem State.sendImage_mem (p g) : (s.sendImage p g).mem = s.mem := rfl
omit h in
@[simp] theorem State.lockGranule_mem (p b r) : (s.lockGranule p b r).mem = s.mem := rfl

@[simp] theorem State.performAt_mem_wf (p a r) : (s.performAt p a r).mem.wf = true := by
  simp only [State.performAt]
  split
  · exact h
  · next e =>
    have k := State.granuleDo_mem_wf h e
    split <;> simpa using k

@[simp] theorem State.turnAt_mem_wf (p b a r) : (s.turnAt p b a r).mem.wf = true := by
  simp only [State.turnAt]
  split_ifs <;> simp [h]

@[simp] theorem State.serveOne_mem_wf (b r) : (s.serveOne b r).mem.wf = true := by
  simp only [State.serveOne]
  repeat' split
  all_goals simp [h]

@[simp] theorem State.unlock_mem_wf (p g) : (s.unlock p g).mem.wf = true :=
  State.foldl_mem_wf (by exact h) _ (fun _ ht x => State.serveOne_mem_wf ht x.1 x.2)

theorem State.endMerge_mem_wf (p b r) : someWf (s.endMerge p b r) := by
  simp only [State.endMerge]
  split
  · trivial
  · split
    · simp [h]
    · split <;> simp [h]

@[simp] theorem State.switchServe_mem_wf (r) : (s.switchServe r).mem.wf = true := by
  simp only [State.switchServe]
  exact someWf_getD (State.endMerge_mem_wf h ..) (State.serveOne_mem_wf h ..)

@[simp] theorem State.failoverServe_mem_wf (r) : (s.failoverServe r).mem.wf = true := by
  simp only [State.failoverServe]
  exact someWf_getD (State.endMerge_mem_wf h ..) (State.serveOne_mem_wf h ..)

@[simp] theorem State.imageOp_mem_wf (m) : (s.imageOp m).mem.wf = true := by
  simp only [State.imageOp]
  split <;> simp [h]

/-! ## Reductions and scans (R270 to R272) -/

@[simp] theorem State.vreduce_mem_wf (g d a o ok) : (s.vreduce g d a o ok).mem.wf = true := State.crossSweep_mem_wf h ..
@[simp] theorem State.vsegReduce_mem_wf (g d a m o) : (s.vsegReduce g d a m o).mem.wf = true := State.crossSweep_mem_wf h ..
@[simp] theorem State.vscanOp_mem_wf (g d a o m) : (s.vscanOp g d a o m).mem.wf = true := State.sweep_mem_wf h ..

end
end Sys2Proof.Machine
end

section
/-! SUPPORT. Memory keeps its canonical form in every instruction and every step of another unit: the rules about the
operations, one for each arm of `exec`. -/

namespace Sys2Proof.Machine

/-- The state that an instruction leaves has memory in canonical form. -/
@[simp] def resWf : Res → Prop
  | .next t => t.mem.wf = true
  | _ => True

/-! ## The arms that have a body of their own -/

section
variable {s : State} (h : s.mem.wf = true)
include h

theorem execAwait_mem_wf (g a b k) : resWf (execAwait g a b k s) := by
  refine State.guarded_mem_wf h _ (State.noStrip_mem_wf h (State.ite_mem_wf (State.raise_mem_wf h _) ?_))
  exact State.ite_mem_wf (State.raise_mem_wf h _) (State.released_mem_wf h _ (fun t ht => State.awaitOp_mem_wf ht ..))

theorem execStRel_mem_wf (g d a sc w i) : resWf (execStRel g d a sc w i s) :=
  State.guarded_mem_wf h _ (State.ite_mem_wf (State.storeOp_mem_wf h ..) (State.noStrip_mem_wf h (State.storeOp_mem_wf h ..)))

theorem execFence_mem_wf (g k sc) : resWf (execFence g k sc s) :=
  State.guarded_mem_wf h _ (State.ite_mem_wf (State.fenceOp_mem_wf h ..) (State.noStrip_mem_wf h (State.fenceOp_mem_wf h ..)))

theorem execAmreply_mem_wf (g a) : resWf (execAmreply g a s) := by
  refine State.guarded_mem_wf h _ ?_
  split <;> simp [h]

theorem execPxret_mem_wf (g) : resWf (execPxret g s) := by
  refine State.guarded_mem_wf h _ ?_
  split <;> simp [h]

theorem execVtmask_mem_wf (g c d a b) : resWf (execVtmask g c d a b s) :=
  State.vIssue_mem_wf h _ (State.ite_mem_wf (State.raise_mem_wf h _) (State.sweepTo_mem_wf h ..))

theorem execVexpm_mem_wf (g c d a b) : resWf (execVexpm g c d a b s) := by
  refine State.vIssue_mem_wf h _ ?_
  dsimp only
  split <;> simp [h]

theorem execPxl_mem_wf (g d a b) : resWf (execPxl g d a b s) := by
  refine State.vIssue_mem_wf h _ ?_
  dsimp only
  repeat' split
  all_goals simp [h]

theorem execMshape_mem_wf (d a) : resWf (execMshape d a s) := by
  simp only [execMshape, resWf]
  split
  · exact State.raise_mem_wf h _
  · rw [State.advance_mem, State.setS_mem, State.modRun_mem]
    exact h

theorem execMzero_mem_wf (g e) : resWf (execMzero g e s) := by
  simp only [execMzero, resWf]
  split
  · exact State.finishV_mem_wf (by exact h)
  · exact State.raiseRow_mem_wf (by exact h) _

theorem execMld_mem_wf (g e a) : resWf (execMld g e a s) := by
  simp only [execMld, resWf]
  split
  · simp [h]
  · split
    · next e' => exact State.waitOrStop_mem_wf h (by rw [State.ask_mem e', h])
    · refine State.ite_mem_wf (State.waitOrStop_mem_wf h h) ?_
      split
      · exact State.failRow_mem_wf (State.loadParts_mem_wf h ..) ..
      · split
        · exact State.raiseRow_mem_wf ((congrArg Memory.wf (State.modRun_mem ..)).trans (State.loadParts_mem_wf h ..)) _
        · exact State.finishAt_mem_wf ((congrArg Memory.wf (State.modRun_mem ..)).trans (State.loadParts_mem_wf h ..)) _

theorem execMst_mem_wf (g e a) : resWf (execMst g e a s) := by
  simp only [execMst, resWf]
  split
  · simp [h]
  · refine State.ite_mem_wf (State.raise_mem_wf h _) (State.storeEls_mem_wf h _ _ _ _ _ (fun t ht => ?_))
    split <;> simp [ht]

theorem execMcvt_mem_wf (g d e t) : resWf (execMcvt g d e t s) := by
  refine State.rowIssue_mem_wf h _ _ (State.ite_mem_wf (State.raise_mem_wf h _) (State.ite_mem_wf (State.finishV_mem_wf h) ?_))
  exact State.ite_mem_wf (State.raise_mem_wf h _) (State.rowSweep_mem_wf h ..)

theorem execMseg_mem_wf (d a) : resWf (execMseg d a s) := by
  simp only [execMseg, resWf]
  split <;> simp [h]

theorem execXlinvVa_mem_wf (g d a b) : resWf (execXlinvVa g d a b s) :=
  State.privileged_mem_wf h (State.guarded_mem_wf h _ (State.ite_mem_wf (State.raiseAt_mem_wf h ..) (State.maintainOp_mem_wf h ..)))

theorem execPacerPreemption_mem_wf (p) : resWf (execPacerPreemption p s) :=
  State.onCore_mem_wf h _ (fun _ ht => State.ite_mem_wf (State.requestPreempt_mem_wf ht ..) ht)

theorem execContextSpill_mem_wf (c n) : resWf (execContextSpill c n s) :=
  State.onCore_mem_wf h _ (fun _ ht => State.writeSpills_mem_wf (by exact ht) _)

theorem execClusterWindowRequest_mem_wf (c) : resWf (execClusterWindowRequest c s) := by
  refine State.onCore_mem_wf h _ (fun t ht => ?_)
  split <;> simp [ht]

theorem execActiveMessageHandler_mem_wf (c) : resWf (execActiveMessageHandler c s) := by
  refine State.onCore_mem_wf h _ (fun t ht => ?_)
  split <;> simp [ht]

theorem execHandlerLimit_mem_wf (c) : resWf (execHandlerLimit c s) := by
  refine State.onCore_mem_wf h _ (fun t ht => ?_)
  split <;> simp [ht]

theorem execRelayComplete_mem_wf (c i) : resWf (execRelayComplete c i s) := by
  refine State.onCore_mem_wf h _ (fun t ht => ?_)
  repeat' split
  all_goals simp [ht]

theorem execRelayCancelComplete_mem_wf (c i) : resWf (execRelayCancelComplete c i s) := by
  refine State.onCore_mem_wf h _ (fun t ht => ?_)
  split <;> simp [ht]

theorem execAmReplyDelivery_mem_wf (r) : resWf (execAmReplyDelivery r s) := by
  simp only [execAmReplyDelivery, resWf, State.deviceSignal_mem, State.releaseBaton_mem]
  refine State.onCore_mem_wf h _ (fun t ht => ?_)
  split
  · exact ht
  · refine State.ite_mem_wf ht ?_
    split
    · exact ht
    · next e => exact endsWf_ok (State.padBytesDo_mem_wf ht ..) e

theorem execHomeSliceRequest_mem_wf (r) : resWf (execHomeSliceRequest r s) := by
  simp only [execHomeSliceRequest, resWf]
  split
  · next e => simpa using State.homeArrive_some h e
  · simpa using h

theorem execBankConflict_mem_wf (d) : resWf (execBankConflict d s) := by
  refine State.ite_mem_wf h ?_
  simpa using h

theorem execSwitchAccess_mem_wf (r) : resWf (execSwitchAccess r s) :=
  State.ite_mem_wf h (State.foldl_mem_wf h _ (fun _ ht x => State.switchServe_mem_wf ht x))

theorem execFailoverAccess_mem_wf (r) : resWf (execFailoverAccess r s) :=
  State.ite_mem_wf h (State.foldl_mem_wf h _ (fun _ ht x => State.failoverServe_mem_wf ht x))

theorem execLaunchBlocking_mem_wf (n) : resWf (execLaunchBlocking n s) := by
  simp only [execLaunchBlocking, resWf]
  repeat' split
  all_goals simp [h]

theorem execDependenceFailed_mem_wf (n) : resWf (execDependenceFailed n s) := by
  simp only [execDependenceFailed, resWf]
  repeat' split
  any_goals simp [h]
  next e => exact State.endQueued_mem_wf h e

theorem execLaunchCompletion_mem_wf (n) : resWf (execLaunchCompletion n s) := by
  simp only [execLaunchCompletion, resWf]
  repeat' split
  any_goals simp [h]
  next e => exact someWf_iff.1 (State.completeRec_mem_wf h ..) _ e

theorem execUnloadComplete_mem_wf (n) : resWf (execUnloadComplete n s) := by
  simp only [execUnloadComplete, resWf]
  split
  · exact h
  · refine State.ite_mem_wf h (State.foldl_mem_wf (by exact h) _ (fun t ht r => ?_))
    exact someWf_getD (State.completeRec_mem_wf ht ..) ht

theorem execMachineCheck_mem_wf (u) : resWf (execMachineCheck u s) :=
  State.foldl_mem_wf h _ (fun _ ht _ => State.onCore_mem_wf ht _ (fun _ hu => State.machineCheckCore_mem_wf hu))

theorem execHostAccess_mem_wf (r) : resWf (execHostAccess r s) := by
  simp only [execHostAccess, resWf]
  refine State.ite_mem_wf h ?_
  split
  · simp [h]
  · exact State.hostRequest_mem_wf (by split <;> simp [h]) _

theorem execEngagementScrubComplete_mem_wf : resWf (execEngagementScrubComplete s) := by
  simp only [execEngagementScrubComplete, resWf]
  split <;> simp [h]

theorem execAttestationComplete_mem_wf : resWf (execAttestationComplete s) := by
  simp only [execAttestationComplete, resWf]
  split <;> simp [h]

theorem execMemoryTrained_mem_wf : resWf (execMemoryTrained s) := by simpa [execMemoryTrained] using h

theorem execInstructionFetchFault_mem_wf (c) : resWf (execInstructionFetchFault c s) := by
  simp only [execInstructionFetchFault, resWf]
  split <;> simp [h]

end

/-! ## Every instruction, every word, every step on the agenda -/

section
variable {s : State} (h : s.mem.wf = true)
include h

omit h in
theorem resWf_next {t : State} (k : t.mem.wf = true) : resWf (.next t) := k

theorem exec_mem_wf (i : Instr) : resWf (exec i s) := by
  cases i
  case nop | sel | vmerge | vquant | vwait | barv | waitingRecordWrite | remoteSignalArrival | maintenanceComplete |
      asidRetirementComplete | hdcfgWrite | granuleMove | migrationComplete | mctlWrite | mirrorImageInstall |
      mergeLockLapse | collectiveAbortReceipt | starterDecision | ccmdOpen | ccmdResume | ccmdKill | ccmdClose |
      ccmdBadcmd | truncationCleanup | cleanupComplete | cleanupFailed | hostsigWrite | linkLoss | linkReturn |
      leaseLapse | engagementScrub | attestation | keyLoad | keyErase | moduleReset | fabricTrained | hbmRepair |
      clockThrottle | clockRestore | thermalStop | illegalInstruction =>
    exact resWf_next (by simp [h])
  case add | sub | and | or | xor | sll | srl | sra | mul | mulh | mulhu | div | divu | rem | remu | min | max | minu
      | maxu | bfx | bfxs =>
    exact State.alu_mem_wf h ..
  case clz | ctz | popc | rev | addi | andi | ori | xori | slli | srli | srai | lis => exact State.alu1_mem_wf h ..
  case bfi | li | loop | fcvt | b | jal | jr | ldB64 | ldB32 | stB64 | stB32 | ldB8 |
      ldB16 | ldI8 | ldI16 | ldI32 | stB8 | stB16 | ldWp | ldAcq | bnew | bfree | bsig | bsigOneOperand | bsigErr |
      bqry | barm | barmRel | rcopy | rwp | rcancel | rqry | amsend | amreg | swquota | pxw | pxinv |
      dsadv | dstrunc | dsframe | dsplay | vcfg | spsplit | stripBegin | stripCommit =>
    exact State.guarded_mem_wf h _ (by simp [h])
  case rcopyShape =>
    exact State.guarded_mem_wf h _ (State.vIssue_mem_wf h _ (State.noStrip_mem_wf h (State.rcopyShapeOp_mem_wf h ..)))
  case spawn | yield | fin | sys =>
    exact State.guarded_mem_wf h _ (State.noStrip_mem_wf h (State.released_mem_wf h _ (fun t ht => by simp [ht])))
  case cmpEq | cmpNe | cmpLt | cmpLtu | cmpLe | cmpLeu => exact State.compare_mem_wf h ..
  case gand | gor => exact State.combine_mem_wf h ..
  case faddF64 | fsubF64 | fmulF64 | fdivF64 | faddF32 | fsubF32 | fmulF32 | fdivF32 => exact State.fop_mem_wf h ..
  case fminF64 | fmaxF64 | fminF32 | fmaxF32 => exact State.fminmax_mem_wf h ..
  case fmaF64 | fmaF32 => exact State.ffma_mem_wf h ..
  case fsqrtF64 | fsqrtF32 => exact State.fsqrt_mem_wf h ..
  case fcmpEqF64 | fcmpLtF64 | fcmpLeF64 | fcmpEqF32 | fcmpLtF32 | fcmpLeF32 => exact State.fcompare_mem_wf h ..
  case await => exact execAwait_mem_wf h ..
  case vadd | vsub | vand | vor | vxor | vsll | vsrl | vsra | vmul | vmulh | vmin | vmax | vminu | vmaxu | vadds |
      vsubs =>
    exact State.vvv_mem_wf h ..
  case vaddScalar | vsubScalar | vandScalar | vorScalar | vxorScalar | vsllScalar | vsrlScalar | vsraScalar |
      vmulScalar | vmulhScalar | vminScalar | vmaxScalar | vminuScalar | vmaxuScalar | vaddsScalar | vsubsScalar =>
    exact State.vvs_mem_wf h ..
  case vcmpEq | vcmpNe | vcmpLt | vcmpLtu | vcmpLe | vcmpLeu => exact State.vcmp_mem_wf h ..
  case vslideup | vslidedn | vcompress | viota | vperm | vext => exact State.crossSweep_mem_wf h ..
  case vbcast | vmv | vtom | mtov | vfma | vfsqrt | vfmaScalar | vfkind | vdequant =>
    exact State.elementwise_mem_wf h ..
  case mand | mor | mxor | mandn => exact State.mmm_mem_wf h ..
  case mpop | mfirst => exact State.maskCount_mem_wf h ..
  case vfadd | vfsub | vfmul | vfdiv | vfmin | vfmax => exact State.vfff_mem_wf h ..
  case vfaddScalar | vfsubScalar | vfmulScalar | vfdivScalar | vfminScalar | vfmaxScalar =>
    exact State.vffs_mem_wf h ..
  case vfcmpEq | vfcmpLt | vfcmpLe => exact State.vfcmp_mem_wf h ..
  case vfsgcopy | vfsgflip | vfsgmix => exact State.vfsign_mem_wf h ..
  case vexp2 | vlog2 | vrsqrt | vrcp => exact State.vsf_mem_wf h ..
  case vcvt | vcvtW | vcvtN => exact State.vconv_mem_wf h ..
  case vquantS | vquantPg => exact State.vquantGiven_mem_wf h ..
  case vredsum | vredmin | vredmax | vredand | vredor | vredxor => exact State.vreduce_mem_wf h ..
  case vscan | vscanmax | vsscan => exact State.vscanOp_mem_wf h ..
  case vsredsum | vsredmin | vsredmax => exact State.vsegReduce_mem_wf h ..
  case vld | vlds | vldx | vldt | vldn | vldWp => exact State.vload_mem_wf h ..
  case vst | vsts | vstx | vstt | vstn => exact State.vstore_mem_wf h ..
  case stRel => exact execStRel_mem_wf h ..
  case atomAdd | atomMin | atomMax | atomMinu | atomMaxu | atomAnd | atomOr | atomXor | atomSwap | atomCas =>
    exact State.atomOp_mem_wf h ..
  case vatomAdd | vatomMin | vatomMax | vatomAnd | vatomOr | vatomXor | vatomSwap | vatomCas =>
    exact State.vatom_mem_wf h ..
  case amreply => exact execAmreply_mem_wf h ..
  case swalloc | swfree | pxwSh | launch | cancel | asidBind | asidRetire | xlinvAsid | xlinvGlob =>
    exact State.privileged_mem_wf h (State.guarded_mem_wf h _ (by simp [h]))
  case mmk | mmkScratchpad => exact State.mmkOp_mem_wf h ..
  case mmga | mmgaScratchpad => exact State.mmgaOp_mem_wf h ..
  case mshape => exact execMshape_mem_wf h ..
  case mzero => exact execMzero_mem_wf h ..
  case mld => exact execMld_mem_wf h ..
  case mst => exact execMst_mem_wf h ..
  case mcvt => exact execMcvt_mem_wf h ..
  case mseg => exact execMseg_mem_wf h ..
  case vtmask g c d a b => exact execVtmask_mem_wf h g c d a b
  case vexpm g c d a b => exact execVexpm_mem_wf h g c d a b
  case vscore | vpacc => exact State.vIssue_mem_wf h _ (State.sweepTo_mem_wf h ..)
  case planeDown => exact State.ite_mem_wf h (State.planeDownOp_mem_wf h ..)
  case planeUp => exact State.ite_mem_wf h (State.planeUpOp_mem_wf h ..)
  case starterTimedDecision => exact State.ite_mem_wf (by simp [h]) h
  case hostSignal => exact State.ite_mem_wf (State.hostSignalOp_mem_wf h ..) h
  case ownClaim | ownRelease | ownHandover => exact State.ite_mem_wf (State.casOwn_mem_wf h ..) h
  case ownerScrubComplete => exact State.ite_mem_wf (State.finishOwnerScrub_mem_wf h) h
  case registerWrite => exact State.ite_mem_wf (State.regWrite_mem_wf h ..) h
  case pxl => exact execPxl_mem_wf h ..
  case pxret => exact execPxret_mem_wf h ..
  case cget | cset => exact State.checked_mem_wf h _ (State.guarded_mem_wf h _ (by simp [h]))
  case xlinvVa => exact execXlinvVa_mem_wf h ..
  case fence => exact execFence_mem_wf h ..
  case deferredStoreFailure | pendingDatumArrival | preemption | pacerDecision | contextReturn | batonPoll |
      relayChunk | relayBeat | translationWalk | runAheadTranslation | vwaitRound =>
    exact State.onCore_mem_wf h _ (fun t ht => by simp [ht])
  case pacerPreemption => exact execPacerPreemption_mem_wf h ..
  case contextSpill => exact execContextSpill_mem_wf h ..
  case clusterWindowRequest => exact execClusterWindowRequest_mem_wf h ..
  case activeMessageHandler => exact execActiveMessageHandler_mem_wf h ..
  case handlerLimit => exact execHandlerLimit_mem_wf h ..
  case amReplyDelivery => exact execAmReplyDelivery_mem_wf h ..
  case relayComplete => exact execRelayComplete_mem_wf h ..
  case relayCancelComplete => exact execRelayCancelComplete_mem_wf h ..
  case homeSliceRequest => exact execHomeSliceRequest_mem_wf h ..
  case bankConflict => exact execBankConflict_mem_wf h ..
  case switchAccess => exact execSwitchAccess_mem_wf h ..
  case failoverAccess => exact execFailoverAccess_mem_wf h ..
  case launchBlocking => exact execLaunchBlocking_mem_wf h ..
  case dependenceFailed => exact execDependenceFailed_mem_wf h ..
  case launchCompletion => exact execLaunchCompletion_mem_wf h ..
  case unloadComplete => exact execUnloadComplete_mem_wf h ..
  case machineCheck => exact execMachineCheck_mem_wf h ..
  case hostAccess => exact execHostAccess_mem_wf h ..
  case engagementScrubComplete => exact execEngagementScrubComplete_mem_wf h
  case attestationComplete => exact execAttestationComplete_mem_wf h
  case memoryTrained => exact execMemoryTrained_mem_wf h
  case instructionFetchFault => exact execInstructionFetchFault_mem_wf h ..

theorem execWord_mem_wf (w) : resWf (execWord w s) := by
  unfold execWord
  split
  · exact exec_mem_wf h _
  · exact State.raise_mem_wf h _

theorem execEvent_mem_wf (e) : resWf (execEvent e s) := exec_mem_wf h _

/-! ## One step -/

theorem coreStep_mem_wf : resWf (coreStep s) := by
  unfold coreStep
  split
  · exact State.drainStep_mem_wf h _
  · split
    · exact h
    · split
      · exact State.onCore_mem_wf h _ (fun _ ht => State.takeDeferred_mem_wf ht)
      · have k := State.ready_mem_wf h traitsOf
        split
        · exact h
        · exact execInstructionFetchFault_mem_wf h _
        · next e => exact State.raise_mem_wf (Ready.wf_of_eq k e) _
        · next e => exact Ready.wf_of_eq k e
        · exact execHandlerLimit_mem_wf h _
        · next e => exact execWord_mem_wf (Ready.wf_of_eq k e) _

omit h in
@[simp] theorem State.coreMove_mem : s.coreMove.2.mem = s.mem := by
  simp only [State.coreMove]
  repeat' split
  all_goals rfl

omit h in
@[simp] theorem State.focusMove_mem : s.focusMove.2.mem = s.mem := by
  simp only [State.focusMove]
  split <;> simp

omit h in
@[simp] theorem State.ownMove_mem : s.ownMove.2.mem = s.mem := by
  simp only [State.ownMove]
  repeat' split
  all_goals simp

omit h in
theorem State.nextMove_mem : s.nextMove.2.mem = s.mem := by
  simp only [State.nextMove]
  repeat' split
  all_goals simp

theorem step_mem_wf : resWf (step s) := by
  have k : s.nextMove.2.mem.wf = true := (congrArg Memory.wf State.nextMove_mem).trans h
  unfold step
  split
  · trivial
  · generalize s.nextMove = p at k
    obtain ⟨m, t⟩ := p
    have ht : t.mem.wf = true := k
    cases m with
    | core => exact coreStep_mem_wf ht
    | focus id => simpa using ht
    | event n =>
      dsimp only
      split
      · exact ht
      · exact execEvent_mem_wf (by exact ht) _
    | input e => exact execEvent_mem_wf ht e
    | idle => exact ht

end

/-- Settles O55: each operation of the machine writes memory through `Memory.set`, `write` and `erase` alone, which keep its
canonical form, so every arm of `exec` does, and so does a step. -/
theorem memoryStaysCanonical : Obligations.MemoryStaysCanonical := by
  unfold Obligations.MemoryStaysCanonical
  intro s t h e
  have k := step_mem_wf h
  rwa [e] at k

end Sys2Proof.Machine
end

section
/-! SUPPORT. A write of no bytes that begins inside a word takes no word from the L1s: the case that refutes the rules of the
memory system's steps (O47). -/

namespace Sys2Proof.Machine

/-- Without access monitors no request is logged (R411). -/
theorem State.logAccess_without_monitors {s : State} (hm : s.sys.monitors = []) (r : HomeReq) : s.logAccess r = some s := by
  have quiet (m : Nat) (kind : Nat) : (s.monitor m).logs kind = fun _ => false := by
    funext a
    simp [State.monitor, hm, Monitor.logs]
  have none_logs : s.monitorFor r.kind r.addr r.len = none := by simp [State.monitorFor, quiet]
  simp [State.logAccess, none_logs]

/-- A request that is neither logged nor counted is served at once (R56). -/
theorem exec_homeSliceRequest_uncounted {s : State} (hm : s.sys.monitors = []) {r : HomeReq} (ha : r.ace = false) :
    exec (.homeSliceRequest r) s = .next (s.homeServe r) := by
  have arrives : s.homeArrive r = some s := by simp [State.homeArrive, State.logAccess_without_monitors hm, ha]
  change Host.Outcome.next _ = _
  rw [arrives]

/-- A write of no bytes, from the second byte of HBM, by a coroutine of core 0. -/
def emptyWrite : HomeReq where
  addr := 1
  host := false
  len := 0
  ace := false
  kind := 2
  coro := 0
  slot := 0
  asid := 0

/-- The first line of HBM in core 1's L1, its first word registered there. -/
def registeredLine : L1Line where
  core := 1
  line := 0
  way := 0
  x := { target := .hbm 0 }
  coro := 0
  asid := 0
  slot := 0
  data := 0
  have_ := 15
  dirty := 15
  owned := 1
  bad := 0

/-- The module after reset, but for that line. -/
def registeredState : State := { State.reset with caches := { State.reset.caches with l1 := [registeredLine] } }

theorem registeredLine_stays : registeredLine ∈ (registeredState.homeServe emptyWrite).caches.l1 := by decide +kernel

/-- Refutes O47: the rule for a request at a home says of every length that a write takes each word with a byte above the
write's first and below its end. A request of no bytes that begins at byte 1 meets both conditions for the word of bytes 0 to
3, but writes no byte of it, and the word stays registered to another core. -/
theorem not_memorySystemSteps : ¬ Obligations.MemorySystemSteps := by
  unfold Obligations.MemorySystemSteps
  intro h
  obtain ⟨-, requests, -⟩ := h registeredState 0
  obtain ⟨t, e, ⟨-, -, -, -, taken⟩, -⟩ := (requests emptyWrite rfl).1 (Or.inl rfl)
  rw [exec_homeSliceRequest_uncounted rfl rfl] at e
  cases e
  exact absurd (taken (Or.inl rfl) registeredLine registeredLine_stays (Or.inr (by decide)) 0 (by decide) (by decide) (by decide))
    (by decide)

end Sys2Proof.Machine
end

section
/-! SUPPORT. `asid.bind` of an address space whose entry lies in a core's spill region: the case that refutes the results of the
address-space instructions (O41). -/

namespace Sys2Proof.Machine

/-- No entry in a spill region can be reached: it counts as Free, and the store to it is refused (R68, log 27). -/
theorem exec_asidBind_in_spillRegion {s : State} {g : Guard} {d a : Fin 32} (hg : s.enables g) (hp : s.core.run.priv = true)
    (he : s.asidEn = true) (ht : tablePlace (bits (s.getS a).toNat 51 13 * 2 ^ 13) = true)
    (hs : s.inSpillRegion (s.asidEntryAddr ((s.getS d).toNat % 2 ^ 16)) = true) :
    exec (.asidBind g d a) s = .next (s.raise .writeDenied) := by
  have refused : s.asidBindOp ((s.getS d).toNat % 2 ^ 16) (s.getS a) = s.raise .writeDenied := by
    have no_entry : s.asidEntry ((s.getS d).toNat % 2 ^ 16) = 0 := by rw [State.asidEntry, if_pos hs]
    unfold State.asidBindOp
    rw [no_entry, he, ht, hs]
    rfl
  change Host.Outcome.next (s.privileged _) = _
  rw [State.privileged, if_pos hp, State.guarded_on hg, refused]

/-- The module after reset, with a privileged coroutine in the register files of core 0, whose spill region lies at address 0,
where the table of the address spaces lies too; the entry of address space 0 there is Bound. -/
def boundInSpillRegion : State := { State.reset with
  mem := [(0, 1)]
  asidEn := true
  core := { Core.reset 0 with run := { Coro.blank with priv := true }, spillEn := true } }

/-- What the two causes leave in the fault queue differs. -/
theorem boundInSpillRegion_causes_differ :
    ((boundInSpillRegion.raise .asidNotQuiescent).fqAt 0).waiting ≠ ((boundInSpillRegion.raise .writeDenied).fqAt 0).waiting := by
  decide +kernel

/-- Refutes O41: `asid.bind` of an address space whose entry in HBM says Bound is said to raise ASID_NOT_QUIESCENT wherever the
entry lies. One in a core's spill region cannot be read there, and raises WRITE_DENIED. -/
theorem not_addressSpaceInstructionResults : ¬ Obligations.AddressSpaceInstructionResults := by
  unfold Obligations.AddressSpaceInstructionResults
  intro h
  obtain ⟨instructions, -⟩ := h
  have enabled : boundInSpillRegion.enables .always := by simp [State.enables, State.guard, Guard.always]
  obtain ⟨-, -, notQuiescent, -⟩ := instructions boundInSpillRegion .always 0 0 0 enabled rfl
  have claimed := notQuiescent rfl (by decide) (Or.inl (by decide +kernel))
  rw [exec_asidBind_in_spillRegion enabled rfl rfl (by decide) (by decide +kernel)] at claimed
  have same : boundInSpillRegion.raise .writeDenied = boundInSpillRegion.raise .asidNotQuiescent := by injection claimed
  exact boundInSpillRegion_causes_differ (by rw [same])

end Sys2Proof.Machine
end

section
/-! SUPPORT. What a write of the register space does (spec/02 R58, R59, R64 and R66, spec/03 R96, spec/18 R396, R399 and R410):
each block of registers hands the write to its own map, HDCFG changes its domain alone, and an erased key slot leaves the other
slots as they were (O48). -/

namespace Sys2Proof.Machine

/-- An entry under one key is found as before once the entries under another have gone. -/
theorem find?_fst_filter_of_ne {α : Type} (l : List (Nat × α)) {d k : Nat} (hk : k ≠ d) :
    (l.filter (·.1 != d)).find? (·.1 = k) = l.find? (·.1 = k) := by
  rw [List.find?_filter]
  congr 1
  funext z
  have apart : z.1 = k → z.1 ≠ d := fun e => e ▸ hk
  simpa using apart

/-! ## The remap domains -/

theorem State.domain_setDomain_same (s : State) (d : Nat) (x : Domain) : (s.setDomain d x).domain d = x := by
  simp [State.domain, State.setDomain]

theorem State.domain_setDomain_of_ne (s : State) {d k : Nat} (x : Domain) (hk : k ≠ d) :
    (s.setDomain d x).domain k = s.domain k := by
  rw [State.domain, State.setDomain, List.find?_cons_of_neg (by simpa using Ne.symm hk), find?_fst_filter_of_ne _ hk]
  rfl

/-! ## A write of HDCFG (R64, R66) -/

/-- The domain with the fields that every write of its HDCFG stores: THRESH and IE. -/
def Domain.withEventFields (x : Domain) (v : Word) : Domain := { x with thresh := v.extractLsb' 16 32, ie := v.getLsbD 11 }

/-- The function that a write of HDCFG[d] asks for; a spare domain keeps its own (R62, log 30). -/
def Domain.askedFunc (x : Domain) (d : Nat) (v : Word) : BitVec 3 := if 1021 ≤ d then x.func else v.extractLsb' 0 3

/-- Whether the version or the function that a write of HDCFG[d] asks for is a new one (R64). -/
def Domain.asksMigration (x : Domain) (d : Nat) (v : Word) : Prop := v.extractLsb' 7 4 ≠ x.ver ∨ x.askedFunc d v ≠ x.func

section
variable {s : State} {d : Nat} {v : Word} (hd : d < 1024) (hr : d ≠ 1020)

/-- The step of a write of HDCFG is its operation. -/
theorem exec_hdcfgWrite (d : Nat) (v : Word) (s : State) : exec (.hdcfgWrite d v) s = .next (s.hdcfgOp d v) := rfl

/-- HDCFG of the firmware's region ignores writes (R15). -/
theorem State.hdcfgOp_firmware (s : State) (v : Word) : s.hdcfgOp 1020 v = s := by simp [State.hdcfgOp]

include hd hr

/-- The three outcomes of a write of HDCFG[d], by the tests that choose between them. -/
theorem State.hdcfgOp_eq : s.hdcfgOp d v =
    let x := s.domain d
    let nver := v.extractLsb' 7 4
    let starts := nver != x.ver || x.askedFunc d v != x.func
    if x.mig || (starts && 4 ≤ s.migrating) then s.setDomain d (x.withEventFields v)
    else if starts then ((s.setDomain d { x.withEventFields v with
        nver := nver, ofunc := x.func, nfunc := x.askedFunc d v, mig := true, oldok := true, moved := 0 }).clearBitmap d).push
          (.granuleMove d)
    else s.setDomain d { x.withEventFields v with nver := nver, oldok := x.oldok && !v.getLsbD 13 } := by
  have writable : ¬ (d = 1020 || 1024 ≤ d) = true := by simp [hr, hd]
  rw [State.hdcfgOp, if_neg writable]
  rfl

/-- While a migration of the domain runs, and where four run already, a write stores THRESH and IE alone. -/
theorem State.hdcfgOp_of_refused (h : (s.domain d).mig = true ∨ ((s.domain d).asksMigration d v ∧ 4 ≤ s.migrating)) :
    s.hdcfgOp d v = s.setDomain d ((s.domain d).withEventFields v) := by
  rw [State.hdcfgOp_eq hd hr]
  exact if_pos (by simpa [Domain.asksMigration] using h)

/-- A write that asks for nothing new stores NVER, and clears OLDOK where it carries a one there. -/
theorem State.hdcfgOp_of_unchanged (hm : (s.domain d).mig = false) (hc : ¬ (s.domain d).asksMigration d v) :
    s.hdcfgOp d v = s.setDomain d { (s.domain d).withEventFields v with
      nver := v.extractLsb' 7 4, oldok := (s.domain d).oldok && !v.getLsbD 13 } := by
  obtain ⟨ver, func⟩ : v.extractLsb' 7 4 = (s.domain d).ver ∧ (s.domain d).askedFunc d v = (s.domain d).func := by
    simpa [Domain.asksMigration] using hc
  rw [State.hdcfgOp_eq hd hr]
  simp [hm, ver, func]

/-- A write that asks for a new version or function starts a migration, whose bitmap begins clear. -/
theorem State.hdcfgOp_of_starts (hm : (s.domain d).mig = false) (hc : (s.domain d).asksMigration d v)
    (hf : ¬ 4 ≤ s.migrating) :
    s.hdcfgOp d v = ((s.setDomain d { (s.domain d).withEventFields v with
      nver := v.extractLsb' 7 4, ofunc := (s.domain d).func, nfunc := (s.domain d).askedFunc d v, mig := true, oldok := true,
      moved := 0 }).clearBitmap d).push (.granuleMove d) := by
  have starts : (v.extractLsb' 7 4 != (s.domain d).ver || (s.domain d).askedFunc d v != (s.domain d).func) = true := by
    simpa [Domain.asksMigration] using hc
  rw [State.hdcfgOp_eq hd hr]
  simp [hm, starts, hf]

end

/-! ## The blocks of the register space -/

section
variable (s : State) (v : Word) (o : Nat)

/-- A write of an aligned register goes to the map of its space. -/
theorem exec_registerWrite_aligned (ho : o % 8 = 0) :
    exec (.registerWrite (Config.regBase + o) v) s = .next (s.regWrite false (Config.regBase + o) v) := by
  have aligned : (Config.regBase + o) % 8 = 0 := by
    rw [Nat.add_mod, ho]
    rfl
  change Host.Outcome.next (if (Config.regBase ≤ Config.regBase + o && (Config.regBase + o) % 8 == 0) = true then _ else _) = _
  rw [if_pos (by simp [aligned])]

/-- A write of the memory control registers goes to their map (R58). -/
theorem exec_registerWrite_memory (ho : o < 0x10000 ∧ o % 8 = 0) :
    exec (.registerWrite (Config.regBase + (0x100000 + o)) v) s = .next (s.memRegWrite o v) := by
  rw [exec_registerWrite_aligned s v _ (by omega)]
  simp (disch := omega) only [State.regWrite, Nat.add_sub_cancel_left, Bool.and_eq_true, decide_eq_true_eq, if_pos]

/-- A write of the switch tier's registers goes to their map (R96). -/
theorem exec_registerWrite_switch (ho : o < 0x10000 ∧ o % 8 = 0) :
    exec (.registerWrite (Config.regBase + (0x110000 + o)) v) s = .next (s.swRegWrite o v) := by
  rw [exec_registerWrite_aligned s v _ (by omega)]
  simp (disch := omega) only [State.regWrite, Nat.add_sub_cancel_left, Bool.and_eq_true, decide_eq_true_eq, if_pos, if_neg]

/-- A write of the system block by a core goes to its map (R396). -/
theorem exec_registerWrite_system (ho : o < 0x10000 ∧ o % 8 = 0) :
    exec (.registerWrite (Config.regBase + (0x140000 + o)) v) s = .next (s.sysWrite false o v) := by
  rw [exec_registerWrite_aligned s v _ (by omega)]
  simp (disch := omega) only [State.regWrite, Nat.add_sub_cancel_left, Bool.and_eq_true, decide_eq_true_eq, if_pos, if_neg]

/-- HDCFG[d] lies at 8 × d above the first (Table 4). -/
theorem exec_registerWrite_hdcfg {d : Nat} (hd : d < 1024) :
    exec (.registerWrite (Config.regBase + (0x102000 + 8 * d)) v) s = .next (s.hdcfgOp d v) := by
  have index : (0x2000 + 8 * d - 0x2000) / 8 = d := by omega
  have place : 0x102000 + 8 * d = 0x100000 + (0x2000 + 8 * d) := by omega
  rw [place, exec_registerWrite_memory s v _ (by omega)]
  simp (disch := omega) only [State.memRegWrite, Bool.and_eq_true, decide_eq_true_eq, if_pos, if_neg, index]

end

/-! ## HOSTSIG and KEYCMD (R399, R410) -/

/-- An erased slot is empty. -/
theorem State.keyLoaded_keyEraseOp (s : State) {slot : Nat} (h : 0 < slot) : (s.keyEraseOp slot).keyLoaded slot = false := by
  simp [State.keyLoaded, State.keyEraseOp, h.ne']

/-- The other slots keep what they hold. -/
theorem State.keyMat_keyEraseOp_of_ne (s : State) {slot k : Nat} (hk : k ≠ slot) :
    (s.keyEraseOp slot).keyMat k = s.keyMat k := by
  rw [State.keyMat, State.keyEraseOp, find?_fst_filter_of_ne _ hk]
  rfl

/-- The step of KEYCMD's load is its operation. -/
theorem exec_keyLoad (slot rec : Nat) (s : State) : exec (.keyLoad slot rec) s = .next (s.keyLoadOp slot rec) := rfl

/-- A slot that holds a key takes no other. -/
theorem State.keyLoadOp_of_loaded (s : State) {slot : Nat} (rec : Nat) (h : s.keyLoaded slot = true) :
    s.keyLoadOp slot rec = s := by
  simp [State.keyLoadOp, h]

/-- An empty slot takes the key of a record that can be read and unwraps. -/
theorem State.keyLoadOp_of_empty (s : State) {slot : Nat} (rec : Nat) (hpos : 0 < slot) (hlt : slot < 64)
    (h : s.keyLoaded slot = false) :
    s.keyLoadOp slot rec = if s.badRecord rec 1152 = true then s
      else (unwrapKey (s.mem.read rec 1152)).elim s (fun k => { s with keys := (slot, k) :: s.keys }) := by
  have takes : ¬ (slot = 0 || 64 ≤ slot || s.keyLoaded slot) = true := by simp [h, hpos.ne', hlt]
  have place : hbmStore rec = rec := rfl
  rw [State.keyLoadOp, if_neg takes, place]
  split
  · rfl
  · cases unwrapKey (s.mem.read rec 1152) <;> rfl

/-- A write of HOSTSIG reaches the owner master, or is counted as dropped. -/
theorem State.hostsigOp_eq (s : State) (v : Word) : s.hostsigOp v =
    if s.sys.ownV = true ∧ s.sys.link = true then { s with hostOut := s.hostOut ++ [v] }
    else { s with sys := s.sys.dropSignal } := by
  simp [State.hostsigOp]

/-! ## The results -/

/-- One domain replaced, and nothing else: the agenda, the core, memory and the memory control registers stay. -/
theorem goes_setDomain (s : State) (d : Nat) (y : Domain) : Goes (.next (s.setDomain d y)) (fun t =>
    t.domain d = y ∧ (∀ k, k ≠ d → t.domain k = s.domain k) ∧ t.agenda = s.agenda ++ [] ∧ t.core = s.core ∧
    t.mem = s.mem ∧ t.memRegs = s.memRegs) :=
  ⟨_, rfl, State.domain_setDomain_same s d y, fun _ hk => State.domain_setDomain_of_ne s y hk, (List.append_nil _).symm,
    rfl, rfl, rfl⟩

/-- The start of a migration clears the domain's bitmap and asks for its first granule, besides. -/
theorem goes_migrationStart (s : State) (d : Nat) (y : Domain) :
    Goes (.next (((s.setDomain d y).clearBitmap d).push (.granuleMove d))) (fun t =>
      t.domain d = y ∧ (∀ k, k ≠ d → t.domain k = s.domain k) ∧ t.agenda = s.agenda ++ [.granuleMove d] ∧ t.core = s.core ∧
      t.mem = s.mem.erase (bitmapBase d) (bitmapBase d + 2 ^ 19) ∧ t.memRegs = s.memRegs) :=
  ⟨_, rfl, State.domain_setDomain_same s d y, fun _ hk => State.domain_setDomain_of_ne s y hk, rfl, rfl, rfl, rfl⟩

/-- Settles O48. Each register of the first clause is one entry of its block's map; the clauses on HDCFG, HOSTSIG and KEYCMD are
the outcomes of their operations. -/
theorem registerWriteResults : Obligations.RegisterWriteResults := by
  unfold Obligations.RegisterWriteResults
  intro s v
  have memory := exec_registerWrite_memory s v
  have switch := exec_registerWrite_switch s v
  have system := exec_registerWrite_system s v
  refine ⟨?registers, rfl, memory 0x68 (by decide), ?hdcfg, ?firmware, ?hostsig, ?keys⟩
  case registers =>
    exact ⟨memory 0x00 (by decide), memory 0x08 (by decide), memory 0x10 (by decide), memory 0x18 (by decide),
      memory 0x20 (by decide), memory 0x28 (by decide), memory 0x30 (by decide), memory 0x38 (by decide),
      memory 0x40 (by decide), memory 0x48 (by decide), memory 0x50 (by decide), memory 0x58 (by decide),
      memory 0x60 (by decide), switch 0x200 (by decide), switch 0x208 (by decide), switch 0x210 (by decide),
      system 0x00 (by decide), system 0x08 (by decide), system 0x20 (by decide), system 0x60 (by decide),
      system 0x68 (by decide), system 0x78 (by decide)⟩
  case hdcfg =>
    intro d hd hr
    refine ⟨exec_registerWrite_hdcfg s v hd, fun refused => ?_, fun hm unchanged => ?_, fun hm starts free => ?_⟩
    · rw [exec_hdcfgWrite, State.hdcfgOp_of_refused hd hr refused]
      exact goes_setDomain s d _
    · rw [exec_hdcfgWrite, State.hdcfgOp_of_unchanged hd hr hm unchanged]
      exact goes_setDomain s d _
    · rw [exec_hdcfgWrite, State.hdcfgOp_of_starts hd hr hm starts free]
      exact goes_migrationStart s d _
  case firmware => rw [exec_hdcfgWrite, State.hdcfgOp_firmware]
  case hostsig => exact congrArg _ (State.hostsigOp_eq s v)
  case keys =>
    intro slot rec hpos hlt
    refine ⟨fun empty => ?_, fun loaded => ?_, ?erase⟩
    · rw [exec_keyLoad, State.keyLoadOp_of_empty s rec hpos hlt empty]
      cases unwrapKey (s.mem.read rec 1152) <;> rfl
    · rw [exec_keyLoad, State.keyLoadOp_of_loaded s rec loaded]
    case erase =>
      exact ⟨s.keyEraseOp slot, rfl, rfl, State.keyLoaded_keyEraseOp s hpos, fun _ hk => State.keyMat_keyEraseOp_of_ne s hk⟩

end Sys2Proof.Machine
end

section
/-! SUPPORT. What `swalloc`, `swfree` and `swquota` answer (spec/03 R81 to R86): the tests of each operation in the model's order,
the search for a free range and its candidates, the attempts of plane 31 one after the other, and the bytes that a free zeroes
(O31). -/

namespace Sys2Proof.Machine

/-! ## The instructions and their operations -/

section
variable {s : State} {g : Guard} (hg : s.enables g)
include hg

theorem exec_swalloc (hp : s.core.run.priv = true) (d a b : Fin 32) : exec (.swalloc g d a b) s =
    .next ((s.swallocOp (s.reg a) (s.reg b)).2.wrote d (s.swallocOp (s.reg a) (s.reg b)).1) := by
  change Host.Outcome.next (s.privileged _) = _
  rw [State.privileged_on hp, State.guarded_on hg, State.setS_advance]
  rfl

theorem exec_swfree (hp : s.core.run.priv = true) (d a : Fin 32) : exec (.swfree g d a) s =
    .next ((s.swfreeOp (s.reg a)).2.wrote d (s.swfreeOp (s.reg a)).1) := by
  change Host.Outcome.next (s.privileged _) = _
  rw [State.privileged_on hp, State.guarded_on hg, State.setS_advance]
  rfl

theorem exec_swquota (d a : Fin 32) : exec (.swquota g d a) s = .next (s.wrote d (s.swquotaOp (s.reg a))) := by
  change Host.Outcome.next (s.guarded g _) = _
  rw [State.guarded_on hg, State.setS_advance]
  rfl

end

/-! ## What refuses an operation before a plane is asked (R82, R84, R85) -/

theorem State.untrained_status {s : State} (hf : s.sys.fabtr = false) (w v : Word) :
    s.swallocOp w v = (3, s) ∧ s.swfreeOp w = (3, s) ∧ s.swquotaOp w = 3 := by
  simp [State.swallocOp, State.swfreeOp, State.swquotaOp, hf, statusWord, w64]

section
variable {s : State} (hf : s.sys.fabtr = true) {size flags : Word}
include hf

theorem State.swallocOp_of_badFlags (h : 64 ≤ flags.toNat) : s.swallocOp size flags = (9, s) := by
  have reserved : flags.toNat / 64 ≠ 0 := by omega
  simp [State.swallocOp, hf, reserved, statusWord, w64]

theorem State.swallocOp_of_badPlane (h : flags.toNat < 64) (hp : 18 ≤ flags.toNat % 32) (hany : flags.toNat % 32 ≠ 31) :
    s.swallocOp size flags = (5, s) := by
  have noReserved : flags.toNat / 64 = 0 := by omega
  simp [State.swallocOp, hf, noReserved, hp, hany, statusWord, w64]

end

/-- What `swalloc` answers for an attempt: the handle, or the status in a state that has not changed. -/
def State.allocAnswer (s : State) : Except Nat (Word × State) → Word × State
  | .ok r => r
  | .error e => (w64 e, s)

/-- The plane that the search of plane 31 begins with: the one after the last that was granted (R82). -/
def State.searchStart (s : State) : Nat :=
  match s.lastGrant with
  | none => 0
  | some k => (k + 1) % 18

/-- The attempt that a `swalloc` for tenant `T` makes: on the plane that it names, or on one after the other. -/
def State.attempt (s : State) (size flags : Word) (T : Nat) : Except Nat (Word × State) :=
  let units := (size.toNat + 65535) / 65536
  if flags.toNat % 32 = 31 then s.allocAny units T (flags.getLsbD 5) 18 s.searchStart 3
  else s.allocOn (flags.toNat % 32) units T (flags.getLsbD 5)

section
variable {s : State} (hf : s.sys.fabtr = true) {size flags : Word} (h : flags.toNat < 64)
  (hp : flags.toNat % 32 < 18 ∨ flags.toNat % 32 = 31)
include hf h hp

/-- Where the flags and the plane are in order, the size, the tenant and the planes decide, in this order (log 21). -/
theorem State.swallocOp_of_plane : s.swallocOp size flags =
    if size.toNat = 0 ∨ 2 ^ 40 < size.toNat then (4, s)
    else (s.tenantOf (s.slotOf s.core.run.asid.toNat)).elim (6, s) (fun T => s.allocAnswer (s.attempt size flags T)) := by
  have noReserved : (flags.toNat / 64 != 0) = false := by simp; omega
  have named : (decide (18 ≤ flags.toNat % 32) && flags.toNat % 32 != 31) = false := by
    rcases hp with hp | hp <;> simp [hp]
  have mirror : bitAt flags.toNat 5 = flags.getLsbD 5 := by
    rw [BitVec.getLsbD, Nat.testBit_eq_decide_div_mod_eq]
    rfl
  have answers (r : Except Nat (Word × State)) : (match r with
      | .ok (w, t) => (w, t)
      | .error e => (statusWord e, s)) = s.allocAnswer r := by
    cases r <;> rfl
  simp only [State.swallocOp, hf, noReserved, named, mirror, Bool.or_eq_true, decide_eq_true_eq, Bool.not_true,
    Bool.false_eq_true, if_false]
  split
  · rfl
  · cases s.tenantOf (s.slotOf s.core.run.asid.toNat) with
    | none => rfl
    | some T => exact answers (s.attempt size flags T)

theorem State.swallocOp_of_badSize (hsize : size.toNat = 0 ∨ 2 ^ 40 < size.toNat) : s.swallocOp size flags = (4, s) := by
  rw [State.swallocOp_of_plane hf h hp, if_pos hsize]

variable (hpos : 0 < size.toNat) (hle : size.toNat ≤ 2 ^ 40)
include hpos hle

theorem State.swallocOp_of_noTenant (ht : s.tenantOf (s.slotOf s.core.run.asid.toNat) = none) :
    s.swallocOp size flags = (6, s) := by
  rw [State.swallocOp_of_plane hf h hp, if_neg (by omega), ht]
  rfl

theorem State.swallocOp_of_tenant {T : Nat} (ht : s.tenantOf (s.slotOf s.core.run.asid.toNat) = some T) :
    s.swallocOp size flags = s.allocAnswer (s.attempt size flags T) := by
  rw [State.swallocOp_of_plane hf h hp, if_neg (by omega), ht]
  rfl

end

/-! ## The tests of a free and of a quota (R84, R85) -/

/-- Each of some planes is up, for the module and in itself. -/
def State.upAt (s : State) (planes : List Nat) : Prop := ∀ k ∈ planes, s.regardsUp k = true ∧ (s.plane k).up = true

theorem State.all_up_iff {s : State} (planes : List Nat) :
    planes.all (fun k => s.regardsUp k && (s.plane k).up) = true ↔ s.upAt planes := by
  simp only [State.upAt, List.all_eq_true, Bool.and_eq_true]

theorem State.not_upAt_iff {s : State} (planes : List Nat) :
    ¬ s.upAt planes ↔ ∃ k ∈ planes, s.regardsUp k = false ∨ (s.plane k).up = false := by
  simp only [State.upAt, not_forall, exists_prop, not_and_or, Bool.not_eq_true]

/-- The plane that a handle names (R81). -/
theorem bits_planeOfHandle (h : Word) : bits h.toNat 62 58 = h.toNat / 2 ^ 58 % 32 := rfl

/-- The planes at which the range of `x`, whose primary is `p`, is listed, and zeroed by a free (R83). -/
def Alloc.zeroedOn (x : Alloc) (p : Nat) : List Nat :=
  (if x.listed then [p] else []) ++ (if x.onPartner then [partnerOf p] else [])

/-- The planes that a free of `x` needs: those that hold a copy, and the one that a Lost allocation waits for (R84). -/
def Alloc.needs (x : Alloc) (p : Nat) : List Nat :=
  ((if x.onPrimary then [p] else []) ++ (if x.onPartner then [partnerOf p] else [])) ++ x.waits.toList

/-- The range of `x` zeroed at each of some planes (R83). -/
def State.zeroAt (s : State) (x : Alloc) (planes : List Nat) : State := planes.foldl (fun t k => t.zeroRange k x.base x.units) s

/-- The state after the range of `x`, whose handle is `h`, has been freed at its planes. -/
def State.freed (s : State) (h : Word) (x : Alloc) : State :=
  let t := s.zeroAt x (x.zeroedOn (h.toNat / 2 ^ 58 % 32))
  { t with allocs := t.allocs.filter (fun y => !(y.handle == h)) }

section
variable {s : State} (hf : s.sys.fabtr = true) {h : Word}
include hf

theorem State.swfreeOp_of_badPlane (hp : 18 ≤ h.toNat / 2 ^ 58 % 32) : s.swfreeOp h = (5, s) := by
  simp only [State.swfreeOp, hf, bits_planeOfHandle, hp]
  rfl

variable (hp : h.toNat / 2 ^ 58 % 32 < 18)
include hp

theorem State.swfreeOp_of_noTenant (ht : s.tenantOf (s.slotOf s.core.run.asid.toNat) = none) : s.swfreeOp h = (6, s) := by
  simp only [State.swfreeOp, hf, bits_planeOfHandle, ht, not_le.2 hp]
  rfl

variable {T : Nat} (ht : s.tenantOf (s.slotOf s.core.run.asid.toNat) = some T)
include ht

theorem State.swfreeOp_of_stale (hx : ∀ x ∈ s.allocs, x.handle ≠ h) : s.swfreeOp h = (7, s) := by
  have none_found : s.allocs.find? (fun x => x.handle == h) = none := by simpa using hx
  simp only [State.swfreeOp, hf, bits_planeOfHandle, ht, not_le.2 hp, none_found]
  rfl

variable {x : Alloc} (hx : s.allocs.find? (fun y => y.handle == h) = some x)
include hx

/-- A free of an allocation that is found, by the tests that choose between its outcomes (log 22). -/
theorem State.swfreeOp_of_found : s.swfreeOp h =
    if (!(x.needs (h.toNat / 2 ^ 58 % 32)).all (fun k => s.regardsUp k && (s.plane k).up)) = true then (3, s)
    else if (x.state == .lost) = true then (7, s)
    else if (x.tenant != T) = true then (8, s)
    else (0, s.freed h x) := by
  have zeroed (p : Nat) : (if x.onPartner = true then
        (if x.listed = true then s.zeroRange p x.base x.units else s).zeroRange (partnerOf p) x.base x.units
      else if x.listed = true then s.zeroRange p x.base x.units else s) = s.zeroAt x (x.zeroedOn p) := by
    unfold Alloc.zeroedOn
    cases x.listed <;> cases x.onPartner <;> rfl
  simp only [State.swfreeOp, hf, bits_planeOfHandle, ht, not_le.2 hp, hx, zeroed]
  rfl

theorem State.swfreeOp_of_down (hd : ¬ s.upAt (x.needs (h.toNat / 2 ^ 58 % 32))) : s.swfreeOp h = (3, s) := by
  rw [State.swfreeOp_of_found hf hp ht hx, Bool.eq_false_iff.2 (mt (State.all_up_iff _).1 hd)]
  rfl

variable (up : s.upAt (x.needs (h.toNat / 2 ^ 58 % 32)))
include up

theorem State.swfreeOp_of_lost (hs : x.state = .lost) : s.swfreeOp h = (7, s) := by
  rw [State.swfreeOp_of_found hf hp ht hx, (State.all_up_iff _).2 up, hs]
  rfl

variable (hs : x.state ≠ .lost)
include hs

theorem State.swfreeOp_of_notOwner (ho : x.tenant ≠ T) : s.swfreeOp h = (8, s) := by
  rw [State.swfreeOp_of_found hf hp ht hx, (State.all_up_iff _).2 up, beq_false_of_ne hs, bne_iff_ne.2 ho]
  rfl

theorem State.swfreeOp_of_owner (ho : x.tenant = T) : s.swfreeOp h = (0, s.freed h x) := by
  rw [State.swfreeOp_of_found hf hp ht hx, (State.all_up_iff _).2 up, beq_false_of_ne hs, ho, bne_self_eq_false]
  rfl

end

section
variable {s : State} (hf : s.sys.fabtr = true) {v : Word}
include hf

theorem State.swquotaOp_of_badFlags (h : 32 ≤ v.toNat) : s.swquotaOp v = 9 := by
  have reserved : (v.toNat / 32 != 0) = true := by simp; omega
  simp only [State.swquotaOp, hf, reserved]
  rfl

theorem State.swquotaOp_of_badPlane (h : v.toNat < 32) (hp : 18 ≤ v.toNat % 32) : s.swquotaOp v = 5 := by
  have noReserved : (v.toNat / 32 != 0) = false := by simp; omega
  simp only [State.swquotaOp, hf, noReserved, hp]
  rfl

/-- With a plane named, the tenant and the plane's state decide (R85). -/
theorem State.swquotaOp_of_plane (h : v.toNat < 18) : s.swquotaOp v =
    (s.tenantOf (s.slotOf s.core.run.asid.toNat)).elim 6 (fun T =>
      if (s.regardsUp (v.toNat % 32) && (s.plane (v.toNat % 32)).up) = true then
        BitVec.ofNat 64 (s.quota (v.toNat % 32) T * 2 ^ 36 + s.usage (v.toNat % 32) T * 2 ^ 8)
      else 3) := by
  have noReserved : (v.toNat / 32 != 0) = false := by simp; omega
  have named : ¬ 18 ≤ v.toNat % 32 := by omega
  simp only [State.swquotaOp, hf, noReserved, named]
  cases s.tenantOf (s.slotOf s.core.run.asid.toNat) with
  | none => rfl
  | some T => cases (s.regardsUp (v.toNat % 32) && (s.plane (v.toNat % 32)).up) <;> rfl

theorem State.swquotaOp_of_noTenant (h : v.toNat < 18) (ht : s.tenantOf (s.slotOf s.core.run.asid.toNat) = none) :
    s.swquotaOp v = 6 := by
  rw [State.swquotaOp_of_plane hf h, ht]
  rfl

variable {T : Nat} (h : v.toNat < 18) (ht : s.tenantOf (s.slotOf s.core.run.asid.toNat) = some T)
include h ht

theorem State.swquotaOp_of_down (hd : s.regardsUp (v.toNat % 32) = false ∨ (s.plane (v.toNat % 32)).up = false) :
    s.swquotaOp v = 3 := by
  rw [State.swquotaOp_of_plane hf h, ht]
  exact if_neg (by simpa [imp_iff_not_or] using hd)

theorem State.swquotaOp_of_up (hr : s.regardsUp (v.toNat % 32) = true) (hu : (s.plane (v.toNat % 32)).up = true) :
    s.swquotaOp v =
      BitVec.ofNat 64 (s.quota (v.toNat % 32) T * 2 ^ 36 + s.usage (v.toNat % 32) T * 2 ^ 8) := by
  rw [State.swquotaOp_of_plane hf h, ht]
  exact if_pos (by simp [hr, hu])

end

/-! ## What a free does (R83, R84) -/

/-- The byte at `y` is one of `x`'s on plane `k`. -/
abbrev Alloc.inside (x : Alloc) (k y : Nat) : Prop :=
  planeStore k + x.base * 2 ^ 16 ≤ y ∧ y < planeStore k + (x.base + x.units) * 2 ^ 16

section
variable (s : State) (x : Alloc) (planes : List Nat)

@[simp] theorem State.zeroAt_nil : s.zeroAt x [] = s := rfl
@[simp] theorem State.zeroAt_cons (k : Nat) :
    s.zeroAt x (k :: planes) = (s.zeroRange k x.base x.units).zeroAt x planes := rfl

@[simp] theorem State.zeroAt_core : (s.zeroAt x planes).core = s.core := by
  induction planes generalizing s with
  | nil => rfl
  | cons k planes ih => exact ih _

@[simp] theorem State.zeroAt_allocs : (s.zeroAt x planes).allocs = s.allocs := by
  induction planes generalizing s with
  | nil => rfl
  | cons k planes ih => exact ih _

theorem State.zeroRange_mem_get {s : State} (hwf : s.mem.wf = true) (k y : Nat) :
    (s.zeroRange k x.base x.units).mem.get y = if x.inside k y then 0 else s.mem.get y := Memory.get_erase _ _ _ hwf

theorem State.zeroAt_mem_get {s : State} (hwf : s.mem.wf = true) (y : Nat) :
    (s.zeroAt x planes).mem.get y = if ∃ k ∈ planes, x.inside k y then 0 else s.mem.get y := by
  induction planes generalizing s with
  | nil => simp
  | cons k planes ih =>
    rw [State.zeroAt_cons, ih (State.zeroRange_mem_wf hwf ..), State.zeroRange_mem_get x hwf]
    simp only [List.mem_cons, exists_eq_or_imp]
    by_cases here : x.inside k y
    · rw [if_pos here, if_pos (Or.inl here), ite_self]
    · simp only [here, if_false, false_or]
end

/-! ## The range that a plane grants (R82) -/

theorem alignUp_mod (n a : Nat) : alignUp n a % n = 0 := Nat.mul_mod_left _ _

theorem le_alignUp {n : Nat} (hn : 0 < n) (a : Nat) : a ≤ alignUp n a := by
  have := Nat.lt_div_mul_add (a := a + n - 1) hn
  unfold alignUp
  omega

theorem alignUp_le {n a b : Nat} (hn : 0 < n) (hb : b % n = 0) (h : a ≤ b) : alignUp n a ≤ b := by
  obtain ⟨q, rfl⟩ := Nat.dvd_of_mod_eq_zero hb
  have quotient : (a + n - 1) / n ≤ q := by
    rw [Nat.div_le_iff_le_mul_add_pred hn]
    omega
  unfold alignUp
  rw [Nat.mul_comm n q]
  exact Nat.mul_le_mul_right n quotient

theorem allocAlign_pos (units : Nat) : 0 < allocAlign units := by
  unfold allocAlign
  split_ifs <;> decide

/-- What `firstFree` finds is one of the candidates, and passes the test; it finds none only where none passes. -/
theorem firstFree_spec (ok : Nat → Bool) (start : Nat) (l : List Nat) :
    (∀ b, firstFree ok start l = some b → b ∈ l ∧ ok b = true) ∧
    (firstFree ok start l = none → ∀ b ∈ l, ok b = false) := by
  induction l with
  | nil => simp [firstFree]
  | cons c l ih =>
    obtain ⟨found, nothing⟩ := ih
    rw [firstFree]
    cases e : firstFree ok start l with
    | none =>
      refine ⟨fun b hb => ?_, fun hn b hb => ?_⟩
      · obtain ⟨passes, rfl⟩ : ok c = true ∧ c = b := by simpa using hb
        exact ⟨List.mem_cons_self, passes⟩
      · rcases List.mem_cons.1 hb with rfl | later
        · simpa using hn
        · exact nothing e b later
    | some b' =>
      obtain ⟨later, good⟩ := found b' e
      dsimp only
      split
      · next nearer =>
        refine ⟨fun b hb => ?_, nofun⟩
        cases hb
        exact ⟨List.mem_cons_self, (Bool.and_eq_true_iff.1 nearer).1⟩
      · refine ⟨fun b hb => ?_, nofun⟩
        cases hb
        exact ⟨List.mem_cons_of_mem _ later, good⟩

/-- The range of `units` from `base` on is aligned and free on each of some planes. -/
def State.freeAt (s : State) (planes : List Nat) (units base : Nat) : Prop :=
  base % allocAlign units = 0 ∧ base + units ≤ 2 ^ 26 ∧
    ∀ k ∈ planes, ∀ x ∈ s.allocs, x.holds k = true → x.base + x.units ≤ base ∨ base + units ≤ x.base

section
variable {s : State} {planes : List Nat} {units : Nat}

theorem State.rangeFree_iff (p base units : Nat) : s.rangeFree p base units = true ↔ base + units ≤ 2 ^ 26 ∧
    ∀ x ∈ s.allocs, x.holds p = true → x.base + x.units ≤ base ∨ base + units ≤ x.base := by
  simp [State.rangeFree, imp_iff_not_or, or_assoc]

/-- Where the range at `base` is free and the one an alignment step before is not, `base` is the first aligned place after some
allocation. -/
theorem State.follows_of_freeAt {base : Nat} (hpos : 0 < base) (h : s.freeAt planes units base)
    (hprev : ¬ s.freeAt planes units (base - allocAlign units)) :
    ∃ x ∈ s.allocs, alignUp (allocAlign units) (x.base + x.units) = base := by
  obtain ⟨aligned, fits, free⟩ := h
  have al := allocAlign_pos units
  obtain ⟨q, hq⟩ := Nat.dvd_of_mod_eq_zero aligned
  have step : allocAlign units ≤ base := Nat.le_of_dvd hpos (Nat.dvd_of_mod_eq_zero aligned)
  have aligned' : (base - allocAlign units) % allocAlign units = 0 := by
    rw [← Nat.mod_eq_sub_mod step, aligned]
  simp only [State.freeAt, aligned', true_and, not_and, not_forall, not_or, not_le] at hprev
  obtain ⟨k, hk, x, hx, holds, ends, begins⟩ := hprev (by omega)
  have before : x.base + x.units ≤ base := by
    rcases free k hk x hx holds with h | h <;> omega
  refine ⟨x, hx, Nat.le_antisymm (alignUp_le al aligned before) ?_⟩
  have above := le_alignUp al (x.base + x.units)
  have next : base - allocAlign units < alignUp (allocAlign units) (x.base + x.units) := by omega
  obtain ⟨r, hr⟩ := Nat.dvd_of_mod_eq_zero (alignUp_mod (allocAlign units) (x.base + x.units))
  have later : q - 1 < r := by
    rw [hr, hq, ← Nat.mul_sub_one] at next
    exact lt_of_mul_lt_mul_left next (Nat.zero_le _)
  rw [hr, hq]
  exact Nat.mul_le_mul_left _ (by omega)

/-- A plane that has a free range has one at the start of the plane, or right after an allocation. -/
theorem State.exists_candidate_of_freeAt (base : Nat) (h : s.freeAt planes units base) :
    ∃ c ∈ 0 :: s.allocs.map (fun a => alignUp (allocAlign units) (a.base + a.units)), s.freeAt planes units c := by
  induction base using Nat.strong_induction_on with
  | _ base ih =>
    rcases Nat.eq_zero_or_pos base with rfl | hpos
    · exact ⟨0, List.mem_cons_self, h⟩
    · by_cases hprev : s.freeAt planes units (base - allocAlign units)
      · exact ih _ (Nat.sub_lt hpos (allocAlign_pos units)) hprev
      · obtain ⟨x, hx, e⟩ := State.follows_of_freeAt hpos h hprev
        exact ⟨base, List.mem_cons_of_mem _ (List.mem_map.2 ⟨x, hx, e⟩), h⟩

variable (hp : planes ≠ [])
include hp

theorem State.freeAt_iff_of_aligned {base : Nat} (h : base % allocAlign units = 0) :
    s.freeAt planes units base ↔ planes.all (fun p => s.rangeFree p base units) = true := by
  simp only [State.freeAt, h, true_and, List.all_eq_true, State.rangeFree_iff]
  obtain ⟨k, hk⟩ := List.exists_mem_of_ne_nil planes hp
  exact ⟨fun ⟨fits, free⟩ p hp => ⟨fits, free p hp⟩, fun free => ⟨(free k hk).1, fun p hp => (free p hp).2⟩⟩

/-- The search finds a free range on the planes wherever there is one (R82, log 17). -/
theorem State.findRange_spec :
    (∀ b, s.findRange planes units = some b → s.freeAt planes units b) ∧
    (s.findRange planes units = none → ∀ b, ¬ s.freeAt planes units b) := by
  obtain ⟨found, nothing⟩ := firstFree_spec (fun b => planes.all (fun p => s.rangeFree p b units)) (Config.freeRange s.fresh)
    (alignUp (allocAlign units) (Config.freeRange s.fresh % 2 ^ 26) ::
      0 :: s.allocs.map (fun a => alignUp (allocAlign units) (a.base + a.units)))
  have aligned : ∀ c ∈ alignUp (allocAlign units) (Config.freeRange s.fresh % 2 ^ 26) ::
      0 :: s.allocs.map (fun a => alignUp (allocAlign units) (a.base + a.units)), c % allocAlign units = 0 := by
    simp only [List.mem_cons, List.mem_map]
    rintro c (rfl | rfl | ⟨x, -, rfl⟩)
    · exact alignUp_mod _ _
    · exact Nat.zero_mod _
    · exact alignUp_mod _ _
  refine ⟨fun b hb => ?_, fun hn b hb => ?_⟩
  · obtain ⟨candidate, passes⟩ := found b hb
    exact (State.freeAt_iff_of_aligned hp (aligned b candidate)).2 passes
  · obtain ⟨c, candidate, free⟩ := State.exists_candidate_of_freeAt b hb
    have passes := (State.freeAt_iff_of_aligned hp free.1).1 free
    have fails := nothing hn c (List.mem_cons_of_mem _ candidate)
    exact absurd (fails ▸ passes) Bool.false_ne_true
end

/-! ## One attempt (R82, R83) -/

/-- Granules inside the range that two planes join go on from the higher of their sequences (R83). -/
theorem Plane.seq_joinSeqs (x y : Plane) {lo hi g : Nat} (hlo : lo ≤ g) (hhi : g < hi) :
    ({ x with seqs := joinSeqs x y lo hi } : Plane).seq g = max (x.seq g) (y.seq g) := by
  have inner : ((x.seqs ++ y.seqs).filter (fun k => lo ≤ k.1 && k.1 < hi)).find? (fun k => k.1 = g) =
      (x.seqs.find? (fun k => k.1 = g)).or (y.seqs.find? (fun k => k.1 = g)) := by
    rw [List.find?_filter, ← List.find?_append]
    congr 1
    funext k
    have : k.1 = g → lo ≤ k.1 ∧ k.1 < hi := fun e => e ▸ ⟨hlo, hhi⟩
    simpa using this
  have outer : (x.seqs.filter (fun k => !(lo ≤ k.1 && k.1 < hi))).find? (fun k => k.1 = g) = none := by
    simp only [List.find?_eq_none, List.mem_filter]
    rintro k ⟨-, hk⟩ e
    have out : k.1 < lo ∨ hi ≤ k.1 := by simpa [imp_iff_not_or] using hk
    have same : k.1 = g := by simpa using e
    omega
  have joined : ({ x with seqs := joinSeqs x y lo hi } : Plane).seq g =
      (((x.seqs.find? (fun k => k.1 = g)).or (y.seqs.find? (fun k => k.1 = g))).map
        (fun k => max (x.seq k.1) (y.seq k.1))).getD 0 := by
    rw [Plane.seq, joinSeqs, List.find?_append, outer, Option.or_none, List.find?_map, Option.map_map]
    exact congrArg (fun found => (Option.map _ found).getD 0) inner
  rw [joined]
  cases hx : x.seqs.find? (fun k => k.1 = g) with
  | some k =>
    have same : k.1 = g := by simpa using List.find?_some hx
    simp [same]
  | none =>
    cases hy : y.seqs.find? (fun k => k.1 = g) with
    | some k =>
      have same : k.1 = g := by simpa using List.find?_some hy
      simp [same]
    | none => simp [Plane.seq, hx, hy]

theorem partnerOf_lt {p : Nat} (h : p < 18) : partnerOf p < 18 := by
  unfold partnerOf
  split <;> omega

theorem partnerOf_ne (p : Nat) : partnerOf p ≠ p := by
  unfold partnerOf
  split <;> omega

theorem State.plane_setPlane_same (s : State) {p : Nat} (hp : p < 18) (x : Plane) : (s.setPlane p x).plane p = x := by
  simp [State.plane, State.setPlane, hp]

theorem State.plane_setPlane_of_ne (s : State) {p k : Nat} (hk : k ≠ p) (x : Plane) :
    (s.setPlane p x).plane k = s.plane k := by
  simp [State.plane, State.setPlane, Ne.symm hk]

/-- A granule's sequence at a primary and its partner, both of which have just been set. -/
theorem State.seqs_of_paired {s t : State} {p g n : Nat} (hp : p < 18) {x y : Plane}
    (ht : t.planes = ((s.setPlane p x).setPlane (partnerOf p) y).planes) (hx : x.seq g = n) (hy : y.seq g = n) :
    (t.plane p).seq g = n ∧ (t.plane (partnerOf p)).seq g = (t.plane p).seq g := by
  have plane (k : Nat) : t.plane k = ((s.setPlane p x).setPlane (partnerOf p) y).plane k := by rw [State.plane, ht]; rfl
  rw [plane, plane, State.plane_setPlane_same _ (partnerOf_lt hp), State.plane_setPlane_of_ne _ (partnerOf_ne p).symm,
    State.plane_setPlane_same _ hp]
  exact ⟨hx, hy.trans hx.symm⟩

/-- The planes on which an allocation with primary `p` takes its range. -/
def takenOn (mirror : Bool) (p : Nat) : List Nat := if mirror then [p, partnerOf p] else [p]

theorem takenOn_ne_nil (mirror : Bool) (p : Nat) : takenOn mirror p ≠ [] := by cases mirror <;> simp [takenOn]

/-- The tenant's quota on each of some planes takes the units besides what it uses there. -/
def State.roomAt (s : State) (planes : List Nat) (units T : Nat) : Prop :=
  ∀ k ∈ planes, s.usage k T + units ≤ s.quota k T

/-- In `t` the allocation `x` has been granted, with primary `p`, and nothing but the planes' sequences has changed besides. -/
structure State.Granted (s t : State) (x : Alloc) (p n T : Nat) (pair : Bool) : Prop where
  allocs : t.allocs = x :: s.allocs
  plane : x.plane = p
  free : s.freeAt (takenOn pair p) n x.base
  units : x.units = n
  tenant : x.tenant = T
  mirror : x.mirror = pair
  state : x.state = if pair then .mirrored else .live
  tag : x.tag = (s.plane p).gen.toNat % 32
  seqs : pair = true → ∀ g, x.base * 1024 ≤ g → g < (x.base + n) * 1024 →
    (t.plane p).seq g = max ((s.plane p).seq g) ((s.plane (partnerOf p)).seq g) ∧
    (t.plane (partnerOf p)).seq g = (t.plane p).seq g
  lastGrant : t.lastGrant = some p
  core : t.core = s.core
  mem : t.mem = s.mem
  batons : t.batons = s.batons

section
variable {s : State} {p units T : Nat} {pair : Bool}

/-! The tests that an attempt on plane `p` makes, in the model's order (log 21). -/

theorem State.any_full_iff (planes : List Nat) :
    planes.any (fun k => s.quota k T < s.usage k T + units) = true ↔ ¬ s.roomAt planes units T := by
  simp only [State.roomAt, List.any_eq_true, decide_eq_true_eq, not_forall, not_le, exists_prop]

theorem State.allocOn_of_down (h : ¬ s.upAt (takenOn pair p)) : s.allocOn p units T pair = .error 3 := by
  have down := Bool.eq_false_iff.2 (mt (State.all_up_iff _).1 h)
  unfold takenOn at down
  simp only [State.allocOn, down]
  rfl

variable (up : s.upAt (takenOn pair p))
include up

theorem State.allocOn_of_full (h : ¬ s.roomAt (takenOn pair p) units T) : s.allocOn p units T pair = .error 1 := by
  have up := (State.all_up_iff _).2 up
  have full := (State.any_full_iff _).2 h
  unfold takenOn at up full
  simp only [State.allocOn, up, full]
  rfl

variable (room : s.roomAt (takenOn pair p) units T)
include room

theorem State.allocOn_of_noSpace (h : ∀ base, ¬ s.freeAt (takenOn pair p) units base) :
    s.allocOn p units T pair = .error 2 := by
  have none_found : s.findRange (takenOn pair p) units = none := by
    cases e : s.findRange (takenOn pair p) units with
    | none => rfl
    | some base => exact absurd ((State.findRange_spec (takenOn_ne_nil pair p)).1 base e) (h base)
  have up := (State.all_up_iff _).2 up
  have roomy := Bool.eq_false_iff.2 (mt (State.any_full_iff _).1 (not_not.2 room))
  unfold takenOn at up roomy none_found
  simp only [State.allocOn, up, roomy, none_found]
  rfl

theorem State.allocOn_of_free (hp : p < 18) (h : ∃ base, s.freeAt (takenOn pair p) units base) :
    ∃ x t, s.allocOn p units T pair = .ok (x.handle, t) ∧ s.Granted t x p units T pair := by
  cases found : s.findRange (takenOn pair p) units with
  | none => exact absurd h.choose_spec ((State.findRange_spec (takenOn_ne_nil pair p)).2 found _)
  | some base =>
    have free := (State.findRange_spec (takenOn_ne_nil pair p)).1 base found
    have up := (State.all_up_iff _).2 up
    have roomy := Bool.eq_false_iff.2 (mt (State.any_full_iff _).1 (not_not.2 room))
    unfold takenOn at up roomy found
    refine ⟨_, _, by simp only [State.allocOn, up, roomy, found]; rfl, ?_⟩
    cases pair with
    | false => exact ⟨rfl, rfl, free, rfl, rfl, rfl, rfl, rfl, nofun, rfl, rfl, rfl, rfl⟩
    | true =>
      refine ⟨rfl, rfl, free, rfl, rfl, rfl, rfl, rfl, fun _ g hlo hhi => ?_, rfl, rfl, rfl, rfl⟩
      have other := Plane.seq_joinSeqs (s.plane (partnerOf p)) (s.plane p) hlo hhi
      exact State.seqs_of_paired hp rfl (Plane.seq_joinSeqs _ _ hlo hhi) (other.trans (Nat.max_comm _ _))
end

/-! ## The search of plane 31 (R82, log 83) -/

/-- Plane `p` can grant the range. -/
def State.canGrant (s : State) (p units T : Nat) (pair : Bool) : Prop :=
  s.upAt (takenOn pair p) ∧ s.roomAt (takenOn pair p) units T ∧ ∃ base, s.freeAt (takenOn pair p) units base

theorem State.allocOn_error {s : State} {p units T : Nat} {pair : Bool} (h : ¬ s.canGrant p units T pair) :
    ∃ e, s.allocOn p units T pair = .error e := by
  by_cases up : s.upAt (takenOn pair p)
  · by_cases room : s.roomAt (takenOn pair p) units T
    · exact ⟨2, State.allocOn_of_noSpace up room (not_exists.1 (fun free => h ⟨up, room, free⟩))⟩
    · exact ⟨1, State.allocOn_of_full up room⟩
  · exact ⟨3, State.allocOn_of_down up⟩

/-- The attempts on some planes in turn, up to the first that succeeds; `last` is the status where there are none. -/
def State.tryEach (s : State) (units T : Nat) (pair : Bool) : List Nat → Nat → Except Nat (Word × State)
  | [], last => .error last
  | p :: ps, _ =>
    match s.allocOn p units T pair with
    | .ok r => .ok r
    | .error e => s.tryEach units T pair ps e

section
variable {s : State} {units T : Nat} {pair : Bool}

theorem State.tryEach_cons_of_error {p e : Nat} (h : s.allocOn p units T pair = .error e) (ps : List Nat) (last : Nat) :
    s.tryEach units T pair (p :: ps) last = s.tryEach units T pair ps e := by
  rw [State.tryEach, h]

/-- The planes that the search passes over have refused. -/
theorem State.tryEach_append {l r : List Nat} {p : Nat} (hl : ∀ k ∈ l, ¬ s.canGrant k units T pair)
    (hp : s.canGrant p units T pair) (hlt : p < 18) (last : Nat) :
    s.tryEach units T pair (l ++ p :: r) last = s.allocOn p units T pair := by
  induction l generalizing last with
  | nil =>
    obtain ⟨up, room, free⟩ := hp
    obtain ⟨x, t, granted, -⟩ := State.allocOn_of_free up room hlt free
    rw [List.nil_append, State.tryEach, granted]
  | cons k l ih =>
    obtain ⟨e, he⟩ := State.allocOn_error (hl k List.mem_cons_self)
    rw [List.cons_append, State.tryEach_cons_of_error he]
    exact ih (fun k hk => hl k (List.mem_cons_of_mem _ hk)) e

/-- Where no plane grants, the last one's status is the answer. -/
theorem State.tryEach_of_none {l : List Nat} {p : Nat} (hl : ∀ k ∈ l, ¬ s.canGrant k units T pair)
    (hp : l.getLast? = some p) (last : Nat) :
    s.tryEach units T pair l last = s.allocOn p units T pair := by
  induction l generalizing last with
  | nil => cases hp
  | cons k l ih =>
    obtain ⟨e, he⟩ := State.allocOn_error (hl k List.mem_cons_self)
    rw [State.tryEach_cons_of_error he]
    cases l with
    | nil =>
      obtain rfl : k = p := by simpa using hp
      rw [he, State.tryEach]
    | cons k' l => exact ih (fun k hk => hl k (List.mem_cons_of_mem _ hk)) (by simpa using hp) e

/-- The search takes the planes in increasing order mod 18, and skips those regarded as down. -/
theorem State.allocAny_eq_tryEach (n : Nat) {p : Nat} (hp : p < 18) (last : Nat) : s.allocAny units T pair n p last =
    s.tryEach units T pair (((List.range n).map (fun i => (p + i) % 18)).filter s.regardsUp) last := by
  induction n generalizing p last with
  | zero => rfl
  | succ n ih =>
    have later : (List.range n).map ((fun i => (p + i) % 18) ∘ Nat.succ) =
        (List.range n).map (fun i => ((p + 1) % 18 + i) % 18) :=
      List.map_congr_left (fun i _ => by simp only [Function.comp]; omega)
    have first : (p + 0) % 18 = p := Nat.mod_eq_of_lt hp
    have next := ih (Nat.mod_lt (p + 1) (by decide))
    rw [State.allocAny, List.range_succ_eq_map, List.map_cons, List.map_map, later, first, List.filter_cons]
    cases s.regardsUp p with
    | false => exact next last
    | true =>
      simp only [Bool.not_true, Bool.false_eq_true, if_false, if_true, State.tryEach]
      cases s.allocOn p units T pair with
      | ok r => rfl
      | error e => exact next e

/-- The planes that the search tries, in their order. -/
def State.searchOrder (s : State) : List Nat :=
  ((List.range 18).map (fun i => (((s.lastGrant.map (· + 1)).getD 0) + i) % 18)).filter s.regardsUp

theorem State.allocAny_eq : s.allocAny units T pair 18 s.searchStart 3 = s.tryEach units T pair s.searchOrder 3 := by
  have start : s.searchStart < 18 ∧ ∀ i, (s.searchStart + i) % 18 = (((s.lastGrant.map (· + 1)).getD 0) + i) % 18 := by
    unfold State.searchStart
    cases s.lastGrant with
    | none => exact ⟨by decide, fun _ => rfl⟩
    | some k => exact ⟨Nat.mod_lt _ (by decide), fun i => Nat.mod_add_mod _ _ _⟩
  rw [State.allocAny_eq_tryEach 18 start.1]
  simp only [start.2]
  rfl
end

theorem State.lt_of_mem_searchOrder {s : State} {p : Nat} (h : p ∈ s.searchOrder) : p < 18 := by
  obtain ⟨i, -, rfl⟩ := List.mem_map.1 (List.mem_of_mem_filter h)
  exact Nat.mod_lt _ (by decide)

/-! ## The results -/

theorem State.core_run_wrote {s t : State} (h : t.core = s.core) (d : Fin 32) (v : Word) :
    (t.wrote d v).core.run = (s.wrote d v).core.run := by
  simp only [State.wrote, State.withRun, State.regsWith, h]

section
variable {s : State} {g : Guard} (hg : s.enables g) (hp : s.core.run.priv = true) (d a b : Fin 32)
include hg hp

/-! An instruction whose operation gives `r`. -/

theorem exec_swalloc_of {r : Word × State} (h : s.swallocOp (s.reg a) (s.reg b) = r) :
    exec (.swalloc g d a b) s = .next (r.2.wrote d r.1) := by
  rw [exec_swalloc hg hp, h]

theorem exec_swfree_of {r : Word × State} (h : s.swfreeOp (s.reg a) = r) :
    exec (.swfree g d a) s = .next (r.2.wrote d r.1) := by
  rw [exec_swfree hg hp, h]

omit hp in
theorem exec_swquota_of {r : Word} (h : s.swquotaOp (s.reg a) = r) : exec (.swquota g d a) s = .next (s.wrote d r) := by
  rw [exec_swquota hg, h]

variable {p units T : Nat} {pair : Bool}
  (hop : s.swallocOp (s.reg a) (s.reg b) = s.allocAnswer (s.allocOn p units T pair))
include hop

/-- The statuses of a `swalloc` that is answered by plane `p`. -/
theorem exec_swalloc_statuses :
    (¬ s.upAt (takenOn pair p) → exec (.swalloc g d a b) s = .next (s.wrote d 3)) ∧
    (s.upAt (takenOn pair p) → ¬ s.roomAt (takenOn pair p) units T → exec (.swalloc g d a b) s = .next (s.wrote d 1)) ∧
    (s.upAt (takenOn pair p) → s.roomAt (takenOn pair p) units T → (∀ base, ¬ s.freeAt (takenOn pair p) units base) →
      exec (.swalloc g d a b) s = .next (s.wrote d 2)) := by
  refine ⟨fun down => ?_, fun up full => ?_, fun up room noSpace => ?_⟩
  · exact exec_swalloc_of hg hp d a b (hop.trans (congrArg _ (State.allocOn_of_down down)))
  · exact exec_swalloc_of hg hp d a b (hop.trans (congrArg _ (State.allocOn_of_full up full)))
  · exact exec_swalloc_of hg hp d a b (hop.trans (congrArg _ (State.allocOn_of_noSpace up room noSpace)))

/-- The grant of a `swalloc` that is answered by plane `p`. -/
theorem exec_swalloc_granted (hlt : p < 18) (h : s.canGrant p units T pair) :
    ∃ x t, exec (.swalloc g d a b) s = .next (t.wrote d x.handle) ∧ s.Granted t x p units T pair := by
  obtain ⟨up, room, free⟩ := h
  obtain ⟨x, t, answer, granted⟩ := State.allocOn_of_free up room hlt free
  exact ⟨x, t, exec_swalloc_of hg hp d a b (hop.trans (congrArg _ answer)), granted⟩
end

/-- Settles O31. A refusal is one test of its operation. An attempt on a plane grants exactly where a range is free, since the
candidates of the search hold one whenever there is one; plane 31 comes to such an attempt on the plane that decides. -/
theorem switchAllocations : Obligations.SwitchAllocations := by
  unfold Obligations.SwitchAllocations
  refine ⟨?refusals, ?answers⟩
  case refusals =>
    intro s g d a b hg hpriv size flags p q tenant
    have alloc {r : Word × State} := exec_swalloc_of hg hpriv d a b (r := r)
    have free {r : Word × State} := exec_swfree_of hg hpriv d a (r := r)
    have quota {r : Word} := exec_swquota_of hg d a (r := r)
    refine ⟨fun hf => ?_, fun hf => ⟨?_, ?_, ?_, ?_, ?_, ?_, ?_, ?_, ?_, ?_, ?_, ?_⟩⟩
    · obtain ⟨allocs, frees, quotas⟩ := State.untrained_status hf (s.reg a) (s.reg b)
      exact ⟨alloc allocs, free frees, quota quotas⟩
    · exact fun h => alloc (State.swallocOp_of_badFlags hf h)
    · exact fun h hp hany => alloc (State.swallocOp_of_badPlane hf h hp hany)
    · exact fun h hp bad => alloc (State.swallocOp_of_badSize hf h (.inl hp) bad)
    · exact fun h hp hpos hle ht => alloc (State.swallocOp_of_noTenant hf h (.inl hp) hpos hle ht)
    · exact fun hp => free (State.swfreeOp_of_badPlane hf hp)
    · exact fun hp ht => free (State.swfreeOp_of_noTenant hf hp ht)
    · exact fun T hp ht hx => free (State.swfreeOp_of_stale hf hp ht hx)
    · exact fun h => quota (State.swquotaOp_of_badFlags hf h)
    · exact fun h hq => quota (State.swquotaOp_of_badPlane hf h hq)
    · exact fun h ht => quota (State.swquotaOp_of_noTenant hf h ht)
    · exact fun T h ht down => quota (State.swquotaOp_of_down hf h ht down)
    · exact fun T h ht hr hu => quota (State.swquotaOp_of_up hf h ht hr hu)
  case answers =>
    intro s g d a b T hg hpriv hf ht
    refine ⟨?allocates, ?frees⟩
    case allocates =>
      intro size units mirror planes up room free can grants fails order hpos hle hflags
      have answered (p : Nat) (hlt : p < 18)
          (hop : s.swallocOp (s.reg a) (s.reg b) = s.allocAnswer (s.allocOn p units T mirror)) :
          (can p → grants p) ∧ fails p := by
        refine ⟨fun hcan => ?_, exec_swalloc_statuses hg hpriv d a b hop⟩
        obtain ⟨x, t, e, granted⟩ := exec_swalloc_granted hg hpriv d a b hop hlt hcan
        exact ⟨_, e, x, granted.allocs, granted.plane, granted.free, granted.units, granted.tenant, granted.mirror,
          granted.state, granted.tag, granted.seqs, granted.lastGrant, State.core_run_wrote granted.core d x.handle,
          granted.mem, granted.batons⟩
      refine ⟨fun p hlt named => answered p hlt ?_, fun any => ?_⟩
      · subst named
        rw [State.swallocOp_of_tenant hf hflags (.inl hlt) hpos hle ht, State.attempt, if_neg (by omega)]
      · have searched : s.swallocOp (s.reg a) (s.reg b) = s.allocAnswer (s.tryEach units T mirror order 3) := by
          rw [State.swallocOp_of_tenant hf hflags (.inr any) hpos hle ht, State.attempt, if_pos any, State.allocAny_eq]
          rfl
        refine ⟨fun l p r split refused hcan => ?_, fun p last refused => ?_, fun empty => ?_⟩
        · have tried : p ∈ order := by simp [split]
          have hlt := State.lt_of_mem_searchOrder tried
          rw [split, State.tryEach_append refused hcan hlt] at searched
          exact (answered p hlt searched).1 hcan
        · have hlt := State.lt_of_mem_searchOrder (List.mem_of_getLast? last)
          rw [State.tryEach_of_none refused last] at searched
          exact (answered p hlt searched).2
        · rw [empty] at searched
          exact exec_swalloc_of hg hpriv d a b searched
    case frees =>
      intro x found p copies down hlt hwf
      have free {r : Word × State} := exec_swfree_of hg hpriv d a (r := r)
      have up (h : ¬ down) : s.upAt (x.needs p) := not_not.1 (mt (State.not_upAt_iff _).1 h)
      refine ⟨fun h => ?_, fun h lost => ?_, fun h kept other => ?_, fun h kept own => ?_⟩
      · exact free (State.swfreeOp_of_down hf hlt ht found ((State.not_upAt_iff _).2 h))
      · exact free (State.swfreeOp_of_lost hf hlt ht found (up h) lost)
      · exact free (State.swfreeOp_of_notOwner hf hlt ht found (up h) kept other)
      · intro inside zeroed
        have bytes (y : Nat) : (s.freed (s.reg a) x).mem.get y = if ∃ k ∈ zeroed, x.inside k y then 0 else s.mem.get y :=
          State.zeroAt_mem_get x zeroed hwf y
        refine ⟨_, free (State.swfreeOp_of_owner hf hlt ht found (up h) kept own), ?_, ?_, fun k hk y hy => ?_,
          fun y hy => ?_⟩
        · exact congrArg (List.filter _) (State.zeroAt_allocs s x zeroed)
        · exact State.core_run_wrote (State.zeroAt_core s x zeroed) d 0
        · exact (bytes y).trans (if_pos ⟨k, hk, hy⟩)
        · exact (bytes y).trans (if_neg (fun ⟨k, hk, hin⟩ => hy k hk hin))

end Sys2Proof.Machine
end

section
/-! SUPPORT. An access that another module sends with more bytes of data than its length: the case that refutes the steps of the
switch planes (O32). -/

namespace Sys2Proof.Machine

/-- A request that ends in the granule in which it begins is served whole, with as many bytes of data as its length says (R87). -/
theorem cutRequest_of_one_granule {r : SwitchReq} (hpos : 0 < r.len) (hend : r.offset % 64 + r.len ≤ 64) (n : Nat) :
    cutRequest (n + 2) r = [{ r with data := r.data.take r.len }] := by
  have whole : min r.len (64 - r.offset % 64) = r.len := by omega
  simp [cutRequest, whole, hpos.ne']

/-- An access of one granule that another module sends to a plane is one request there. -/
theorem exec_switchAccess_of_one_granule {s : State} {r : SwitchReq} (hp : r.plane < 18) (hpos : 0 < r.len)
    (hend : r.offset % 64 + r.len ≤ 64) :
    exec (.switchAccess r) s = .next (s.switchServe { r with data := r.data.take r.len }) := by
  change Host.Outcome.next (if 18 ≤ r.plane then s else (cutRequest (r.len / 64 + 2) r).foldl State.switchServe s) = _
  rw [if_neg (by omega), cutRequest_of_one_granule hpos hend]
  rfl

/-- A primary without locks sends an access on to the partner that serves the allocation (R92). -/
theorem State.switchServe_of_left {s : State} {r : SwitchReq} {x : Alloc} (hl : (s.plane r.plane).locks = [])
    (hs : s.servedHere r = some x) (hx : x.left = true) : s.switchServe r = s.push (.failoverAccess r) := by
  simp [State.switchServe, State.endMerge, State.serveOne, hl, hs, hx]

/-- An allocation on planes 0 and 1 that the partner has come to serve. -/
def servedByPartner : Alloc where
  plane := 0
  tag := 0
  base := 0
  units := 1
  aseq := 0
  tenant := 0
  mirror := true
  state := .partnerOnly
  left := true
  waits := none

/-- The module after reset, but for that allocation. -/
def leftState : State := { State.reset with allocs := [servedByPartner] }

/-- A store of one byte that brings two. -/
def overlongStore : SwitchReq where
  plane := 0
  tag := 0
  offset := 0
  tenant := 0
  key := none
  write := true
  data := [1, 2]
  len := 1
  atomic := none

/-- Refutes O32: an access to an allocation that the partner serves is said to go to the partner as it came. A store that brings
more bytes of data than its length is cut to its length before it is served, and goes on so. -/
theorem not_switchPlaneSteps : ¬ Obligations.SwitchPlaneSteps := by
  unfold Obligations.SwitchPlaneSteps
  intro h
  obtain ⟨accesses, -⟩ := h
  obtain ⟨-, -, primary, -⟩ := accesses leftState overlongStore servedByPartner (by decide) (by decide) (by decide) rfl
  obtain ⟨-, goesOn, -⟩ := primary rfl rfl rfl rfl
  have claimed := goesOn rfl rfl
  rw [exec_switchAccess_of_one_granule (by decide) (by decide) (by decide),
    State.switchServe_of_left (x := servedByPartner) rfl rfl rfl] at claimed
  have agendas : [Event.failoverAccess { overlongStore with data := [1] }] = [.failoverAccess overlongStore] := by
    injection claimed with states
    exact congrArg State.agenda states
  exact absurd agendas (by decide)

end Sys2Proof.Machine
end

section
/-! SUPPORT. What a splice leaves of memory, and what the shared operations on contexts do where a context has its place
(spec/06 R170, R171): the steps of the pacer rest on them. -/

namespace Sys2Proof.Machine

/-! ## Bytes outside a splice -/

/-- In canonical form, what is listed is what does not read as an unlisted byte. -/
theorem Memory.mem_iff_get {lo : Nat} {m : Memory} (h : Memory.wfFrom lo m = true) (x : Nat) (b : Byte) :
    (x, b) ∈ m ↔ m.get x = b ∧ b ≠ Memory.unlisted := by
  induction m generalizing lo with
  | nil =>
    simp only [List.not_mem_nil, get_nil, false_iff]
    rintro ⟨rfl, hb⟩
    exact hb rfl
  | cons c m ih =>
    obtain ⟨-, hc, hm⟩ := (wfFrom_cons ..).1 h
    rw [List.mem_cons, ih hm, Memory.get]
    rcases Nat.lt_trichotomy x c.1 with hx | hx | hx
    · have below := get_below hm (a := x) (by omega)
      grind
    · have below := get_below hm (a := x) (by omega)
      grind
    · grind

theorem Memory.get_splice_outside {m : Memory} (h : m.wf = true) {a x : Nat} {bs : List Byte} (hx : x < a ∨ a + bs.length ≤ x) :
    (m.splice a bs).get x = m.get x := by
  have same (b : Byte) : (x, b) ∈ m.splice a bs ↔ (x, b) ∈ m := by
    have unlisted : (x, b) ∉ Memory.listing a bs := fun hb => by
      have hi := (wfFrom_listing a bs).2 _ hb
      have := ((mem_iff_get (wfFrom_listing a bs).1 x b).1 hb)
      have := get_below (wfFrom_listing a bs).1 (a := x)
      grind
    simp only [Memory.splice, List.mem_append, List.mem_filter, unlisted, or_false, decide_eq_true_eq]
    tauto
  have listed (b : Byte) := (mem_iff_get (wf_splice a bs h) x b).symm.trans ((same b).trans (mem_iff_get h x b))
  by_cases hb : m.get x = Memory.unlisted
  · by_contra hne
    exact hne (((listed _).1 ⟨rfl, fun e => hne (e.trans hb.symm)⟩).1.symm)
  · exact ((listed _).2 ⟨rfl, hb⟩).1

/-! ## Steps of the core in focus -/

/-- A step of the core in focus that leaves it in focus. -/
theorem State.onCore_self {s t : State} {f : State → State} (e : f s = t) (hid : t.core.id = s.core.id) :
    s.onCore s.core.id f = t := by
  simp [State.onCore, State.focus, e, hid]


/-! ## A context that the call room takes (R165, R170) -/

/-- No context moves where there is room already. -/
theorem Core.placeContext_of_fits {c : Core} {k : Coro} (h : c.roomFits k.blocks = true) :
    c.placeContext k = some { c with coros := c.coros ++ [{ k with place := .callRoom }] } := by
  have stays : Core.makeRoom c.coros.length c.inRoom c k.blocks = some c := by
    cases c.coros.length <;> simp [Core.makeRoom, h]
  simp [Core.placeContext, stays]

/-- Nothing is written where every context in the spill region lay there before. -/
theorem State.writeSpills_of_none_new {s : State} {old : List Coro}
    (h : ∀ k ∈ s.core.coros, k.place = .spill → k ∈ old) : s.writeSpills old = s := by
  have none_new : s.core.coros.filter (fun k =>
      k.place == .spill && !old.any (fun x => x.cnum == k.cnum && x.inc == k.inc && x.place == .spill)) = [] := by
    simp only [List.filter_eq_nil_iff, Bool.and_eq_true, beq_iff_eq, Bool.not_eq_true', List.any_eq_false, not_and, not_forall]
    exact fun k hk spilled => ⟨k, h k hk spilled, by simp [spilled]⟩
  simp [State.writeSpills, none_new]

/-- The register files without their coroutine, where no message handler runs. -/
theorem Core.vacate_of_no_slot {c : Core} (h : c.slot = none) :
    c.vacate = { c with run := Coro.blank, live := .idle, pxLast := none, cut := none, drain := none } := by
  simp [Core.vacate, Core.modCurrent, Core.setLiveness, h]

/-- The saved context of `k`, which waits for nothing, in the call room. -/
def State.savedAs (s : State) (k : Coro) (st : CState) : Coro :=
  { k with state := st, convoy := none, since := s.stamp, lastRun := s.stamp, place := .callRoom }

/-- A save of a coroutine that waits for nothing and has no strip open: its context joins those of the core, which decides
what runs next. -/
theorem State.saveContext_of_fits {s : State} {k : Coro} (hslot : s.core.slot = none) (hflight : k.flight = none)
    (hstrip : k.strip = none) (fits : s.core.roomFits k.blocks = true) (st : CState) (why : HeldWhy) :
    s.saveContext k st why = State.askPacer { s with
      stamp := s.stamp + 1
      core := { s.core with
        run := Coro.blank, live := .idle, pxLast := none, cut := none, drain := none
        coros := s.core.coros ++ [s.savedAs k st] } } := by
  have settled : k.settle = k := by simp [Coro.settle, hflight]
  have shown : k.showStrip = k := by simp [Coro.showStrip, hstrip]
  have placed := Core.placeContext_of_fits (c := { s.core with pxLast := none, cut := none, drain := none })
    (k := s.savedAs k st) fits
  unfold State.saveContext
  rw [settled, shown, hflight]
  change (match Core.placeContext { s.core with pxLast := none, cut := none, drain := none } (s.savedAs k st) with
    | some c => (State.writeSpills { s with stamp := s.stamp + 1, core := c.vacate } s.core.coros).askPacer
    | none => _) = _
  rw [placed]
  dsimp only
  rw [Core.vacate_of_no_slot (by exact hslot), State.writeSpills_of_none_new]
  · rfl
  · intro x hx spilled
    rcases List.mem_append.1 hx with hx | hx
    · exact hx
    · rw [List.mem_singleton.1 hx] at spilled
      cases spilled

/-! ## Pre-emption (R371, R372) -/

/-- A stop moves the program counter to the convoy's first member, and where its members stop. -/
theorem Coro.atTrap_eq (c : Coro) : c.atTrap false = { c with pc := c.trapPc, vstart := (c.atTrap false).vstart } := by
  rcases c with ⟨⟩
  unfold Coro.atTrap Coro.trapPc
  dsimp only
  split <;> rfl

/-- The context of the coroutine that runs is saved in `t`: Ready, where it stopped, with every register as it was; no byte of
memory has changed, and the core decides what runs next. -/
def State.Preempted (s t : State) : Prop :=
  t.core.live = .idle ∧ t.mem = s.mem ∧ Event.pacerDecision s.core.id ∈ t.agenda ∧
    ∃ c ∈ t.core.coros, c.cnum = s.core.run.cnum ∧ c.state = .ready ∧ c.pc = s.core.run.trapPc ∧ c.s = s.core.run.s ∧
      c.g = s.core.run.g ∧ c.v = s.core.run.v ∧ c.m = s.core.run.m ∧ c.acc = s.core.run.acc

theorem State.preempt_of_fits {s : State} (ho : s.ordinary) (hd : s.core.run.deferred = none)
    (fits : s.core.roomFits (s.core.run.fullContext s.core.lanes).blocks = true) :
    s.Preempted s.preempt ∧ s.preempt.core.id = s.core.id := by
  obtain ⟨running, hslot, hpx, hstrip, -, hflight, -⟩ := ho
  have saved := State.saveContext_of_fits (k := (s.core.run.atTrap false).fullContext s.core.lanes) hslot
    (by rw [Coro.atTrap_eq]; exact hflight) (by rw [Coro.atTrap_eq]; exact hstrip) (by rw [Coro.atTrap_eq]; exact fits)
    .ready .preempt
  have preempted : s.preempt =
      (s.saveContext ((s.core.run.atTrap false).fullContext s.core.lanes) .ready .preempt).continueHeld := by
    simp [State.preempt, hslot, running, hd, hpx]
  rw [preempted, saved]
  refine ⟨⟨rfl, rfl, by simp [State.continueHeld, State.askPacer], _, List.mem_append_right _ (List.mem_singleton_self _), ?_⟩, rfl⟩
  rw [Coro.atTrap_eq]
  exact ⟨rfl, rfl, rfl, rfl, rfl, rfl, rfl, rfl⟩

section
variable {s : State}

theorem State.not_inMidst_of_unhindered (h : s.unhindered) : s.core.run.inMidst = false := by
  simp [Coro.inMidst, h.1]

/-- A request that cannot be taken comes again (log 48). -/
theorem State.requestPreempt_again (h : s.core.slot.isSome = true ∨ s.core.uncut = true ∨ s.core.drain.isSome = true)
    (why : PreemptWhy) (cut : List Nat) (again : Event) : s.requestPreempt why cut again = s.push again := by
  have busy : (s.core.slot.isSome || s.core.uncut || s.core.drain.isSome) = true := by simpa [or_assoc] using h
  rw [State.requestPreempt, if_pos busy]

/-- One without places stops the coroutine before its next instruction. -/
theorem State.requestPreempt_at_once (ho : s.ordinary) (hu : s.core.uncut = false) (why : PreemptWhy) (again : Event) :
    s.requestPreempt why [] again = s.preemptFor why := by
  obtain ⟨running, hslot, -, -, hdrain, free⟩ := ho
  simp [State.requestPreempt, hslot, hu, hdrain, running, State.not_inMidst_of_unhindered free]

/-- One with places lets the units go on to them (log 12). -/
theorem State.requestPreempt_at_places (ho : s.ordinary) (hu : s.core.uncut = false) (hc : s.core.run.convoy = none)
    {cut : List Nat} (places : cut ≠ []) (why : PreemptWhy) (again : Event) :
    s.requestPreempt why cut again = { s with core := { s.core with cut := some (cut, why) } } := by
  obtain ⟨running, hslot, -, -, hdrain, -⟩ := ho
  simp [State.requestPreempt, hslot, hu, hdrain, running, places, hc, State.modCore]

theorem State.preemptFor_pacer_of_posted (ho : s.ordinary) (hp : s.posted = true) :
    s.preemptFor .pacer = { s with core := { s.core with drain := some (.preempt .pacer) } } := by
  obtain ⟨running, hslot, -⟩ := ho
  simp [State.preemptFor, State.preemptDrained, running, hslot, hp, State.modCore]

/-- Without posted stores a request of the pacer is carried out, and one of the starter while its coroutine is still to run. -/
theorem State.preemptFor_of_not_posted (hp : s.posted = false) {why : PreemptWhy}
    (h : why = .pacer ∨ why = .starter ∧ s.core.first ≠ none) : s.preemptFor why = s.preempt := by
  have drained : s.preemptDrained why = s.preempt := by simp [State.preemptDrained, hp]
  rcases h with rfl | ⟨rfl, hf⟩
  · exact drained
  · rw [State.preemptFor, if_pos (Option.isSome_iff_ne_none.2 hf), drained]

/-- The pacer pre-empts for a Ready coroutine of at least the running one's priority (R176). -/
theorem Core.pacerWants_iff {c : Core} (running : c.live = .running) (hslot : c.slot = none) :
    c.pacerWants = true ↔ ∃ k ∈ c.coros, k.state = .ready ∧ k.pending = [] ∧ c.run.prio.toNat ≤ k.effPrio := by
  simp [Core.pacerWants, Core.current, hslot, running, Coro.selectable, and_assoc]

end

/-! ## The requests for pre-emption -/

section
variable {s : State}

theorem exec_preemption (why : StopAt) {t : State} (e : s.requestPreempt why.why why.cut (.preemption s.core.id why) = t)
    (hid : t.core.id = s.core.id) : exec (.preemption s.core.id why) s = .next t :=
  congrArg Host.Outcome.next
    (State.onCore_self (f := fun u => u.requestPreempt why.why why.cut (.preemption s.core.id why)) e hid)

theorem exec_pacerPreemption (cut : List Nat) {t : State}
    (e : (if s.core.pacerWants then s.requestPreempt .pacer cut (.pacerPreemption ⟨s.core.id, cut⟩) else s) = t)
    (hid : t.core.id = s.core.id) : exec (.pacerPreemption ⟨s.core.id, cut⟩) s = .next t :=
  congrArg Host.Outcome.next (State.onCore_self (f := fun u =>
    if u.core.pacerWants then u.requestPreempt .pacer cut (.pacerPreemption ⟨s.core.id, cut⟩) else u) e hid)

/-- A coroutine whose context fits is pre-empted at once. -/
theorem exec_preemption_saves (ho : s.ordinary) (hp : s.posted = false) (hu : s.core.uncut = false)
    (hd : s.core.run.deferred = none) (fits : s.core.roomFits (s.core.run.fullContext s.core.lanes).blocks = true)
    {why : PreemptWhy} (h : why = .pacer ∨ why = .starter ∧ s.core.first ≠ none) :
    Goes (exec (.preemption s.core.id ⟨why, []⟩) s) s.Preempted := by
  obtain ⟨saved, hid⟩ := State.preempt_of_fits ho hd fits
  exact ⟨_, exec_preemption _ ((State.requestPreempt_at_once ho hu ..).trans (State.preemptFor_of_not_posted hp h)) hid, saved⟩

theorem exec_pacerPreemption_saves (ho : s.ordinary) (hp : s.posted = false) (hu : s.core.uncut = false)
    (hd : s.core.run.deferred = none) (fits : s.core.roomFits (s.core.run.fullContext s.core.lanes).blocks = true)
    (wants : s.core.pacerWants = true) : Goes (exec (.pacerPreemption ⟨s.core.id, []⟩) s) s.Preempted := by
  obtain ⟨saved, hid⟩ := State.preempt_of_fits ho hd fits
  refine ⟨_, exec_pacerPreemption _ ?_ hid, saved⟩
  rw [if_pos wants, State.requestPreempt_at_once ho hu, State.preemptFor_of_not_posted hp (.inl rfl)]

end

end Sys2Proof.Machine
end

section
/-! SUPPORT. A decision of the pacer, and the moves of contexts between the call room and the spill region (spec/06 R171, R172,
R174, R175); what the pacer's steps do is assembled from them (O44). -/

namespace Sys2Proof.Machine

/-! ## The choice from a list -/

/-- The coroutine that is left of a list when `pick` decides between each and what is left of those after it. -/
def pickFrom (pick : Coro → Coro → Coro) : List Coro → Option Coro
  | [] => none
  | c :: cs => match pickFrom pick cs with
    | none => some c
    | some d => some (pick c d)

section
variable {pick : Coro → Coro → Coro} (one : ∀ c d, pick c d = c ∨ pick c d = d)
include one

theorem pickFrom_mem {l : List Coro} {d : Coro} (h : pickFrom pick l = some d) : d ∈ l := by
  induction l generalizing d with
  | nil => cases h
  | cons c cs ih =>
    cases e : pickFrom pick cs with
    | none => simp_all [pickFrom]
    | some x =>
      obtain rfl : pick c x = d := by simpa [pickFrom, e] using h
      rcases one c x with hc | hx
      · rw [hc]
        exact List.mem_cons_self
      · rw [hx]
        exact List.mem_cons_of_mem _ (ih e)

/-- The coroutine that wins against every other is left. -/
theorem pickFrom_eq {l : List Coro} {k : Coro} (hk : k ∈ l) (wins : ∀ x ∈ l, x ≠ k → pick k x = k ∧ pick x k = k) :
    pickFrom pick l = some k := by
  have wins' (x : Coro) (hx : x ∈ l) : pick k x = k ∧ pick x k = k := by
    by_cases e : x = k
    · simpa [e] using one k k
    · exact wins x hx e
  clear wins
  induction l with
  | nil => cases hk
  | cons c cs ih =>
    rw [pickFrom]
    by_cases later : k ∈ cs
    · simp [ih later (fun x hx => wins' x (List.mem_cons_of_mem _ hx)), (wins' c List.mem_cons_self).2]
    · obtain rfl : k = c := by simpa [later] using hk
      cases e : pickFrom pick cs with
      | none => rfl
      | some d => simp [(wins' d (List.mem_cons_of_mem _ (pickFrom_mem one e))).1]

end

/-! ## The order of selection (R174) -/

theorem preferred_iff (a b : Coro) : preferred a b = true ↔ b.effPrio < a.effPrio ∨ (b.effPrio = a.effPrio ∧
    (a.lastRun < b.lastRun ∨ (a.lastRun = b.lastRun ∧ a.cnum.toNat < b.cnum.toNat))) := by
  unfold preferred
  split_ifs <;> simp_all
  all_goals omega

theorem preferred_asymm {a b : Coro} (h : preferred a b = true) : preferred b a = false := by
  rw [preferred_iff] at h
  rw [Bool.eq_false_iff, ne_eq, preferred_iff]
  omega

theorem bestCoro_eq_pickFrom (l : List Coro) : bestCoro l = pickFrom (fun c d => if preferred d c then d else c) l := by
  induction l with
  | nil => rfl
  | cons c cs ih => cases e : bestCoro cs <;> simp [bestCoro, pickFrom, ← ih, e]

/-- The coroutine that is preferred to every other is the best. -/
theorem bestCoro_eq {l : List Coro} {k : Coro} (hk : k ∈ l) (h : ∀ x ∈ l, x ≠ k → preferred k x = true) :
    bestCoro l = some k := by
  rw [bestCoro_eq_pickFrom]
  exact pickFrom_eq (fun c d => (ite_eq_or_eq _ d c).symm) hk
    (fun x hx hne => by simp [h x hx hne, preferred_asymm (h x hx hne)])

/-- Where the starter has placed none first, a decision selects it among the selectable ones. -/
theorem Core.choice_eq {c : Core} (hf : c.first = none) {k : Coro} (hk : k ∈ c.coros) (sel : k.selectable = true)
    (h : ∀ x ∈ c.coros, x.selectable = true → x ≠ k → preferred k x = true) : c.choice c.coros = some k := by
  have best : bestCoro (c.coros.filter Coro.selectable) = some k :=
    bestCoro_eq (List.mem_filter.2 ⟨hk, sel⟩) (fun x hx => h x (List.mem_filter.1 hx).1 (List.mem_filter.1 hx).2)
  have nobody : (c.coros.filter Coro.selectable).find? (fun k => some k.cnum.toNat == c.first) = none := by simp [hf]
  simp only [Core.choice]
  rw [nobody]
  exact best

/-! ## A decision (R174, R175) -/

@[simp] theorem State.acquire_core (s : State) (n : Nat) : (s.acquire n).core = s.core := by
  unfold State.acquire
  split <;> rfl

/-- The coroutine that a restore puts in the register files. -/
def State.resumed (s : State) (k : Coro) : Coro :=
  { k with state := .running, place := .files, passed := 0, lastRun := s.stamp, spillAt := [],
           armed := if k.woken then none else k.armed, woken := false }

theorem State.restore_core_of_no_slot {s : State} (hslot : s.core.slot = none) (k : Coro) : (s.restore k).core =
    { s.core with run := s.resumed k, live := .running, coros := s.core.coros.filter (·.cnum != k.cnum) } := by
  simp [State.restore, Core.modCurrent, Core.setLiveness, hslot, State.resumed]

/-- A restore that meets no cause. -/
theorem State.restoreTrap_eq_none {s : State} {k : Coro} (bad : k.badCtx = false) (hd : k.deferred = none)
    (lost : k.lostVec = false) (hobj : s.inSomeObject k.pc = true) : s.restoreTrap k = none := by
  simp [State.restoreTrap, bad, hd, lost, hobj]

theorem State.pace_of_choice {s : State} (idle : s.core.live = .idle) (hslot : s.core.slot = none)
    (serves : s.core.inService = true) {k : Coro} (hc : s.core.choice s.core.coros = some k)
    (goes : (s.modCore (·.decided k.cnum)).restoreTrap k = none) :
    s.pace.mem = s.mem ∧ s.pace.core.id = s.core.id ∧ s.pace.core.live = .running ∧ s.pace.core.run = s.resumed k ∧
      s.pace.core.coros = (s.core.decided k.cnum).coros.filter (·.cnum != k.cnum) := by
  have paced : s.pace = ((((s.modCore (·.decided k.cnum)).restore k).acquire
      ((s.modCore (·.decided k.cnum)).resumeScope k)).touch k.asid).askUnloads := by
    simp [State.pace, Core.liveness, hslot, idle, serves, hc, goes]
  rw [paced]
  refine ⟨by simp, ?_⟩
  simp only [State.askUnloads, State.touch, State.modCore_core, State.acquire_core]
  rw [State.restore_core_of_no_slot (by exact hslot)]
  exact ⟨rfl, rfl, rfl, rfl⟩

theorem State.pace_of_none_ready {s : State} (h : ∀ x ∈ s.core.coros, x.state ≠ .ready) : s.pace = s := by
  have none_selectable : s.core.coros.filter Coro.selectable = [] := by
    simp only [List.filter_eq_nil_iff, Coro.selectable, Bool.and_eq_true, beq_iff_eq, not_and]
    exact fun x hx ready => absurd ready (h x hx)
  simp [State.pace, Core.choice, none_selectable, bestCoro]

/-- A coroutine that is not selected stays, and a Ready one has been passed over once more. -/
theorem Core.mem_decided {c : Core} {cnum : BitVec 10} {x : Coro} (hx : x ∈ c.coros) (hn : x.cnum ≠ cnum) :
    { x with passed := if x.state = .ready then x.passed + 1 else x.passed } ∈
      (c.decided cnum).coros.filter (·.cnum != cnum) := by
  refine List.mem_filter.2 ⟨List.mem_map.2 ⟨x, hx, ?_⟩, by simpa using hn⟩
  by_cases ready : x.state = .ready <;> simp [hn, ready]

/-! ## The order of spills (R171) -/

theorem spillsBefore_asymm {a b : Coro} (h : spillsBefore a b = true) : spillsBefore b a = false := by
  unfold spillsBefore at *
  grind

theorem firstSpill_eq_pickFrom (l : List Coro) : firstSpill l = pickFrom (fun c d => if spillsBefore c d then c else d) l := by
  induction l with
  | nil => rfl
  | cons c cs ih => cases e : firstSpill cs <;> simp [firstSpill, pickFrom, ← ih, e]

theorem firstSpill_eq {l : List Coro} {k : Coro} (hk : k ∈ l) (h : ∀ x ∈ l, x ≠ k → spillsBefore k x = true) :
    firstSpill l = some k := by
  rw [firstSpill_eq_pickFrom]
  exact pickFrom_eq (fun c d => ite_eq_or_eq _ c d) hk
    (fun x hx hne => by simp [h x hx hne, spillsBefore_asymm (h x hx hne)])

/-! ## The blocks of the spill region (R67) -/

theorem length_freeBlocks_le (used : List Nat) (fuel n i : Nat) : (freeBlocks used fuel n i).length ≤ n := by
  induction fuel generalizing n i with
  | zero => simp [freeBlocks]
  | succ fuel ih =>
    cases n with
    | zero => simp [freeBlocks]
    | succ n =>
      rw [freeBlocks]
      split
      · exact ih (n + 1) (i + 1)
      · exact Nat.succ_le_succ (ih n (i + 1))

theorem mem_freeBlocks {used : List Nat} {fuel n i b : Nat} (h : b ∈ freeBlocks used fuel n i) : b < i + fuel ∧ b ∉ used := by
  induction fuel generalizing n i with
  | zero => simp [freeBlocks] at h
  | succ fuel ih =>
    cases n with
    | zero => simp [freeBlocks] at h
    | succ n =>
      rw [freeBlocks] at h
      split at h
      · have := ih h
        exact ⟨by omega, this.2⟩
      · next free =>
        rcases List.mem_cons.1 h with rfl | h
        · exact ⟨by omega, by simpa using free⟩
        · have := ih h
          exact ⟨by omega, this.2⟩

/-- A context that moves to the spill region takes blocks there that no context has. -/
theorem Core.intoSpill_spillAt (c : Core) (k : Coro) : (c.intoSpill k).spillAt.length ≤ k.blocks ∧
    ∀ b ∈ (c.intoSpill k).spillAt, b < 4096 ∧ ∀ x ∈ c.coros, b ∉ x.spillAt := by
  refine ⟨length_freeBlocks_le _ _ _ _, fun b hb => ?_⟩
  obtain ⟨inside, free⟩ := mem_freeBlocks hb
  exact ⟨by omega, fun x hx hbx => free (List.mem_flatMap.2 ⟨x, hx, hbx⟩)⟩

/-- `t` is `s` after contexts have been written into the spill region at `base`: no core has changed, and no byte outside. -/
def State.SpillWritten (base : Nat) (s t : State) : Prop :=
  t.core = s.core ∧ t.mem.wf = true ∧ ∀ a, (a < base ∨ base + 2 ^ 21 ≤ a) → t.mem.get a = s.mem.get a

theorem State.writeSpill_written {s t : State} {base : Nat} (w : State.SpillWritten base s t) {k : Coro}
    (hk : ∀ b ∈ k.spillAt, b < 4096) : State.SpillWritten base s (t.writeSpill base k) := by
  unfold State.writeSpill
  refine List.foldlRecOn (motive := State.SpillWritten base s) _ _ w (fun u hu b hb => ?_)
  obtain ⟨score, hwf, outside⟩ := hu
  refine ⟨score, Memory.wf_splice _ _ hwf, fun a ha => ?_⟩
  have inside := hk b hb
  rw [← outside a ha]
  refine Memory.get_splice_outside hwf ?_
  rw [List.length_map, List.length_range]
  omega

theorem State.writeSpills_written {s : State} (hwf : s.mem.wf = true) {old : List Coro}
    (h : ∀ k ∈ s.core.coros, k.place = .spill → k ∈ old ∨ ∀ b ∈ k.spillAt, b < 4096) :
    State.SpillWritten (s.core.spillBase.toNat * 2 ^ 21) s (s.writeSpills old) := by
  refine List.foldlRecOn (motive := State.SpillWritten _ s) _ _ ⟨rfl, hwf, fun _ _ => rfl⟩ (fun t ht k hk => ?_)
  obtain ⟨hk, moved⟩ := List.mem_filter.1 hk
  obtain ⟨spilled, new⟩ : k.place = .spill ∧ k ∉ old := by
    simp only [Bool.and_eq_true, beq_iff_eq, Bool.not_eq_true', List.any_eq_false, not_and] at moved
    exact ⟨moved.1, fun hold => moved.2 k hold ⟨rfl, rfl⟩ moved.1⟩
  exact State.writeSpill_written ht ((h k hk spilled).resolve_left new)

/-! ## Spills and returns (R171, R172) -/

section
variable {c : Core}

theorem Core.mem_movePlace_of_ne {n : BitVec 10} {p : Place} {x : Coro} (hx : x ∈ c.coros) (hn : x.cnum ≠ n) :
    x ∈ (c.movePlace n p).coros :=
  List.mem_map.2 ⟨x, hx, by simp [hn]⟩

theorem Core.intoSpill_mem_movePlace {k : Coro} (hk : k ∈ c.coros) : c.intoSpill k ∈ (c.movePlace k.cnum .spill).coros :=
  List.mem_map.2 ⟨k, hk, by simp⟩

theorem Core.intoRoom_mem_movePlace {k : Coro} (hk : k ∈ c.coros) :
    { k with place := .callRoom, spillAt := [] } ∈ (c.movePlace k.cnum .callRoom).coros :=
  List.mem_map.2 ⟨k, hk, by simp⟩

/-- What lies in the spill region after a move lay there before, or has the blocks of the move. -/
theorem Core.movePlace_spilled {n : BitVec 10} {y : Coro} (hy : y ∈ (c.movePlace n .spill).coros) :
    y ∈ c.coros ∨ ∀ b ∈ y.spillAt, b < 4096 := by
  obtain ⟨x, hx, rfl⟩ := List.mem_map.1 hy
  by_cases hn : x.cnum = n
  · right
    simpa [hn] using fun b hb => ((c.intoSpill_spillAt x).2 b hb).1
  · left
    simpa [hn] using hx

theorem Core.lacksRoom_eq (hslot : c.slot = none) (busy : c.live ≠ .idle) :
    c.lacksRoom = !c.roomFits (c.run.fullContext c.lanes).blocks := by
  simp [Core.lacksRoom, Core.current, hslot, busy]

theorem Core.spill_eq_self (cnum : Nat) (h : c.lacksRoom = false) : c.spill cnum = c := by
  unfold Core.spill
  split
  · rfl
  · simp [h]

/-- The context that R171 puts first among those of the call room for which the spill region has blocks. -/
theorem Core.spill_eq {k : Coro} (lacks : c.lacksRoom = true) (hk : k ∈ c.coros) (hp : k.place = .callRoom)
    (fits : c.spillFits k.blocks = true)
    (h : ∀ x ∈ c.coros, x ≠ k → x.place = .callRoom → c.spillFits x.blocks = true → spillsBefore k x = true) :
    c.spill k.cnum.toNat = c.movePlace k.cnum .spill := by
  have hfirst : firstSpill (c.inRoom.filter (fun k => c.spillFits k.blocks)) = some k := by
    refine firstSpill_eq (by simp [Core.inRoom, hk, hp, fits]) (fun x hx hne => ?_)
    simp only [Core.inRoom, List.mem_filter, beq_iff_eq] at hx
    exact h x hx.1.1 hne hx.1.2 hx.2
  simp [Core.spill, hfirst, lacks]

theorem Core.unspill_eq {k : Coro} (hk : k ∈ c.coros) (alone : ∀ x ∈ c.coros, x.cnum = k.cnum → x = k)
    (hp : k.place = .spill) (ready : k.state = .ready) (fits : c.roomFits k.blocks = true) :
    c.unspill k.cnum.toNat = c.movePlace k.cnum .callRoom := by
  have found : c.inSpill.find? (fun x => x.cnum.toNat == k.cnum.toNat && x.state == .ready) = some k := by
    obtain ⟨x, e⟩ : ∃ x, c.inSpill.find? (fun x => x.cnum.toNat == k.cnum.toNat && x.state == .ready) = some x :=
      Option.isSome_iff_exists.1 (List.find?_isSome.2 ⟨k, by simp [Core.inSpill, hk, hp], by simp [ready]⟩)
    have same : x.cnum = k.cnum := BitVec.eq_of_toNat_eq (by have := List.find?_some e; simp_all)
    rw [e, alone x (List.mem_of_mem_filter (List.mem_of_find?_eq_some e)) same]
  simp [Core.unspill, found, fits]

end

/-! ## The steps -/

section
variable {s : State}

theorem exec_pacerDecision {t : State} (e : s.pace = t) (hid : t.core.id = s.core.id) :
    exec (.pacerDecision s.core.id) s = .next t :=
  congrArg Host.Outcome.next (State.onCore_self (f := State.pace) e hid)

theorem exec_contextSpill (cnum : Nat) {t : State} (e : (s.modCore (·.spill cnum)).writeSpills s.core.coros = t)
    (hid : t.core.id = s.core.id) : exec (.contextSpill s.core.id cnum) s = .next t :=
  congrArg Host.Outcome.next
    (State.onCore_self (f := fun u => (u.modCore (·.spill cnum)).writeSpills u.core.coros) e hid)

theorem exec_contextReturn (cnum : Nat) {t : State} (e : s.modCore (·.unspill cnum) = t) (hid : t.core.id = s.core.id) :
    exec (.contextReturn s.core.id cnum) s = .next t :=
  congrArg Host.Outcome.next (State.onCore_self (f := (·.modCore (·.unspill cnum))) e hid)

/-- A decision runs the coroutine that is preferred to every other selectable one, and passes the other Ready ones over. -/
theorem exec_pacerDecision_runs {k : Coro} (idle : s.core.live = .idle) (hslot : s.core.slot = none)
    (hf : s.core.first = none) (hk : k ∈ s.core.coros) (alone : ∀ x ∈ s.core.coros, x.cnum = k.cnum → x = k)
    (sel : k.selectable = true) (best : ∀ x ∈ s.core.coros, x.selectable = true → x ≠ k → preferred k x = true)
    (goes : (s.modCore (·.decided k.cnum)).restoreTrap k = none) (serves : s.core.inService = true) :
    Goes (exec (.pacerDecision s.core.id) s) (fun t => t.core.live = .running ∧ t.mem = s.mem ∧ t.core.run = s.resumed k ∧
      (∀ x ∈ t.core.coros, x.cnum ≠ k.cnum) ∧ ∀ x ∈ s.core.coros, x ≠ k →
        { x with passed := if x.state = .ready then x.passed + 1 else x.passed } ∈ t.core.coros) := by
  obtain ⟨hmem, hid, hlive, hrun, hcoros⟩ := State.pace_of_choice idle hslot serves (Core.choice_eq hf hk sel best) goes
  refine ⟨_, exec_pacerDecision rfl hid, hlive, hmem, hrun, fun x hx => ?_, fun x hx hne => ?_⟩
  · rw [hcoros] at hx
    simpa using (List.mem_filter.1 hx).2
  · rw [hcoros]
    exact Core.mem_decided hx (fun e => hne (alone x hx e))

/-- Nothing moves where the core has room for the context of the coroutine that runs, or runs none. -/
theorem exec_contextSpill_with_room (cnum : Nat) (h : s.core.lacksRoom = false) :
    exec (.contextSpill s.core.id cnum) s = .next s := by
  have same : s.modCore (·.spill cnum) = s := by simp [State.modCore, Core.spill_eq_self cnum h]
  refine exec_contextSpill cnum ?_ rfl
  rw [same, State.writeSpills_of_none_new (fun _ hk _ => hk)]

/-- The first context of R171 moves to blocks of the spill region, and is written there. -/
theorem exec_contextSpill_moves {k : Coro} (lacks : s.core.lacksRoom = true) (hk : k ∈ s.core.coros)
    (alone : ∀ x ∈ s.core.coros, x.cnum = k.cnum → x = k) (hp : k.place = .callRoom)
    (fits : s.core.spillFits k.blocks = true)
    (order : ∀ x ∈ s.core.coros, x ≠ k → x.place = .callRoom → s.core.spillFits x.blocks = true → spillsBefore k x = true)
    (hwf : s.mem.wf = true) :
    Goes (exec (.contextSpill s.core.id k.cnum.toNat) s) (fun t => t.core = { s.core with coros := t.core.coros } ∧
      (∃ bs, { k with place := .spill, spillAt := bs } ∈ t.core.coros ∧ bs.length ≤ k.blocks ∧
        ∀ b ∈ bs, b < 4096 ∧ ∀ x ∈ s.core.coros, b ∉ x.spillAt) ∧
      (∀ x ∈ s.core.coros, x ≠ k → x ∈ t.core.coros) ∧
      ∀ a, (a < s.core.spillBase.toNat * 2 ^ 21 ∨ s.core.spillBase.toNat * 2 ^ 21 + 2 ^ 21 ≤ a) →
        t.mem.get a = s.mem.get a) := by
  have moved : s.modCore (·.spill k.cnum.toNat) = s.modCore (·.movePlace k.cnum .spill) := by
    simp [State.modCore, Core.spill_eq lacks hk hp fits order]
  obtain ⟨hcore, -, outside⟩ := State.writeSpills_written (s := s.modCore (·.movePlace k.cnum .spill)) hwf
    (old := s.core.coros) (fun x hx _ => Core.movePlace_spilled hx)
  refine ⟨_, exec_contextSpill _ (by rw [moved]) (by rw [hcore]; rfl), ?_⟩
  beta_reduce
  rw [hcore]
  exact ⟨rfl, ⟨_, Core.intoSpill_mem_movePlace hk, s.core.intoSpill_spillAt k⟩,
    fun x hx hne => Core.mem_movePlace_of_ne hx (fun e => hne (alone x hx e)), outside⟩

/-- A Ready context moves back where the call room takes it. -/
theorem exec_contextReturn_moves {k : Coro} (hk : k ∈ s.core.coros) (alone : ∀ x ∈ s.core.coros, x.cnum = k.cnum → x = k)
    (hp : k.place = .spill) (ready : k.state = .ready) (fits : s.core.roomFits k.blocks = true) :
    Goes (exec (.contextReturn s.core.id k.cnum.toNat) s) (fun t => t = { s with core := { s.core with coros := t.core.coros } } ∧
      { k with place := .callRoom, spillAt := [] } ∈ t.core.coros ∧ ∀ x ∈ s.core.coros, x ≠ k → x ∈ t.core.coros) := by
  have moved : s.modCore (·.unspill k.cnum.toNat) = { s with core := s.core.movePlace k.cnum .callRoom } := by
    simp [State.modCore, Core.unspill_eq hk alone hp ready fits]
  exact ⟨_, exec_contextReturn _ moved rfl, rfl, Core.intoRoom_mem_movePlace hk,
    fun x hx hne => Core.mem_movePlace_of_ne hx (fun e => hne (alone x hx e))⟩

end

/-- Settles O44. A request is taken, comes again or goes on to its places as `State.requestPreempt` says; a decision selects the
coroutine that `preferred` puts before every other, a spill the context that `spillsBefore` does, and what a spill writes lies
in blocks of the spill region. -/
theorem pacerSteps : Obligations.PacerSteps := by
  unfold Obligations.PacerSteps
  intro s cnum k id run prio saved first alone
  refine ⟨?preempts, ?posted, ?places, ?again, ?nobody, ?decides, ?noneReady, ?room, ?spills, ?returns⟩
  case preempts =>
    intro ho hp hu hd fits
    refine ⟨exec_preemption_saves ho hp hu hd fits (.inl rfl), fun hf => exec_preemption_saves ho hp hu hd fits (.inr ⟨rfl, hf⟩),
      fun wants => exec_pacerPreemption_saves ho hp hu hd fits ((Core.pacerWants_iff ho.1 ho.2.1).2 wants)⟩
  case posted =>
    intro ho hp hu
    exact exec_preemption _ ((State.requestPreempt_at_once ho hu ..).trans (State.preemptFor_pacer_of_posted ho hp)) rfl
  case places =>
    intro why cut ho hu hcut hc
    exact exec_preemption _ (State.requestPreempt_at_places ho hu hc hcut ..) rfl
  case again =>
    intro why cut h
    exact exec_preemption _ (State.requestPreempt_again h ..) rfl
  case nobody =>
    intro cut ho lower
    have content : s.core.pacerWants = false := by
      rw [Bool.eq_false_iff, ne_eq, Core.pacerWants_iff ho.1 ho.2.1]
      rintro ⟨c, hc, ready, -, higher⟩
      exact absurd (lower c hc ready) (Nat.not_lt.2 higher)
    exact exec_pacerPreemption _ (by simp [content]) rfl
  case decides =>
    rintro idle hslot hf ⟨hk, -, unique⟩ ready empty best bad hd lost hobj serves
    refine exec_pacerDecision_runs idle hslot hf hk unique (by simp [Coro.selectable, ready, empty]) (fun x hx sel hne => ?_)
      (State.restoreTrap_eq_none bad hd lost hobj) serves
    simp only [Coro.selectable, Bool.and_eq_true, beq_iff_eq, List.isEmpty_iff] at sel
    exact (preferred_iff k x).2 (best x hx sel.1 sel.2 hne)
  case noneReady =>
    intro _ none_ready
    exact exec_pacerDecision (State.pace_of_none_ready none_ready) rfl
  case room =>
    intro h hslot
    refine exec_contextSpill_with_room cnum ?_
    by_cases idle : s.core.live = .idle
    · simp [Core.lacksRoom, Core.current, hslot, idle]
    · simpa [Core.lacksRoom_eq hslot idle] using h.resolve_left idle
  case spills =>
    rintro busy hslot full ⟨hk, rfl, unique⟩ hp enabled blocks hwf order -
    have fits (b : Nat) : s.core.spillFits b = true ↔ sumBlocks s.core.inSpill + b ≤ 4096 := by
      simp [Core.spillFits, enabled]
    exact exec_contextSpill_moves (by rw [Core.lacksRoom_eq hslot busy]; simpa using full) hk unique hp ((fits _).2 blocks)
      (fun x hx hne room hb => order x hx hne room ((fits _).1 hb)) hwf
  case returns =>
    rintro ⟨hk, rfl, unique⟩ hp ready fits
    exact exec_contextReturn_moves hk unique hp ready fits

end Sys2Proof.Machine
end

section
/-! SUPPORT. A copy command of length 0 whose baton the coroutine in the register files waits for: the case that refutes what
relay commands do (O28). -/

namespace Sys2Proof.Machine

/-- `rcopy` outside a strip is its operation on the pairs' four registers (R296). -/
theorem exec_rcopy_enabled {s : State} {g : Guard} (hg : s.enables g) (hs : s.core.run.strip = none) (h : Fin 8) (a b : Fin 16) :
    exec (.rcopy g h a b) s = .next (s.rcopyOp h (s.reg (pairEven a)) (s.reg (pairOdd a)) (s.reg (pairEven b)) (s.reg (pairOdd b))) := by
  change Host.Outcome.next (s.guarded g _) = _
  rw [State.guarded_on hg, State.noStrip_closed hs]
  rfl

/-- The handle of record 1 of die 0. -/
def relayBaton : Word := handleOf 1 1

/-- The module after reset, with an OPEN baton, with which core 0 is registered. The core runs a coroutine that waits in an
`await` for the baton's next signal; its registers name the baton beside a length of 0. -/
def awaitingCopy : State := { State.reset with
  batons := [(1, { Baton.free with live := true, opn := true })]
  core := { Core.reset 0 with
    live := .running
    regs := [relayBaton]
    run := { Coro.blank with
      s := (Vector.replicate 32 0).set 3 relayBaton
      state := .held .await
      armed := some (relayBaton, 1) } } }

/-- The signal at the command's end lets the coroutine go on, which clears its wait (R135, R173). -/
theorem rcopyOp_clears_wait : (awaitingCopy.rcopyOp 0 0 0 0 relayBaton).core.run.armed = none := by decide +kernel

/-- Refutes O28: an `rcopy` of length 0 is said to leave the coroutine in the register files as it was, but for the program
counter. `State.ordinary` asks that the core run a coroutine and leaves open that this one is Held in an `await` for the
command's own baton: the signal at the end of the command then lets it go on, and its armed wait is gone. -/
theorem not_relayCommandsAndSteps : ¬ Obligations.RelayCommandsAndSteps := by
  unfold Obligations.RelayCommandsAndSteps
  intro h
  obtain ⟨commands, -⟩ := h
  have enabled : awaitingCopy.enables .always := by simp [State.enables, State.guard, Guard.always]
  have ordinary : awaitingCopy.ordinary := by simp [State.ordinary, State.unhindered, awaitingCopy, Coro.blank, Core.reset]
  have signals : awaitingCopy.maySignal relayBaton := ⟨rfl, by decide, by decide⟩
  have rests : awaitingCopy.rests := ⟨by decide, by simp [awaitingCopy, State.reset]⟩
  obtain ⟨-, -, -, empty, -⟩ := commands awaitingCopy .always 0 0 1 0 0 enabled ordinary
  obtain ⟨t, e, -, -, -, -, unchanged, -⟩ := empty rfl rfl (Or.inr signals) rests
  rw [exec_rcopy_enabled enabled rfl] at e
  injection e with e
  subst e
  have waits : (awaitingCopy.rcopyOp 0 0 0 0 relayBaton).core.run.armed = some (relayBaton, 1) :=
    congrArg Coro.armed unchanged
  rw [rcopyOp_clears_wait] at waits
  cases waits

end Sys2Proof.Machine
end

section
/-! SUPPORT. What the baton instructions do first (spec/05 R130, R132, R135, R139): the checks of a handle, each by its outcome,
and the state that an arming leaves. -/

namespace Sys2Proof.Machine

/-! ## The checks of a handle (R130, R132, R295) -/

section
variable {s : State} {h : Word}

theorem State.ownCheck_of_owns (ho : s.owns h) : s.ownCheck h = none := by
  obtain ⟨hmod, hlive, hright⟩ := ho
  have right : ownRight s.core.run (s.baton (handleKey h)) = true := by simpa [ownRight] using hright
  simp [State.ownCheck, hmod, hlive, right]

theorem State.ownCheck_of_far (hmod : handleModule h ≠ Config.moduleNumber) : s.ownCheck h = some .batonNotLocal := by
  simp [State.ownCheck, hmod]

theorem State.ownCheck_of_dead (hmod : handleModule h = Config.moduleNumber) (hlive : s.liveHere h = false) :
    s.ownCheck h = some .batonStale := by
  simp [State.ownCheck, hmod, hlive]

theorem State.ownCheck_of_stranger (hmod : handleModule h = Config.moduleNumber) (hlive : s.liveHere h = true)
    (hasid : s.core.run.asid ≠ (s.baton (handleKey h)).owner) (hpriv : s.core.run.priv = false) :
    s.ownCheck h = some .batonDenied := by
  simp [State.ownCheck, hmod, hlive, ownRight, hasid, hpriv]

theorem State.signalCheck_of_maySignal (hm : s.maySignal h) : s.signalCheck h = none := by
  obtain ⟨hmod, hlive, hright⟩ := hm
  have right : signalRight s.core.run (s.baton (handleKey h)) = true := by
    simpa [signalRight, ownRight, or_assoc] using hright
  simp [State.signalCheck, hmod, hlive, right]

theorem State.signalCheck_of_no_member (hmem : s.isMember (handleModule h) = false) : s.signalCheck h = some .batonStale := by
  have hmod : handleModule h ≠ Config.moduleNumber := fun e => by simp [State.isMember, e] at hmem
  simp [State.signalCheck, hmod, hmem]

theorem State.signalCheck_of_dead (hmod : handleModule h = Config.moduleNumber) (hlive : s.liveHere h = false) :
    s.signalCheck h = some .batonStale := by
  simp [State.signalCheck, hmod, hlive]

theorem State.signalCheck_of_stranger (hmod : handleModule h = Config.moduleNumber) (hlive : s.liveHere h = true)
    (hasid : s.core.run.asid ≠ (s.baton (handleKey h)).owner) (hpriv : s.core.run.priv = false)
    (hopn : (s.baton (handleKey h)).opn = false) : s.signalCheck h = some .batonDenied := by
  simp [State.signalCheck, hmod, hlive, signalRight, ownRight, hasid, hpriv, hopn]

/-- An arrival at a handle of no form that a live baton has is refused, wherever it would lie. -/
theorem State.arrivalCheck_of_bad_form (hmod : handleModule h ≠ Config.moduleNumber)
    (hform : h.toNat / 2 ^ 32 % 2 ^ 18 = 0 ∨ h.toNat % 256 ≠ 0) : s.arrivalCheck h = some .batonStale := by
  have form : handleIndex h = 0 ∨ h.toNat % 256 ≠ 0 := hform
  simp [State.arrivalCheck, hmod, form]

theorem State.arrivalCheck_of_here (hmod : handleModule h = Config.moduleNumber) : s.arrivalCheck h = s.signalCheck h := by
  simp [State.arrivalCheck, hmod]

theorem State.arrivalCheck_of_no_member (hmem : s.isMember (handleModule h) = false) : s.arrivalCheck h = some .batonStale := by
  unfold State.arrivalCheck
  split
  · rfl
  · exact State.signalCheck_of_no_member hmem

end

/-! ## The instructions that make the checks (R295) -/

/-- The instructions that only an owner of their baton may execute (R132). -/
def ownerForms (g : Guard) (d a b : Fin 32) : List Instr := [.bfree g d a, .bqry g d a, .barm g a b, .barmRel g a b]

/-- The scalar instructions that signal their baton (R138, R140). -/
def signalForms (g : Guard) (a b : Fin 32) : List Instr := [.bsig g a b, .bsigOneOperand g a, .bsigErr g a b]

section
variable {s : State} {g : Guard} (hg : s.enables g)
include hg

/-- A check that refuses comes before any effect. -/
theorem State.guarded_refused {check : State → Option Cause} {x : Cause} (hc : check s = some x) (f : State → State) :
    s.guarded g (fun s => s.checked (check s) f) = s.raise x := by
  rw [State.guarded_on hg, hc]
  rfl

theorem exec_ownerForms_refused {d a b : Fin 32} {x : Cause} (hc : s.ownCheck (s.reg a) = some x) :
    ∀ i ∈ ownerForms g d a b, exec i s = .next (s.raise x) := by
  have refused (f : State → State) := State.guarded_refused hg (check := fun s => s.ownCheck (s.reg a)) hc f
  simp only [ownerForms, List.forall_mem_cons, List.not_mem_nil, false_imp_iff, implies_true, and_true]
  exact ⟨congrArg _ (refused _), congrArg _ (refused _), congrArg _ (refused _), congrArg _ (refused _)⟩

theorem exec_signalForms_refused {a b : Fin 32} {x : Cause} (hc : s.signalCheck (s.reg a) = some x) :
    ∀ i ∈ signalForms g a b, exec i s = .next (s.raise x) := by
  have refused (f : State → State) := State.guarded_refused hg (check := fun s => s.signalCheck (s.reg a)) hc f
  simp only [signalForms, List.forall_mem_cons, List.not_mem_nil, false_imp_iff, implies_true, and_true]
  exact ⟨congrArg _ (refused _), congrArg _ (refused _), congrArg _ (refused _)⟩

omit hg in
/-- `barv` is never disabled (R293). -/
theorem exec_barv_refused {d a : Fin 32} {x : Cause} (hc : s.arrivalCheck (s.reg a) = some x) :
    exec (.barv g d a) s = .next (s.raise x) := by
  change Host.Outcome.next (s.checked (s.arrivalCheck (s.reg a)) _) = _
  rw [hc]
  rfl

end

/-! ## Arming (R135) -/

/-- The wait that an arming leaves. -/
def State.armedAt (s : State) (h : Word) (T : BitVec 32) : State :=
  s.passed.withRun { s.passed.core.run with armed := some (h, T) }

section
variable {s : State} {h : Word}

theorem State.armOp_absolute (v : Word) (hT : (v.setWidth 32 - (s.baton (handleKey h)).count).toNat ≠ 2 ^ 31) :
    s.armOp h v false = s.armedAt h (v.setWidth 32) := by
  simp only [State.armOp, Bool.false_eq_true, if_false, beq_iff_eq, hT]
  rfl

theorem State.armOp_absolute_refused (v : Word) (hT : (v.setWidth 32 - (s.baton (handleKey h)).count).toNat = 2 ^ 31) :
    s.armOp h v false = s.raise .batonArm := by
  simp [State.armOp, hT]

theorem State.armOp_relative (v : Word) (hv : v.toNat < 2 ^ 31) :
    s.armOp h v true = s.armedAt h ((s.baton (handleKey h)).count + v.setWidth 32) := by
  simp only [State.armOp, if_true, decide_eq_true_eq, Nat.not_le.2 hv, if_false]
  rfl

theorem State.armOp_relative_refused (v : Word) (hv : 2 ^ 31 ≤ v.toNat) : s.armOp h v true = s.raise .batonArm := by
  simp only [State.armOp, if_true, decide_eq_true_eq, hv]

end

section
variable {s : State} {g : Guard} (hg : s.enables g) {a : Fin 32} (ho : s.owns (s.reg a))
include hg ho

theorem exec_barm_owned (b : Fin 32) : exec (.barm g a b) s = .next (s.armOp (s.reg a) (s.reg b) false) := by
  change Host.Outcome.next (s.guarded g (fun s => s.checked (s.ownCheck (s.reg a)) _)) = _
  rw [State.guarded_on hg, State.ownCheck_of_owns ho]
  rfl

theorem exec_barmRel_owned (b : Fin 32) : exec (.barmRel g a b) s = .next (s.armOp (s.reg a) (s.reg b) true) := by
  change Host.Outcome.next (s.guarded g (fun s => s.checked (s.ownCheck (s.reg a)) _)) = _
  rw [State.guarded_on hg, State.ownCheck_of_owns ho]
  rfl

end

/-! ## The results -/

/-- Settles O26. An arming is one test of its target (`State.armOp_absolute`, `State.armOp_relative`); each check of a handle
has the outcome that its case gives, and a check that refuses is the whole instruction. -/
theorem armingAndBatonChecks : Obligations.ArmingAndBatonChecks := by
  unfold Obligations.ArmingAndBatonChecks
  refine ⟨fun s g a b hg ho => ?arming, fun s g d a b hg => ?checks⟩
  case arming =>
    dsimp only
    rw [exec_barm_owned hg ho, exec_barmRel_owned hg ho]
    exact ⟨fun hT => congrArg _ (State.armOp_absolute _ hT), fun hT => congrArg _ (State.armOp_absolute_refused _ hT),
      fun hv => congrArg _ (State.armOp_relative _ hv), fun hv => congrArg _ (State.armOp_relative_refused _ hv)⟩
  case checks =>
    have sent {x : Cause} (hs : s.signalCheck (s.reg a) = some x) (ha : s.arrivalCheck (s.reg a) = some x) :
        ∀ i ∈ signalForms g a b ++ [.barv g d a], exec i s = .next (s.raise x) :=
      List.forall_mem_append.2 ⟨exec_signalForms_refused hg hs, List.forall_mem_singleton.2 (exec_barv_refused ha)⟩
    refine ⟨fun hfar => exec_ownerForms_refused hg (State.ownCheck_of_far hfar),
      fun hmem => sent (State.signalCheck_of_no_member hmem) (State.arrivalCheck_of_no_member hmem),
      fun hfar hform => exec_barv_refused (State.arrivalCheck_of_bad_form hfar hform),
      fun hmod hdead => ?_, fun hmod hlive hasid hpriv => ⟨?_, fun hopn => ?_⟩⟩
    · have stale := State.signalCheck_of_dead hmod hdead
      exact List.forall_mem_append.2 ⟨exec_ownerForms_refused hg (State.ownCheck_of_dead hmod hdead),
        sent stale ((State.arrivalCheck_of_here hmod).trans stale)⟩
    · exact exec_ownerForms_refused hg (State.ownCheck_of_stranger hmod hlive hasid hpriv)
    · have denied := State.signalCheck_of_stranger hmod hlive hasid hpriv hopn
      exact sent denied ((State.arrivalCheck_of_here hmod).trans denied)

end Sys2Proof.Machine
end

section
/-! SUPPORT. What a signal does (spec/05 R134, R137 to R142): the record that it updates, the waiters that it wakes, and its
release. -/

namespace Sys2Proof.Machine

/-! ## Baton records -/

@[simp] theorem State.baton_setBaton_same (s : State) (k : Nat) (b : Baton) : (s.setBaton k b).baton k = b := by
  simp [State.baton]

theorem State.baton_setBaton_of_ne (s : State) {j k : Nat} (b : Baton) (h : j ≠ k) : (s.setBaton k b).baton j = s.baton j := by
  simp only [State.baton, State.setBaton_batons, List.find?_cons, decide_eq_false h.symm, find?_fst_filter_of_ne _ h]

/-- The records of a state whose batons are those of `s` but for one. -/
theorem State.baton_of_batons {s t : State} {k : Nat} {b : Baton} (e : t.batons = (s.setBaton k b).batons) :
    t.baton k = b ∧ ∀ j, j ≠ k → t.baton j = s.baton j := by
  have same (j : Nat) : t.baton j = (s.setBaton k b).baton j := by rw [State.baton, e, State.baton]
  exact ⟨by rw [same, State.baton_setBaton_same], fun j hj => by rw [same, State.baton_setBaton_of_ne s b hj]⟩

/-! ## Waiters that wake (R137, R173, R178) -/

/-- A waiter after a wake. -/
def Coro.woke (p : Coro → Bool) (k : Coro) : Coro :=
  if k.state == .waiting && p k then { k with state := .ready, woken := true } else k

theorem Coro.woke_of_waiting {k : Coro} (p : Coro → Bool) (waiting : k.state = .waiting) :
    k.woke p = if p k then { k with state := .ready, woken := true } else k := by
  simp [Coro.woke, waiting]

theorem Coro.woke_of_not_waiting {k : Coro} (p : Coro → Bool) (other : k.state ≠ .waiting) : k.woke p = k := by
  simp [Coro.woke, other]

@[simp] theorem Core.setLiveness_coros (c : Core) (l : Live) : (c.setLiveness l).coros = c.coros := by
  unfold Core.setLiveness
  split <;> rfl

@[simp] theorem Core.setLiveness_run (c : Core) (l : Live) : (c.setLiveness l).run = c.run := by
  unfold Core.setLiveness
  split <;> rfl

@[simp] theorem Core.modCurrent_coros (c : Core) (f : Coro → Coro) : (c.modCurrent f).coros = c.coros := by
  unfold Core.modCurrent
  split <;> rfl

/-- The coroutine in the register files is changed, or stands aside for a message handler. -/
theorem Core.modCurrent_run (c : Core) (f : Coro → Coro) : (c.modCurrent f).run = c.run ∨ (c.modCurrent f).run = f c.run := by
  unfold Core.modCurrent
  split <;> simp

@[simp] theorem Core.wake_coros (c : Core) (p : Coro → Bool) : (c.wake p).coros = c.coros.map (Coro.woke p) := by
  simp only [Core.wake, Core.trimRegs]
  split
  · split
    · simp only [Core.setLiveness_coros, Core.modCurrent_coros]
      rfl
    · rfl
  · rfl

/-- A wake changes the coroutine in the register files in its state and its armed wait alone: it lets a Held `await` go on. -/
theorem Core.wake_run (c : Core) (p : Coro → Bool) : ∃ st ar, (c.wake p).run = { c.run with state := st, armed := ar } := by
  simp only [Core.wake, Core.trimRegs]
  split
  · split
    · rw [Core.setLiveness_run]
      rcases Core.modCurrent_run { c with coros := c.coros.map (Coro.woke p) }
        (fun k => { k with state := .running, armed := none }) with e | e
      · exact ⟨c.run.state, c.run.armed, e⟩
      · exact ⟨.running, none, e⟩
    · exact ⟨c.run.state, c.run.armed, rfl⟩
  · exact ⟨c.run.state, c.run.armed, rfl⟩

/-- An acquire of cores changes the caches alone. -/
theorem State.foldl_acquireCore (l : List Nat) (s : State) : ∃ cs, l.foldl State.acquireCore s = { s with caches := cs } := by
  induction l generalizing s with
  | nil => exact ⟨s.caches, rfl⟩
  | cons c l ih => exact ih (s.acquireCore c)

/-- A wake at every core changes the cores, the caches and the agenda alone. -/
theorem State.wakeAll_eq (s : State) (scope : Nat) (p : Core → Coro → Bool) : ∃ cs ag, s.wakeAll scope p =
    { s with
      caches := cs, agenda := ag
      core := s.core.wake (p s.core), others := s.others.map (fun c => c.wake (p c)) } := by
  unfold State.wakeAll
  dsimp only
  split
  · obtain ⟨cs, e⟩ := State.foldl_acquireCore ((s.cores.filter (fun c => c.heldWakes (p c))).map (·.id)) s
    rw [e]
    exact ⟨_, _, rfl⟩
  · exact ⟨_, _, rfl⟩

/-- The starter's notice changes the agenda alone. -/
theorem State.notifyStarter_eq (s : State) (h : Word) (b : Baton) : ∃ ag, s.notifyStarter h b = { s with agenda := ag } := by
  simp only [State.notifyStarter]
  split
  · exact ⟨_, rfl⟩
  · split
    · exact ⟨_, rfl⟩
    · exact ⟨_, rfl⟩

/-! ## Signals of this module's batons (R134, R138, R140) -/

/-- The record of `h` becomes `b`, which wakes its waiters and is told to the starter. -/
def State.updated (s : State) (h : Word) (b : Baton) : State :=
  ((s.setBaton (handleKey h) b).wakeAll (s.baton (handleKey h)).scope.val
    (fun c k => c.regs.contains h && k.waitMet h b)).notifyStarter h b

/-- In `t` the record of `h` is `b`; the scalar state of the coroutine that runs, and memory, are as in `s`. -/
structure State.Holding (s t : State) (h : Word) (b : Baton) : Prop where
  regs : t.core.run.s = s.core.run.s
  pc : t.core.run.pc = s.core.run.pc
  guards : t.core.run.g = s.core.run.g
  mem : t.mem = s.mem
  baton : s.batonIs t h b

/-- A state holds what it holds. -/
theorem State.holding_self (s : State) (h : Word) : s.Holding s h (s.baton (handleKey h)) :=
  ⟨rfl, rfl, rfl, rfl, rfl, fun _ _ => rfl⟩

/-- A write of a scalar register, and the step to the next word, after an update (R225). -/
theorem State.Holding.wrote {s t : State} {h : Word} {b : Baton} (held : s.Holding t h b) (d : Fin 32) (v : Word) :
    ((t.wrote d v).core.run.s = s.regsWith d v ∧ (t.wrote d v).core.run.pc = s.core.run.pc + 4 ∧
      (t.wrote d v).core.run.g = s.core.run.g ∧ (t.wrote d v).mem = s.mem) ∧ s.batonIs (t.wrote d v) h b := by
  have regs : t.regsWith d v = s.regsWith d v := by rw [State.regsWith, held.regs, State.regsWith]
  exact ⟨⟨regs, congrArg (· + 4) held.pc, held.guards, held.mem⟩, held.baton⟩

/-- The waiters of the core in focus after a wake of those that `b` meets. -/
theorem State.wakes_of_coros {s t : State} {h : Word} {b : Baton}
    (e : t.core.coros = s.core.coros.map (Coro.woke (fun k => s.core.regs.contains h && k.waitMet h b))) : s.wakes t h b := by
  have woken {k : Coro} (hk : k ∈ s.core.coros) :
      k.woke (fun k => s.core.regs.contains h && k.waitMet h b) ∈ t.core.coros := e ▸ List.mem_map_of_mem hk
  refine ⟨fun k hk waiting => ⟨_, woken hk, ?_⟩, fun k hk other => Coro.woke_of_not_waiting _ other ▸ woken hk⟩
  rw [Coro.woke_of_waiting _ waiting]
  split
  · exact ⟨rfl, rfl, rfl, rfl⟩
  · exact ⟨rfl, rfl, rfl, waiting⟩

/-- An update of a record changes it and wakes the waiters that it meets. -/
theorem State.updated_holding (s : State) (h : Word) (b : Baton) :
    s.Holding (s.updated h b) h b ∧ s.wakes (s.updated h b) h b := by
  obtain ⟨cs, ag, e⟩ := (s.setBaton (handleKey h) b).wakeAll_eq (s.baton (handleKey h)).scope.val
    (fun c k => c.regs.contains h && k.waitMet h b)
  obtain ⟨ag', e'⟩ := State.notifyStarter_eq ((s.setBaton (handleKey h) b).wakeAll (s.baton (handleKey h)).scope.val
    (fun c k => c.regs.contains h && k.waitMet h b)) h b
  have batons : (s.updated h b).batons = (s.setBaton (handleKey h) b).batons := by rw [State.updated, e', e]
  have core : (s.updated h b).core = s.core.wake (fun k => s.core.regs.contains h && k.waitMet h b) := by
    rw [State.updated, e', e]
    rfl
  have mem : (s.updated h b).mem = s.mem := by rw [State.updated, e', e]; rfl
  obtain ⟨st, ar, run⟩ := s.core.wake_run (fun k => s.core.regs.contains h && k.waitMet h b)
  exact ⟨⟨by rw [core, run], by rw [core, run], by rw [core, run], mem, State.baton_of_batons batons⟩,
    State.wakes_of_coros (by rw [core, Core.wake_coros])⟩

/-- The record of `h` after a signal of `n` (R138). -/
def State.signalled (s : State) (h : Word) (n : Nat) : Baton :=
  { s.baton (handleKey h) with count := (s.baton (handleKey h)).count + BitVec.ofNat 32 n }

/-- A signal adds its amount, and wakes where it adds any. -/
theorem State.signalLocal_holding (s : State) (h : Word) (n : Nat) : s.Holding (s.signalLocal h n) h (s.signalled h n) ∧
    (n ≠ 0 → s.wakes (s.signalLocal h n) h (s.signalled h n)) := by
  by_cases hn : n = 0
  · subst hn
    have same : s.signalled h 0 = s.baton (handleKey h) := by simp [State.signalled]
    rw [same, State.signalLocal, if_pos rfl]
    exact ⟨s.holding_self h, fun absurd => (absurd rfl).elim⟩
  · have updated : s.signalLocal h n = s.updated h (s.signalled h n) := by
      rw [State.signalLocal, if_neg hn]
      rfl
    obtain ⟨held, woken⟩ := s.updated_holding h (s.signalled h n)
    exact updated ▸ ⟨held, fun _ => woken⟩

theorem State.errLocal_first (s : State) (h : Word) (n : Nat) (he : (s.baton (handleKey h)).err = 0) :
    s.errLocal h n = s.updated h { s.baton (handleKey h) with err := BitVec.ofNat 8 n } := by
  rw [State.errLocal, if_neg (by simp [he])]
  rfl

theorem State.errLocal_later (s : State) (h : Word) (n : Nat) (he : (s.baton (handleKey h)).err ≠ 0) : s.errLocal h n = s := by
  rw [State.errLocal, if_pos (bne_iff_ne.2 he)]

/-! ## Releases (R104, R105, R121) -/

/-- A release waits for the coroutine's posted stores. -/
theorem State.released_of_posted {s : State} (hp : s.posted = true) (scope : Nat) (f : State → State) :
    s.released (some scope) f = s := by
  simp [State.released, State.release, hp]

theorem State.registerCore_of_rests {s : State} (hr : s.rests) : s.registerCore s.core.id = s := by
  obtain ⟨-, registered⟩ := hr
  have none_loose : s.caches.l1.filter (fun l => l.core == s.core.id && l.loose != 0) = [] := by
    simpa [List.filter_eq_nil_iff] using registered
  rw [State.registerCore, none_loose]
  rfl

/-- One that has nothing else to do. -/
theorem State.released_of_rests {s : State} (hr : s.rests) (scope : Nat) (f : State → State) :
    s.released (some scope) f = f s := by
  simp [State.released, State.release, hr.1, State.registerCore_of_rests hr]

/-- A coroutine's own instruction, with no strip open. -/
theorem State.closed_of_ordinary {s : State} (ho : s.ordinary) : s.core.run.strip = none := by
  obtain ⟨-, -, -, closed, -⟩ := ho
  exact closed

/-! ## The instructions that signal (R138, R140, R142) -/

section
variable {s : State} {h : Word} (hm : s.maySignal h) (hs : s.core.run.strip = none)
include hm hs

theorem State.bsigOp_of_maySignal (n : Nat) : s.bsigOp h n =
    s.released (some (s.batonScope h)) (fun s => (s.signalLocal h n).advance) := by
  rw [State.bsigOp, State.signalCheck_of_maySignal hm, State.checked, State.noStrip_closed hs]
  simp only [hm.1, if_true]

theorem State.bsigErrOp_of_maySignal {n : Nat} (hn : 0x80 ≤ n) : s.bsigErrOp h n =
    s.released (some (s.batonScope h)) (fun s => (s.errLocal h n).advance) := by
  rw [State.bsigErrOp, State.signalCheck_of_maySignal hm, State.checked, State.noStrip_closed hs, if_neg (Nat.not_lt.2 hn)]
  simp only [hm.1, if_true]

theorem State.bsigErrOp_of_small {n : Nat} (hn : n < 0x80) : s.bsigErrOp h n = s.raise .batonArm := by
  rw [State.bsigErrOp, State.signalCheck_of_maySignal hm, State.checked, State.noStrip_closed hs, if_pos hn]

theorem State.barvOp_of_maySignal (d : Fin 32) (n : Nat) : s.barvOp d h n =
    s.released (some (s.batonScope h)) (fun s =>
      ((s.signalLocal h n).setS d ((arrivalTarget (s.baton (handleKey h)) n).setWidth 64)).advance) := by
  rw [State.barvOp, State.arrivalCheck_of_here hm.1, State.signalCheck_of_maySignal hm, State.checked,
    State.noStrip_closed hs]
  simp only [hm.1, if_true]

end

/-! ## What `barv` counts and returns (R142) -/

/-- The active elements that a mask has bits for (log 37). -/
theorem Coro.population_eq_countP (c : Coro) (lanes : Nat) (g : Guard) : c.population lanes g =
    c.tile.countP (fun p => c.active g p.1 p.2 && decide (c.maskPos p.1 p.2 < c.vlmax lanes)) := by
  simp only [Coro.population, Coro.inMask, List.countP_eq_length_filter, Bool.and_comm]

theorem arrivalTarget_toNat (b : Baton) (n : Nat) : (arrivalTarget b n).setWidth 64 = BitVec.ofNat 64 (if b.bar then
    (b.count.toNat - b.count.toNat % 2 ^ b.plog + 2 ^ b.plog) % 2 ^ 32 else (b.count.toNat + n) % 2 ^ 32) := by
  unfold arrivalTarget
  split <;> apply BitVec.eq_of_toNat_eq <;> simp

/-! ## The results -/

/-- An instruction that signals `h` by `n` and writes `v` to register `d`; one that writes none names s0. -/
theorem goes_signal {s : State} {h : Word} {n : Nat} {i : Instr} {d : Fin 32} {v : Word}
    (e : exec i s = .next ((s.signalLocal h n).wrote d v)) :
    Goes (exec i s) (fun t => (t.core.run.s = s.regsWith d v ∧ t.core.run.pc = s.core.run.pc + 4 ∧
      t.core.run.g = s.core.run.g ∧ t.mem = s.mem) ∧ s.batonIs t h (s.signalled h n) ∧
      (n ≠ 0 → s.wakes t h (s.signalled h n))) := by
  obtain ⟨held, woken⟩ := s.signalLocal_holding h n
  obtain ⟨moved, record⟩ := held.wrote d v
  exact ⟨_, e, moved, record, woken⟩

section
variable {s : State} {g : Guard} (hg : s.enables g) {a : Fin 32} (hm : s.maySignal (s.reg a)) (hs : s.core.run.strip = none)
include hg hm hs

theorem exec_bsig_of_maySignal (b : Fin 32) : exec (.bsig g a b) s = .next (s.released (some (s.batonScope (s.reg a)))
    (fun t => (t.signalLocal (s.reg a) ((s.reg b).toNat % 2 ^ 16)).advance)) := by
  change Host.Outcome.next (s.guarded g (fun s => s.bsigOp (s.reg a) ((s.reg b).toNat % 2 ^ 16))) = _
  rw [State.guarded_on hg, State.bsigOp_of_maySignal hm hs]

theorem exec_bsigOneOperand_of_maySignal : exec (.bsigOneOperand g a) s = .next (s.released
    (some (s.batonScope (s.reg a))) (fun t => (t.signalLocal (s.reg a) 1).advance)) := by
  change Host.Outcome.next (s.guarded g (fun s => s.bsigOp (s.reg a) 1)) = _
  rw [State.guarded_on hg, State.bsigOp_of_maySignal hm hs]

theorem exec_bsigErr_of_code {b : Fin 32} (hb : 0x80 ≤ (s.reg b).toNat % 256) : exec (.bsigErr g a b) s = .next (s.released
    (some (s.batonScope (s.reg a))) (fun t => (t.errLocal (s.reg a) ((s.reg b).toNat % 256)).advance)) := by
  change Host.Outcome.next (s.guarded g (fun s => s.bsigErrOp (s.reg a) ((s.reg b).toNat % 256))) = _
  rw [State.guarded_on hg, State.bsigErrOp_of_maySignal hm hs hb]

theorem exec_bsigErr_of_small {b : Fin 32} (hb : (s.reg b).toNat % 256 < 0x80) :
    exec (.bsigErr g a b) s = .next (s.raise .batonArm) := by
  change Host.Outcome.next (s.guarded g (fun s => s.bsigErrOp (s.reg a) ((s.reg b).toNat % 256))) = _
  rw [State.guarded_on hg, State.bsigErrOp_of_small hm hs hb]

end

/-- The first error code is kept, and wakes every waiter (R140). -/
theorem goes_error {s : State} {h : Word} {n : Nat} {i : Instr} (e : exec i s = .next ((s.errLocal h n).advance)) :
    let x := s.baton (handleKey h)
    let after : Baton := { x with err := BitVec.ofNat 8 n }
    Goes (exec i s) (fun t => (t.core.run.s = s.core.run.s ∧ t.core.run.pc = s.core.run.pc + 4 ∧
      t.core.run.g = s.core.run.g ∧ t.mem = s.mem) ∧ (x.err = 0 → s.batonIs t h after ∧ s.wakes t h after) ∧
      (x.err ≠ 0 → s.batonIs t h x)) := by
  dsimp only
  by_cases he : (s.baton (handleKey h)).err = 0
  · rw [State.errLocal_first s h n he] at e
    obtain ⟨held, woken⟩ := s.updated_holding h { s.baton (handleKey h) with err := BitVec.ofNat 8 n }
    obtain ⟨moved, record⟩ := held.wrote 0 0
    exact ⟨_, e, moved, fun _ => ⟨record, woken⟩, fun later => (later he).elim⟩
  · rw [State.errLocal_later s h n he] at e
    obtain ⟨moved, record⟩ := (s.holding_self h).wrote 0 0
    exact ⟨_, e, moved, fun first => (he first).elim, fun _ => record⟩

/-- Settles O27. A signal of this module's baton is one update of its record (`State.updated_holding`), after a release that
waits while the coroutine has posted stores and that otherwise has nothing to do. -/
theorem signalsCountAndWake : Obligations.SignalsCountAndWake := by
  unfold Obligations.SignalsCountAndWake
  intro s g d a b h x active moved signals ho hm
  have closed := State.closed_of_ordinary ho
  have barv : exec (.barv g d a) s = .next (s.released (some (s.batonScope h)) (fun s =>
      (s.signalLocal h active).wrote d ((arrivalTarget (s.baton (handleKey h)) active).setWidth 64))) := by
    change Host.Outcome.next (s.barvOp d h (s.core.run.population s.core.lanes g)) = _
    rw [State.barvOp_of_maySignal hm closed, Coro.population_eq_countP]
    simp only [State.setS_advance]
    rfl
  refine ⟨fun hp hg => ⟨?_, ?_, fun hb => ?_⟩, fun hp => ?_, fun hr hg => ⟨goes_signal (d := 0) (v := 0) ?_,
    goes_signal (d := 0) (v := 0) ?_, fun hb => ?_⟩, fun hg hb => exec_bsigErr_of_small hg hm closed hb, fun hr => ?_⟩
  · rw [exec_bsig_of_maySignal hg hm closed, State.released_of_posted hp]
  · rw [exec_bsigOneOperand_of_maySignal hg hm closed, State.released_of_posted hp]
  · rw [exec_bsigErr_of_code hg hm closed hb, State.released_of_posted hp]
  · rw [barv, State.released_of_posted hp]
  · rw [exec_bsig_of_maySignal hg hm closed, State.released_of_rests hr]
    rfl
  · rw [exec_bsigOneOperand_of_maySignal hg hm closed, State.released_of_rests hr]
    rfl
  · have code : (s.reg b).setWidth 8 = BitVec.ofNat 8 ((s.reg b).toNat % 256) := BitVec.eq_of_toNat_eq (by simp)
    rw [code]
    exact goes_error (by rw [exec_bsigErr_of_code hg hm closed hb, State.released_of_rests hr])
  · rw [State.released_of_rests hr, arrivalTarget_toNat] at barv
    exact goes_signal barv

end Sys2Proof.Machine
end

section
/-! SUPPORT. `bnew`, `bfree` and `bqry` (spec/05 R129 to R133, R141): the search for a free record, the record that leaves it, and
what an acquire leaves in the L1s. -/

namespace Sys2Proof.Machine

/-! ## The search for a free record (R131) -/

/-- The search begins at one of the die's records. -/
theorem searchStart_inside (n : Nat) : 1 ≤ n % 262143 + 1 ∧ n % 262143 + 1 ≤ 262143 := by omega

/-- A free record that the search finds is one of the die's. -/
theorem State.freeRecord_some {s : State} {die n i k : Nat} (hi : 1 ≤ i ∧ i ≤ 262143) (h : s.freeRecord die n i = some k) :
    (1 ≤ k ∧ k ≤ 262143) ∧ (s.baton (die * 2 ^ 18 + k)).live = false := by
  induction n generalizing i with
  | zero => cases h
  | succ n ih =>
    rw [State.freeRecord] at h
    split at h
    · exact ih (by split <;> omega) h
    · next free =>
      cases h
      exact ⟨hi, by simpa using free⟩

/-- Record number `j` from `i` on, of a die's 262,143, the last being followed by the first. -/
def nthRecord (i j : Nat) : Nat := (i - 1 + j) % 262143 + 1

theorem nthRecord_zero {i : Nat} (hi : 1 ≤ i ∧ i ≤ 262143) : nthRecord i 0 = i := by
  unfold nthRecord
  omega

theorem nthRecord_succ {i : Nat} (hi : 1 ≤ i ∧ i ≤ 262143) (j : Nat) :
    nthRecord i (j + 1) = nthRecord (if i = 262143 then 1 else i + 1) j := by
  unfold nthRecord
  split <;> omega

/-- Where the search finds none, every record that it has looked at is live. -/
theorem State.freeRecord_none {s : State} {die n i : Nat} (hi : 1 ≤ i ∧ i ≤ 262143) (h : s.freeRecord die n i = none) :
    ∀ j < n, (s.baton (die * 2 ^ 18 + nthRecord i j)).live = true := by
  induction n generalizing i with
  | zero => exact fun j hj => absurd hj (Nat.not_lt_zero j)
  | succ n ih =>
    rw [State.freeRecord] at h
    split at h
    · next live =>
      intro j hj
      cases j with
      | zero => rwa [nthRecord_zero hi]
      | succ j =>
        rw [nthRecord_succ hi]
        exact ih (by split <;> omega) h j (by omega)
    · cases h

theorem State.mem_batons_of_live {s : State} {k : Nat} (h : (s.baton k).live = true) :
    ∃ b, (k, b) ∈ s.batons ∧ b.live = true := by
  unfold State.baton at h
  cases e : s.batons.find? (·.1 = k) with
  | none =>
    rw [e] at h
    cases h
  | some p =>
    rw [e] at h
    have key : p.1 = k := by simpa using List.find?_some e
    exact ⟨p.2, key ▸ List.mem_of_find?_eq_some e, h⟩

/-- Records of a die that are live are no more than its live records. -/
theorem State.length_le_liveRecords {s : State} {die : Nat} {l : List Nat} (nodup : l.Nodup)
    (live : ∀ i ∈ l, i < 2 ^ 18 ∧ (s.baton (die * 2 ^ 18 + i)).live = true) : l.length ≤ s.liveRecords die := by
  have listed : l.map (die * 2 ^ 18 + ·) ⊆ (s.batons.filter (fun b => b.2.live && b.1 / 2 ^ 18 == die)).map (·.1) := by
    intro k hk
    obtain ⟨i, hi, rfl⟩ := List.mem_map.1 hk
    obtain ⟨small, hlive⟩ := live i hi
    obtain ⟨b, hb, blive⟩ := State.mem_batons_of_live hlive
    have ofDie : (die * 2 ^ 18 + i) / 2 ^ 18 = die := by omega
    exact List.mem_map.2 ⟨_, List.mem_filter.2 ⟨hb, Bool.and_eq_true_iff.2 ⟨blive, beq_iff_eq.2 ofDie⟩⟩, rfl⟩
  have distinct : (l.map (die * 2 ^ 18 + ·)).Nodup := nodup.map (fun _ _ e => Nat.add_left_cancel e)
  simpa [State.liveRecords] using (List.subperm_of_subset distinct listed).length_le

/-- A die with fewer live records than it has records holds a free one that the search finds. -/
theorem State.freeRecord_isSome {s : State} {die i : Nat} (hi : 1 ≤ i ∧ i ≤ 262143) (h : s.liveRecords die < 262143) :
    ∃ k, s.freeRecord die (min (s.liveRecords die + 1) 262143) i = some k := by
  by_contra hnone
  have none : s.freeRecord die (s.liveRecords die + 1) i = none := by
    rw [Nat.min_eq_left h] at hnone
    exact Option.eq_none_iff_forall_not_mem.2 fun k hk => hnone ⟨k, hk⟩
  have looked : ((List.range (s.liveRecords die + 1)).map (nthRecord i)).length ≤ s.liveRecords die := by
    refine State.length_le_liveRecords ?_ (fun k hk => ?_)
    · refine List.Nodup.map_on (fun x hx y hy e => ?_) List.nodup_range
      rw [List.mem_range] at hx hy
      unfold nthRecord at e
      omega
    · obtain ⟨j, hj, rfl⟩ := List.mem_map.1 hk
      refine ⟨?_, State.freeRecord_none hi none j (List.mem_range.1 hj)⟩
      unfold nthRecord
      omega
  simp at looked

/-! ## bnew (R129, R131) -/

/-- The flags that `bnew` accepts. -/
theorem flagsGood_iff (f : Word) (n : Nat) : flagsGood f n = true ↔ f.toNat / 2 ^ 40 = 0 ∧ f.toNat / 2 ^ 11 % 2 ^ 5 = 0 ∧
    f.toNat / 2 ^ 6 % 2 ^ 5 ≤ 24 ∧ (f.toNat.testBit 4 = true → n < 4) := by
  simp only [flagsGood, bits, Bool.and_eq_true, beq_iff_eq, Bool.not_eq_true', and_assoc, BitVec.getLsbD]
  refine and_congr (by omega) (and_congr Iff.rfl (and_congr decide_eq_true_iff ?_))
  cases f.toNat.testBit 4 <;> simp

section
variable {s : State} {f : Word}

theorem State.bnewOp_of_bad_flags (d : Fin 32) (bad : flagsGood f s.core.run.tags.length = false) :
    s.bnewOp d f = s.wrote d 2 := by
  simp only [State.bnewOp, bad, Bool.not_false, if_true, State.setS_advance]

variable (good : flagsGood f s.core.run.tags.length = true)
include good

/-- Where every record of the die is live, there is none to take. -/
theorem State.bnewOp_of_none_free (d : Fin 32)
    (full : ∀ i, 1 ≤ i → i ≤ 262143 → (s.baton (dieOf s.core.id * 2 ^ 18 + i)).live = true) :
    s.bnewOp d f = s.wrote d 1 := by
  have none : s.freeRecord (dieOf s.core.id) (min (s.liveRecords (dieOf s.core.id) + 1) 262143)
      (Config.freeBaton s.fresh % 262143 + 1) = none := by
    refine Option.eq_none_iff_forall_not_mem.2 (fun k hk => ?_)
    obtain ⟨⟨lo, hi⟩, free⟩ := State.freeRecord_some (searchStart_inside _) hk
    rw [full k lo hi] at free
    cases free
  simp only [State.bnewOp, good, none, Bool.not_true, Bool.false_eq_true, if_false, State.setS_advance]

/-- The tag that a new record brings to its creator's set (log 92). -/
def Baton.newTags (b : Baton) : List (BitVec 16 × BitVec 8) := if b.cl then [(b.group, b.cgen)] else []

/-- The state once the record `b` has been made under `key`: its handle is in register `d`. -/
def State.afterNew (s : State) (d : Fin 32) (key : Nat) (b : Baton) : State :=
  { (s.setBaton key b).withRun { s.core.run with
      s := s.regsWith d (handleOf key b.gen.toNat), pc := s.core.run.pc + 4, tags := s.core.run.tags ++ b.newTags } with
    fresh := s.fresh + 1 }

/-- Otherwise a free record is taken. -/
theorem State.bnewOp_of_free (d : Fin 32) (room : s.liveRecords (dieOf s.core.id) < 262143) :
    ∃ i, (1 ≤ i ∧ i ≤ 262143) ∧ (s.baton (dieOf s.core.id * 2 ^ 18 + i)).live = false ∧
      s.bnewOp d f = s.afterNew d (dieOf s.core.id * 2 ^ 18 + i)
        (newBaton (s.baton (dieOf s.core.id * 2 ^ 18 + i)) f s.core.run s.core.id) := by
  obtain ⟨i, found⟩ := State.freeRecord_isSome (searchStart_inside (Config.freeBaton s.fresh)) room
  obtain ⟨inside, free⟩ := State.freeRecord_some (searchStart_inside _) found
  refine ⟨i, inside, free, ?_⟩
  simp only [State.bnewOp, good, found, State.setS_advance, State.afterNew, Baton.newTags]
  cases (newBaton (s.baton (dieOf s.core.id * 2 ^ 18 + i)) f s.core.run s.core.id).cl
  · simp only [Bool.false_eq_true, if_false, List.append_nil]
    rfl
  · rfl

end

/-! ## bfree (R130, R133) -/

/-- When a tag leaves its creator's set, no record and no byte of memory changes, and of the coroutine that runs its tags alone. -/
theorem State.leaveTag_keeps (s : State) (b : Baton) : (s.leaveTag b).batons = s.batons ∧ (s.leaveTag b).mem = s.mem ∧
    ∃ tags, (s.leaveTag b).core.run = { s.core.run with tags := tags } := by
  rcases hb : b.creator with _ | ⟨core, cnum⟩
  · have same : s.leaveTag b = s := by simp only [State.leaveTag, hb]
    rw [same]
    exact ⟨rfl, rfl, s.core.run.tags, rfl⟩
  · simp only [State.leaveTag, hb]
    refine ⟨rfl, rfl, ?_⟩
    simp only [State.mapCores]
    split
    · exact ⟨s.core.run.tags, rfl⟩
    · split
      · exact ⟨s.core.run.tags, rfl⟩
      · rcases Core.modCurrent_run (c := { s.core with coros := _ }) _ with e | e
        · rw [e]
          exact ⟨s.core.run.tags, rfl⟩
        · rw [e]
          split
          · exact ⟨_, rfl⟩
          · exact ⟨s.core.run.tags, rfl⟩

/-- The record of `h` once it is free again: its handle is live no more (R130). -/
def State.freedRecord (s : State) (h : Word) : Baton :=
  { s.baton (handleKey h) with live := false, gen := nextGen (s.baton (handleKey h)).gen, creator := none }

/-- The state once the baton is freed: its tag has left its creator's set (R154). -/
def State.batonFreed (s : State) (h : Word) : State :=
  (s.setBaton (handleKey h) (s.freedRecord h)).leaveTag (s.baton (handleKey h))

section
variable {s : State} {h : Word}

theorem State.bfreeOp_of_busy (d : Fin 32) (busy : s.armedOn h = true ∨ (s.baton (handleKey h)).holds ≠ 0) :
    s.bfreeOp d h = s.wrote d 3 := by
  have refused : (s.armedOn h || (s.baton (handleKey h)).holds != 0) = true := by simpa using busy
  rw [State.bfreeOp, if_pos refused, State.setS_advance]

theorem State.bfreeOp_of_unused (d : Fin 32) (unused : ¬ (s.armedOn h = true ∨ (s.baton (handleKey h)).holds ≠ 0)) :
    s.bfreeOp d h = (s.batonFreed h).wrote d 0 := by
  have taken : (s.armedOn h || (s.baton (handleKey h)).holds != 0) = false := by
    rw [Bool.eq_false_iff]
    simpa using unused
  rw [State.bfreeOp, if_neg (by simp [taken]), State.setS_advance]
  rfl

/-- No handle names a record that is free. -/
theorem State.liveHere_of_free (hfree : (s.baton (handleKey h)).live = false) : s.liveHere h = false := by
  simp [State.liveHere, hfree]

end

/-! ## Acquires (R116, R122) -/

theorem bit01_mul (b : Bool) (n : Nat) : bit01 b * n = if b then n else 0 := by cases b <;> simp [bit01]

/-- The word that `bqry` returns (Table 8). -/
theorem bqryWord_eq (b : Baton) : bqryWord b = BitVec.ofNat 64 (b.plog * 2 ^ 42 + (if b.bar then 2 ^ 41 else 0) +
    (if b.cl then 2 ^ 40 else 0) + b.err.toNat * 2 ^ 32 + b.count.toNat) := by
  simp only [bqryWord, bit01_mul, w64]

/-- What an acquire keeps, a second one keeps. -/
theorem L1Line.acquired_acquired (l : L1Line) : l.acquired.acquired = l.acquired := by
  simp only [L1Line.acquired, L1Line.kept, BitVec.and_assoc, BitVec.and_self]

/-- An acquire of scope `.clus` or wider leaves in the core's L1 what an acquire keeps, and in the others every line that holds
anything. -/
theorem State.acquire_acquires {s : State} {n : Nat} (hn : 2 ≤ n) : s.acquires (s.acquire n) s := by
  have lines : (s.acquire n).caches.l1 = (s.caches.l1.map (fun l => if l.core == s.core.id then l.acquired else l)).filter
      (fun l => l.have_ != 0) := by
    rw [State.acquire, if_pos hn]
    rfl
  refine ⟨by rw [State.acquire, if_pos hn]; rfl, fun l hl mine => ?_, fun l other holds => ?_⟩
  · rw [lines] at hl
    obtain ⟨x, -, rfl⟩ := List.mem_map.1 (List.mem_filter.1 hl).1
    by_cases hx : x.core = s.core.id
    · simp only [hx, beq_self_eq_true, if_true, L1Line.acquired_acquired]
    · simp [hx] at mine
  · have same {x : L1Line} : (if x.core = s.core.id then x.acquired else x) = l ↔ x = l := by
      by_cases hx : x.core = s.core.id
      · have apart {y : L1Line} (hy : y.core = s.core.id) : y ≠ l := fun e => other (e ▸ hy)
        simp [hx, apart hx, apart (y := x.acquired) hx]
      · simp [hx]
    simp only [lines, List.mem_filter, bne_iff_ne.2 holds, and_true, List.mem_map, beq_iff_eq, same, exists_eq_right]

/-- An acquire of a scope: at `.co` and `.core` it does nothing. -/
theorem State.acquire_of_scope (s : State) (n : Nat) : if n < 2 then s.acquire n = s else s.acquires (s.acquire n) s := by
  split
  · next near => rw [State.acquire, if_neg (Nat.not_le.2 near)]
  · next far => exact State.acquire_acquires (Nat.not_lt.1 far)

/-! ## The results -/

section
variable {s : State} {g : Guard} (hg : s.enables g) {d a : Fin 32}
include hg

theorem exec_bnew : exec (.bnew g d a) s = .next (s.bnewOp d (s.reg a)) := by
  change Host.Outcome.next (s.guarded g (fun s => s.bnewOp d (s.reg a))) = _
  rw [State.guarded_on hg]

variable (ho : s.owns (s.reg a))
include ho

theorem exec_bfree_owned : exec (.bfree g d a) s = .next (s.bfreeOp d (s.reg a)) := by
  change Host.Outcome.next (s.guarded g (fun s => s.checked (s.ownCheck (s.reg a)) _)) = _
  rw [State.guarded_on hg, State.ownCheck_of_owns ho]
  rfl

/-- `bqry` is an acquire at the scope of its baton (R122, R141). -/
theorem exec_bqry_owned : exec (.bqry g d a) s = .next ((s.wrote d (bqryWord (s.baton (handleKey (s.reg a))))).acquire
    (s.baton (handleKey (s.reg a))).scope.val) := by
  have scope : s.batonScope (s.reg a) = (s.baton (handleKey (s.reg a))).scope.val := by rw [State.batonScope, if_pos ho.1]
  change Host.Outcome.next (s.guarded g (fun s => s.checked (s.ownCheck (s.reg a)) (fun s =>
    ((s.setS d (bqryWord (s.baton (handleKey (s.reg a))))).acquire (s.batonScope (s.reg a))).advance))) = _
  rw [State.guarded_on hg, State.ownCheck_of_owns ho, ← State.setS_advance]
  simp only [State.checked, scope, State.acquire]
  split <;> rfl

end

/-- Settles O25. `bnew` finds a free record wherever the die has one, since its search looks at one record more than live ones;
`bfree` is its test and an update of the record; `bqry` is a read and an acquire. -/
theorem batonRecordResults : Obligations.BatonRecordResults := by
  unfold Obligations.BatonRecordResults
  refine ⟨fun s g d a hg => ?making, fun s g d a hg ho => ?owned⟩
  case making =>
    dsimp only
    rw [exec_bnew hg, ← flagsGood_iff]
    refine ⟨fun bad => congrArg _ (State.bnewOp_of_bad_flags d (by simpa using bad)),
      fun good full => congrArg _ (State.bnewOp_of_none_free good d full), fun good room => ?_⟩
    obtain ⟨i, ⟨lo, hi⟩, free, made⟩ := State.bnewOp_of_free good d room
    obtain ⟨new, others⟩ := State.baton_of_batons (t := s.afterNew d (dieOf s.core.id * 2 ^ 18 + i)
      (newBaton (s.baton (dieOf s.core.id * 2 ^ 18 + i)) (s.reg a) s.core.run s.core.id)) rfl
    refine ⟨_, congrArg _ made, i, lo, hi, ?_⟩
    rw [new]
    exact ⟨free, rfl, rfl, rfl, rfl, rfl, rfl, rfl, rfl, rfl, rfl, others, rfl, rfl, rfl, rfl, rfl, rfl⟩
  case owned =>
    dsimp only
    rw [exec_bfree_owned hg ho, exec_bqry_owned hg ho]
    refine ⟨fun busy => congrArg _ (State.bfreeOp_of_busy d busy), fun unused => ?_, _, rfl, ?_⟩
    · obtain ⟨batons, mem, tags, run⟩ := (s.setBaton (handleKey (s.reg a)) (s.freedRecord (s.reg a))).leaveTag_keeps
        (s.baton (handleKey (s.reg a)))
      obtain ⟨freed, others⟩ := State.baton_of_batons (t := (s.batonFreed (s.reg a)).wrote d 0) batons
      have free := congrArg Baton.live freed
      have regs : (s.batonFreed (s.reg a)).regsWith d 0 = s.regsWith d 0 := by
        rw [State.regsWith, State.batonFreed, run]
        rfl
      exact ⟨_, congrArg _ (State.bfreeOp_of_unused d unused), free, congrArg Baton.gen freed, State.liveHere_of_free free,
        others, mem, regs, congrArg (·.pc + 4) run⟩
    · rw [bqryWord_eq]
      exact State.acquire_of_scope (s.wrote d _) _

end Sys2Proof.Machine
end

section
/-! SUPPORT. `await` (spec/05 R134 to R136, spec/06 R165, R168): a wait that is met at once, and the context that one saves which
is not. -/

namespace Sys2Proof.Machine

/-! ## The live set (R165) -/

theorem keepAt_get {α : Type} {n : Nat} (x : Vector α n) (z : α) {p : Nat → Bool} (i : Fin n) {P : Prop} [Decidable P]
    (hp : p i = true ↔ P) : (keepAt x z p)[i] = if P then x[i] else z := by
  simp [keepAt, hp]

theorem keepTiles_eq (k : Fin 64) : keepTiles k.val = [0, 1, 2, 4].getD (k.val / 16) 0 := by
  revert k
  decide

/-! ## The wait (R134, R135, R137) -/

/-- The core registers with a baton, or polls it: nothing else changes (R137). -/
theorem State.register_eq (s : State) (h : Word) (n : BitVec 10) : ∃ rs ag,
    s.register h n = { s with core := { s.core with regs := rs }, agenda := s.agenda ++ ag } ∧
      (h ∈ rs ∨ Event.batonPoll s.core.id n.toNat ∈ ag) := by
  unfold State.register
  split
  · next known => exact ⟨s.core.regs, [], by simp, .inl (by simpa using known)⟩
  · split
    · exact ⟨s.core.regs ++ [h], [], by simp [State.modCore], .inl (by simp)⟩
    · exact ⟨s.core.regs, [_], rfl, .inr (List.mem_singleton_self _)⟩

/-- The coroutine that an `await` suspends: at the next instruction, with its live set. -/
def State.suspended (s : State) (live : Word) (keep : Nat) : Coro :=
  Coro.trimLive { s.core.run with pc := s.core.run.pc + 4, woken := false } s.core.lanes live keep

/-- The state once it is saved, before its core registers. -/
def State.afterSuspend (s : State) (live : Word) (keep : Nat) : State := State.askPacer { s with
  stamp := s.stamp + 1
  core := { s.core with
    run := Coro.blank, live := .idle, pxLast := none, cut := none, drain := none
    coros := s.core.coros ++ [s.savedAs (s.suspended live keep) .waiting] } }

section
variable {s : State} {h : Word} {T : BitVec 32} (armed : s.core.run.armed = some (h, T))
include armed

theorem Coro.waitMet_iff : s.core.run.waitMet h (s.baton (handleKey h)) = true ↔
    (s.baton (handleKey h)).err ≠ 0 ∨ ((s.baton (handleKey h)).count - T).toNat < 2 ^ 31 := by
  simp [Coro.waitMet, armed, satisfied]

/-- An `await` that goes on at once is a resumption: an acquire, and no wait is armed any more (log 49). -/
theorem State.awaitOp_of_met (hmod : handleModule h = Config.moduleNumber)
    (met : (s.baton (handleKey h)).err ≠ 0 ∨ ((s.baton (handleKey h)).count - T).toNat < 2 ^ 31) (live : Word) (keep : Nat) :
    s.awaitOp h live keep = (s.passed.withRun { s.passed.core.run with armed := none }).acquire
      (s.baton (handleKey h)).scope.val := by
  have goes := (Coro.waitMet_iff armed).2 met
  simp only [State.awaitOp, goes, if_true, State.batonScope, hmod, State.acquire]
  split <;> rfl

/-- Otherwise its context, with the live set alone, joins those of the core. -/
theorem State.awaitOp_of_unmet (ho : s.ordinary)
    (unmet : ¬ ((s.baton (handleKey h)).err ≠ 0 ∨ ((s.baton (handleKey h)).count - T).toNat < 2 ^ 31))
    (live : Word) (keep : Nat)
    (fits : s.core.roomFits (s.core.run.trimLive s.core.lanes live keep).blocks = true) :
    s.awaitOp h live keep = (s.afterSuspend live keep).register h s.core.run.cnum := by
  obtain ⟨-, hslot, -, hstrip, -, hflight, -⟩ := ho
  have waits : s.core.run.waitMet h (s.baton (handleKey h)) = false := by
    rw [Bool.eq_false_iff]
    exact fun met => unmet ((Coro.waitMet_iff armed).1 met)
  rw [State.awaitOp, waits]
  exact congrArg (State.register · h s.core.run.cnum)
    (State.saveContext_of_fits (k := s.suspended live keep) hslot hflight hstrip fits .waiting .await)

end

/-! ## The results -/

section
variable {s : State} {g : Guard} (hg : s.enables g) (k : Fin 64) (a b : Fin 32)
include hg

theorem exec_await : exec (.await g k a b) s = .next (s.noStrip (fun s =>
    if (s.core.run.armed.map (·.1)) != some (s.reg a) then s.raise .batonArm
    else if handleModule (s.reg a) != Config.moduleNumber then s.raise .batonNotLocal
    else s.released (some 0) (fun t => t.awaitOp (s.reg a) (t.reg b) k.val))) := by
  change Host.Outcome.next (s.guarded g _) = _
  rw [State.guarded_on hg]
  rfl

variable (closed : s.core.run.strip = none)
include closed

theorem exec_await_unarmed (unarmed : ∀ T, s.core.run.armed ≠ some (s.reg a, T)) :
    exec (.await g k a b) s = .next (s.raise .batonArm) := by
  have other : s.core.run.armed.map (·.1) ≠ some (s.reg a) := fun e => by
    obtain ⟨⟨h, T⟩, armed, rfl⟩ := Option.map_eq_some_iff.1 e
    exact unarmed T armed
  rw [exec_await hg, State.noStrip_closed closed]
  simp [other]

variable {T : BitVec 32} (armed : s.core.run.armed = some (s.reg a, T))
include armed

theorem exec_await_far (far : handleModule (s.reg a) ≠ Config.moduleNumber) :
    exec (.await g k a b) s = .next (s.raise .batonNotLocal) := by
  rw [exec_await hg, State.noStrip_closed closed]
  simp [armed, far]

theorem exec_await_here (hmod : handleModule (s.reg a) = Config.moduleNumber) (drained : s.posted = false) :
    exec (.await g k a b) s = .next (s.awaitOp (s.reg a) (s.reg b) k.val) := by
  rw [exec_await hg, State.noStrip_closed closed]
  simp [armed, hmod, State.released, State.release, drained]

end

/-- Settles O7. An `await` that passes its checks is `State.awaitOp`: a wait that is met is a resumption at once, and the context
of another is saved (`State.saveContext_of_fits`), after which its core registers with the baton or polls it. -/
theorem awaitResults : Obligations.AwaitResults := by
  unfold Obligations.AwaitResults
  refine ⟨fun s g k a b T hg ho armed hmod drained => ?waits, fun s g k a b hg => ⟨fun opened => ?_,
    fun closed unarmed => exec_await_unarmed hg k a b closed unarmed,
    fun T closed armed far => exec_await_far hg k a b closed armed far⟩⟩
  case waits =>
    have closed := State.closed_of_ordinary ho
    dsimp only
    rw [exec_await_here hg k a b closed armed hmod drained]
    refine ⟨fun met => congrArg _ (State.awaitOp_of_met armed hmod met _ _), fun unmet fits => ?_⟩
    obtain ⟨rs, ag, registered, known⟩ := (s.afterSuspend (s.reg b) k.val).register_eq (s.reg a) s.core.run.cnum
    rw [State.awaitOp_of_unmet armed ho unmet _ _ fits, registered]
    refine ⟨_, rfl, rfl, rfl, rfl, rfl, by simp [State.afterSuspend, State.askPacer],
      known.imp id (List.mem_append_right _), _, List.mem_append_right _ (List.mem_singleton_self _),
      rfl, rfl, rfl, rfl, rfl, armed, fun r => ?_, fun i => ?_, fun i => ?_⟩
    · exact keepAt_get _ _ r (Bool.and_eq_true_iff.trans (and_congr decide_eq_true_iff Iff.rfl))
    · exact keepAt_get _ _ i (by simp [bitAt, Nat.testBit_eq_decide_div_mod_eq])
    · exact keepAt_get _ _ i (by simp [keepTiles_eq])
  · rw [exec_await hg, State.noStrip_open opened]

end Sys2Proof.Machine
end

section
/-! SUPPORT. `rqry`, `rwp` and `rcancel` (spec/05 R151, R152), and the channels after a module reset: what moves no channel in
bringing the supervisor up. -/

namespace Sys2Proof.Machine

/-! ## Cores whose channels are unused (R152) -/

/-- Every channel of every core that has left its reset state is as after module reset. -/
def State.ChannelsUnused (s : State) : Prop := ∀ c ∈ s.cores, c.chans = Vector.replicate 8 Chan.reset

theorem State.channelsUnused_iff (s : State) : s.ChannelsUnused ↔
    s.core.chans = Vector.replicate 8 Chan.reset ∧ ∀ c ∈ s.others, c.chans = Vector.replicate 8 Chan.reset :=
  List.forall_mem_cons

/-- Then so are those of every core. -/
theorem State.ChannelsUnused.coreAt {s : State} (hu : s.ChannelsUnused) (id : Nat) :
    (s.coreAt id).chans = Vector.replicate 8 Chan.reset := by
  obtain ⟨core, others⟩ := s.channelsUnused_iff.1 hu
  unfold State.coreAt
  split
  · exact core
  · cases e : s.others.find? (·.id = id) with
    | none => rfl
    | some c => exact others c (List.mem_of_find?_eq_some e)

theorem State.ChannelsUnused.focus {s : State} (hu : s.ChannelsUnused) (id : Nat) : (s.focus id).ChannelsUnused := by
  unfold State.focus
  split
  · exact hu
  · obtain ⟨core, others⟩ := s.channelsUnused_iff.1 hu
    exact (State.channelsUnused_iff _).2 ⟨hu.coreAt id, List.forall_mem_cons.2
      ⟨core, fun c hc => others c (List.mem_filter.1 hc).1⟩⟩

theorem State.ChannelsUnused.onCore {s : State} (hu : s.ChannelsUnused) (id : Nat) {f : State → State}
    (hf : ∀ t, t.ChannelsUnused → (f t).ChannelsUnused) : (s.onCore id f).ChannelsUnused := (hf _ (hu.focus id)).focus _

/-- `t` has the other cores of `s`, and the channels of its core. -/
def State.SameChannels (s t : State) : Prop := t.core.chans = s.core.chans ∧ t.others = s.others

theorem State.SameChannels.unused {s t : State} (same : s.SameChannels t) (hu : s.ChannelsUnused) : t.ChannelsUnused := by
  rw [State.channelsUnused_iff, same.1, same.2]
  exact s.channelsUnused_iff.1 hu

/-! ## A new coroutine moves no channel (R163, R164) -/

theorem Core.makeRoom_chans {n : Nat} {cand : List Coro} {c c' : Core} {b : Nat} (h : Core.makeRoom n cand c b = some c') :
    c'.chans = c.chans := by
  induction n generalizing cand c with
  | zero =>
    rw [Core.makeRoom] at h
    split at h <;> cases h
    rfl
  | succ n ih =>
    rw [Core.makeRoom] at h
    split at h
    · cases h
      rfl
    · split at h
      · cases h
      · dsimp only at h
        split at h
        · have moved := ih h
          exact moved
        · exact ih h

theorem Core.placeContext_chans {c c' : Core} {k : Coro} (h : c.placeContext k = some c') : c'.chans = c.chans := by
  unfold Core.placeContext at h
  split at h
  · next roomy e =>
    cases h
    exact (Core.makeRoom_chans e :)
  · split at h <;> cases h
    rfl

theorem State.writeSpills_sameChannels (s : State) (old : List Coro) : s.SameChannels (s.writeSpills old) := by
  refine List.foldlRecOn (motive := s.SameChannels) _ _ ⟨rfl, rfl⟩ (fun t ht k _ => ?_)
  exact List.foldlRecOn (motive := s.SameChannels) _ _ ht (fun _ hu _ _ => hu)

theorem State.addCoro_sameChannels {s t : State} {c : Coro} {n : Nat} (h : s.addCoro c = some (n, t)) : s.SameChannels t := by
  unfold State.addCoro at h
  dsimp only at h
  split at h
  · cases h
  · next core placed =>
    have chans := Core.placeContext_chans placed
    obtain ⟨h1, h2⟩ := State.writeSpills_sameChannels _ _
    cases h
    split
    · exact ⟨h1.trans chans, h2⟩
    · exact ⟨h1.trans chans, h2⟩

theorem State.restore_sameChannels (s : State) (k : Coro) : s.SameChannels (s.restore k) := by
  refine ⟨?_, rfl⟩
  simp only [State.restore, Core.modCurrent, Core.setLiveness]
  split <;> split <;> rfl

/-! ## Module reset (R413) -/

theorem State.startSupervisor_channelsUnused {s : State} (hu : s.ChannelsUnused) : s.startSupervisor.ChannelsUnused := by
  unfold State.startSupervisor
  split
  · exact hu
  · refine State.ChannelsUnused.onCore (by exact hu) _ (fun t ht => ?_)
    dsimp only
    split
    · exact ht
    · next n t1 added =>
      have started := (State.addCoro_sameChannels added).unused ht
      split
      · exact started
      · next k _ => exact State.SameChannels.unused (t := (t1.restore k).touch k.asid) (t1.restore_sameChannels k) started

theorem failedCores_chans {c : Core} (hc : c ∈ failedCores) : c.chans = Vector.replicate 8 Chan.reset := by
  obtain ⟨d, -, hc⟩ := List.mem_flatMap.1 hc
  obtain ⟨i, -, rfl⟩ := List.mem_map.1 hc
  rfl

theorem State.powerOn_channelsUnused (s : State) : s.powerOn.ChannelsUnused := by
  refine (State.channelsUnused_iff _).2 ⟨?_, fun c hc => failedCores_chans (List.mem_filter.1 hc).1⟩
  change ((failedCores.find? (·.id == 0)).getD (Core.reset 0)).chans = _
  cases e : failedCores.find? (·.id == 0) with
  | none => rfl
  | some c => exact failedCores_chans (List.mem_of_find?_eq_some e)

theorem State.resetModule_channelsUnused (s : State) : s.resetModule.ChannelsUnused :=
  State.startSupervisor_channelsUnused (by exact s.powerOn_channelsUnused)

/-! ## The instructions (R151, R152) -/

theorem Chan.query_eq (c : Chan) : c.query = BitVec.ofNat 64 (c.state.code * 2 ^ 62 + (if c.can then 2 ^ 61 else 0) +
    (if c.shp then 2 ^ 60 else 0) + c.cause.code * 2 ^ 54 + c.done % 2 ^ 40) := by
  simp only [Chan.query, bit01_mul, w64]

theorem State.cancelChan_of_over {s : State} {h : Fin 8} (hc : (s.core.chans[h]).cancels = false) : s.cancelChan h = s := by
  rw [State.cancelChan, if_neg (Bool.eq_false_iff.1 hc)]

theorem State.cancelChan_of_cancels {s : State} {h : Fin 8} (hc : (s.core.chans[h]).cancels = true) : s.cancelChan h =
    (s.modCore (fun c => { c with chans := c.chans.set h { c.chans[h] with state := .cancelling } })).push
      (.relayCancelComplete s.core.id h) := by
  rw [State.cancelChan, if_pos hc]
  have stopped : (s.core.chans[h]).cancel = { s.core.chans[h] with state := .cancelling } := by rw [Chan.cancel, if_pos hc]
  simp only [State.modCore, stopped]

section
variable {s : State} {g : Guard} (hg : s.enables g) (d : Fin 32) (h : Fin 8)
include hg

theorem exec_rwp : exec (.rwp g d h) s = .next (s.wrote d (s.core.chans[h]).wp) := by
  change Host.Outcome.next (s.guarded g (fun s => (s.setS d (s.core.chans[h]).wp).advance)) = _
  rw [State.guarded_on hg, State.setS_advance]

theorem exec_rqry : exec (.rqry g d h) s = .next (s.wrote d (s.core.chans[h]).query) := by
  change Host.Outcome.next (s.guarded g (fun s => (s.setS d (s.core.chans[h]).query).advance)) = _
  rw [State.guarded_on hg, State.setS_advance]

omit d in
theorem exec_rcancel : exec (.rcancel g h) s = .next (s.cancelChan h).passed := by
  change Host.Outcome.next (s.guarded g (fun s => (s.cancelChan h).advance)) = _
  rw [State.guarded_on hg]
  rfl

end

/-! ## The results -/

/-- Settles O29. A module reset leaves every core's channels at their reset values, since bringing the supervisor up moves none
(`State.resetModule_channelsUnused`); `rqry` and `rwp` read a channel, and `rcancel` changes one whose command it stops. -/
theorem relayQueriesAndCancel : Obligations.RelayQueriesAndCancel := by
  unfold Obligations.RelayQueriesAndCancel
  intro unused
  have unused_of {s : State} (hu : s.ChannelsUnused) : unused s := fun id h => by
    have reset : (s.coreAt id).chans[h] = Chan.reset := by simp [hu.coreAt id]
    dsimp only
    rw [reset]
    exact ⟨rfl, rfl, rfl, rfl, rfl, rfl, rfl, rfl⟩
  refine ⟨unused_of ((State.channelsUnused_iff _).2 ⟨rfl, by simp [State.reset]⟩),
    fun s => ⟨_, rfl, unused_of s.resetModule_channelsUnused⟩, fun s g d h hg => ?_⟩
  dsimp only
  refine ⟨exec_rwp hg d h, ?_, fun hc => ?_, fun hc => ?_⟩
  · rw [exec_rqry hg, Chan.query_eq]
    rfl
  · rw [exec_rcancel hg, State.cancelChan_of_over hc]
  · rw [exec_rcancel hg, State.cancelChan_of_cancels hc]
    let stopping : Chan := { s.core.chans[h] with state := .cancelling }
    have stopped : (s.core.chans.set h stopping)[h] = stopping := Vector.getElem_set_self ..
    have delivered := congrArg Chan.done stopped
    exact ⟨_, rfl, congrArg Chan.state stopped, delivered,
      fun x hx => Vector.getElem_set_ne h.isLt x.isLt (Fin.val_ne_of_ne hx.symm),
      List.mem_append_right _ (List.mem_singleton_self _), rfl, rfl⟩

end Sys2Proof.Machine
end

section
/-! SUPPORT. What `cset` writes (spec/08 R215 and Table 11, spec/06 R177): one form for the registers of the coroutine, one for
the privileged ones, and the causes of the others. -/

namespace Sys2Proof.Machine

section
variable {s : State} {g : Guard} (hg : s.enables g) {n : Fin 64} {a : Fin 32}
include hg

theorem exec_cset_of_check (hc : s.cregCheck n.val true = none) :
    exec (.cset g n a) s = .next (s.cregWrite n.val (s.reg a)).advance := by
  change Host.Outcome.next (s.checked (s.cregCheck n.val true) fun s => s.guarded g fun s =>
    (s.cregWrite n.val (s.getS a)).advance) = _
  rw [hc]
  exact congrArg Host.Outcome.next (State.guarded_on hg fun s => (s.cregWrite n.val (s.getS a)).advance)

omit hg in
theorem exec_cset_of_cause {x : Cause} (hc : s.cregCheck n.val true = some x) : exec (.cset g n a) s = .next (s.raise x) := by
  change Host.Outcome.next (s.checked (s.cregCheck n.val true) _) = _
  rw [hc]
  rfl

omit hg in
/-- A write of no control register moves the program counter. -/
theorem cregSetCoro_pc (c : Coro) (n : Nat) (v : Word) (ceil : Bool) : (cregSetCoro c n v ceil).pc = c.pc := by
  unfold cregSetCoro
  split <;> rfl

/-- A register of the coroutine takes its fields, and nothing else changes (R215). -/
theorem exec_cset_coro (hp : cregPrivileged n.val = false) (hc : s.cregCheck n.val true = none) :
    exec (.cset g n a) s = .next (s.withRun
      { cregSetCoro s.core.run n.val (s.reg a) (!s.core.run.priv) with pc := s.core.run.pc + 4 }) := by
  rw [exec_cset_of_check hg hc, State.cregWrite, hp, ← cregSetCoro_pc s.core.run n.val (s.reg a) (!s.core.run.priv)]
  rfl

/-- A privileged register, in a privileged coroutine. -/
theorem exec_cset_sys (hp : cregPrivileged n.val = true) (priv : s.core.run.priv = true) :
    exec (.cset g n a) s = .next (s.cregSetSys n.val (s.reg a)).advance := by
  have assigned : cregAssigned n.val = true := by simp_all [cregPrivileged, cregAssigned]
  have writable : cregReadOnly n.val = false := by
    simp only [cregPrivileged, Bool.and_eq_true, decide_eq_true_eq] at hp
    simp only [cregReadOnly, Bool.or_eq_false_iff, beq_eq_false_iff_ne]
    omega
  rw [exec_cset_of_check hg (by simp [State.cregCheck, hp, priv, assigned, writable]), State.cregWrite, hp]
  rfl

end

/-- A register that is marked RO or not assigned. -/
theorem State.cregCheck_invalid (s : State) {n : Fin 64}
    (h : n.val ∈ [5, 6, 7, 20, 21, 22, 25, 27, 28, 29, 30, 31] ∨ 38 ≤ n.val) :
    s.cregCheck n.val true = some .cregInvalid := by
  have unprivileged : cregPrivileged n.val = false := by
    simp only [List.mem_cons, List.not_mem_nil, or_false] at h
    simp only [cregPrivileged, Bool.and_eq_false_iff, decide_eq_false_iff_not]
    omega
  have refused : (!cregAssigned n.val || (true && cregReadOnly n.val)) = true := by
    simp only [List.mem_cons, List.not_mem_nil, or_false] at h
    simp only [cregAssigned, cregReadOnly, Bool.or_eq_true, Bool.not_eq_true', Bool.true_and, Bool.or_eq_false_iff,
      Bool.and_eq_false_iff, decide_eq_false_iff_not, beq_iff_eq]
    omega
  rw [State.cregCheck, unprivileged, refused]
  rfl

/-- An unprivileged write of PRIO obeys CEIL (R177). -/
theorem cregSetCoro_prio (c : Coro) (v : Word) : cregSetCoro c 19 v (!c.priv) = { c with
    prio := if c.priv = false ∧ c.ceil.toNat < (v.extractLsb' 0 5).toNat then c.ceil else v.extractLsb' 0 5 } := by
  simp [cregSetCoro]

/-- SPILLBASE stays while a context lies in the spill region (R68). -/
theorem State.cregSetSys_spillBase (s : State) (v : Word) : (s.cregSetSys 33 v).advance =
    if s.core.coros.any (fun k => k.place == .spill) then s.passed
    else { s.passed with core := { s.passed.core with spillBase := v.extractLsb' 21 31, spillEn := v.getLsbD 0 } } := by
  have spilled : s.core.inSpill.isEmpty = !s.core.coros.any (fun k => k.place == .spill) := by
    rw [Bool.eq_iff_iff]
    simp [Core.inSpill]
  simp only [State.cregSetSys, spilled]
  cases s.core.coros.any (fun k => k.place == .spill) <;> rfl

/-- FQBASE.LOG takes 6 for a value outside 6 to 16 (R363). -/
theorem State.cregSetSys_fqBase (s : State) (v : Word) : (s.cregSetSys 34 v).advance =
    s.passed.setFq (dieOf s.core.id) { s.fqAt (dieOf s.core.id) with
      en := v.getLsbD 63
      base := v.extractLsb' 12 40
      log := if 6 ≤ (v.extractLsb' 0 5).toNat ∧ (v.extractLsb' 0 5).toNat ≤ 16 then v.extractLsb' 0 5 else 6 } := by
  have low : (v.extractLsb' 0 5).toNat = v.toNat % 32 := by simp
  simp only [State.cregSetSys, low, Bool.and_eq_true, decide_eq_true_eq]
  rfl

/-- Settles O37. Each register is one case of `cregSetCoro` or of `State.cregSetSys`; PRIO, SPILLBASE and FQBASE.LOG are those
whose write depends on the state or on the value, and the causes are the outcomes of `State.cregCheck`. -/
theorem controlRegisterWrites : Obligations.ControlRegisterWrites := by
  unfold Obligations.ControlRegisterWrites
  intro s g a hg
  have coro (n : Fin 64) := exec_cset_coro hg (n := n) (a := a)
  have sys (n : Fin 64) := exec_cset_sys hg (n := n) (a := a)
  refine ⟨coro 0 rfl rfl, coro 1 rfl rfl, coro 2 rfl rfl, coro 3 rfl rfl, coro 4 rfl rfl, coro 8 rfl rfl, coro 9 rfl rfl,
    coro 10 rfl rfl, coro 11 rfl rfl, coro 12 rfl rfl, coro 13 rfl rfl, coro 14 rfl rfl, coro 15 rfl rfl, coro 16 rfl rfl,
    coro 17 rfl rfl, coro 18 rfl rfl, ?_, coro 23 rfl rfl, coro 24 rfl rfl, coro 26 rfl rfl,
    fun priv => ⟨sys 32 rfl priv, ?_, ?_, sys 35 rfl priv, sys 36 rfl priv, sys 37 rfl priv⟩, fun n lo hi unpriv => ?_,
    fun n hn => exec_cset_of_cause (State.cregCheck_invalid s hn)⟩
  · exact (coro 19 rfl rfl).trans (by rw [show ((19 : Fin 64).val) = 19 from rfl, cregSetCoro_prio])
  · exact (sys 33 rfl priv).trans (congrArg _ (s.cregSetSys_spillBase _))
  · exact (sys 34 rfl priv).trans (congrArg _ (s.cregSetSys_fqBase _))
  · exact exec_cset_of_cause (by simp [State.cregCheck, cregPrivileged, lo, hi, unpriv])

end Sys2Proof.Machine
end

section
/-! SUPPORT. The checks at issue of a vector instruction and the matrix checks after them (spec/06 R160, spec/10 R251, spec/12
R304): which cause the first failing check names, and what passes all of them. -/

namespace Sys2Proof.Machine

/-! ## The checks at issue (R160, R251) -/

/-- The tile does not fit: it has elements, and more of them than a row holds or more groups than a register does (check 4). -/
theorem Coro.shapeFits_eq_false_iff (c : Coro) (lanes : Nat) : c.shapeFits lanes = false ↔
    c.vl.toNat ≠ 0 ∧ c.rc.toNat ≠ 0 ∧ (c.vlmax lanes < c.vl.toNat ∨ c.rgroups lanes < c.rc.toNat * c.gpr) := by
  simp only [Coro.shapeFits, Bool.or_eq_false_iff, beq_eq_false_iff_ne, Bool.and_eq_false_iff, decide_eq_false_iff_not,
    Nat.not_le, and_assoc]

theorem State.vIssue_of_cause {s : State} {op : VOp} {x : Cause} (h : s.core.run.issueCause s.core.lanes op = some x)
    (k : State → State) : s.vIssue op k = s.raise x := by
  rw [State.vIssue, h]

/-- What names registers within the configuration, of elements that fit, in a tile that fits, passes checks 1 to 4. -/
theorem State.issueCause_of_issues {s : State} {op : VOp} (h : s.issues op.regs op.width) (ok : op.okType = true) :
    s.core.run.issueCause s.core.lanes op = none := by
  obtain ⟨lanes, named, width, shape, -, -⟩ := h
  have configured : op.regs.any (fun v => decide (s.core.run.nregs ≤ v.val)) = false := by
    simpa [List.any_eq_false] using named
  simp [Coro.issueCause, lanes, configured, Nat.not_lt.2 width, shape, ok]

theorem State.vIssue_of_issues {s : State} {op : VOp} (h : s.issues op.regs op.width) (ok : op.okType = true)
    (k : State → State) : s.vIssue op k = k s := by
  rw [State.vIssue, State.issueCause_of_issues h ok]

/-- The causes of an instruction of three registers and an integer type, in the order of R160. -/
theorem Coro.issueCause_vvv (c : Coro) (lanes : Nat) (d a b : Fin 64) (reads : List (Fin 64)) (masks : List (Fin 8)) :
    c.issueCause lanes ⟨[d, a, b], c.tyBytes, c.intType, reads, masks, [], [], none⟩ =
      if lanes = 0 then some .laneRetired
      else if c.nregs ≤ max d.val (max a.val b.val) then some .vregUnconfigured
      else if c.wb < c.tyBytes then some .vectorWidth
      else if c.vl.toNat ≠ 0 ∧ c.rc.toNat ≠ 0 ∧ (c.vlmax lanes < c.vl.toNat ∨ c.rgroups lanes < c.rc.toNat * c.gpr) then
        some .vectorShape
      else if 8 ≤ c.ty then some .vectorType
      else none := by
  have unconfigured : ([d, a, b].any fun v => decide (c.nregs ≤ v.val)) = true ↔
      c.nregs ≤ max d.val (max a.val b.val) := by simp
  simp only [Coro.issueCause, List.isEmpty_cons, Bool.false_eq_true, if_false, unconfigured, Bool.not_eq_true',
    Coro.shapeFits_eq_false_iff]
  simp only [Coro.intType, decide_eq_false_iff_not, Nat.not_lt]

/-! ## Completion of an instruction that nothing stops -/

theorem State.landed_of_no_flight {s : State} (h : s.core.run.flight = none) : s.landed = s := by
  rw [State.landed, h]

theorem State.finishV_of_unhindered {s : State} (h : s.unhindered) : s.finishV = s.withRun s.core.run.finishV := by
  rw [State.finishV_eq s h.2, State.landed_of_no_flight h.1]
  rfl

/-! ## The matrix checks (R304) -/

theorem Coro.emptyGrant_iff (c : Coro) : c.emptyGrant = true ↔ c.mM = 0 ∨ c.mN = 0 ∨ c.mK = 0 := by
  simp [Coro.emptyGrant, or_assoc]

theorem codeBytes_val (t : Fin 16) : codeBytes t.val = if t = 8 ∨ t = 9 then 2 else 1 := by
  simp only [codeBytes, Bool.or_eq_true, beq_iff_eq, Fin.ext_iff]
  rfl

/-- The type of an operation and the grant agree, and A and the columns of B fit the unit. -/
def Coro.grantFits (c : Coro) (lanes t : Nat) : Prop := t = c.mType ∧ c.mN ≤ 8 * lanes ∧ c.mM ≤ c.rgroups lanes

theorem Coro.matrixFits_reg_iff (c : Coro) (lanes t : Nat) (b : Fin 64) :
    c.matrixFits lanes t true (.reg b) = true ↔ c.grantFits lanes t ∧ c.mN ≤ c.rgroups lanes := by
  simp [Coro.matrixFits, Coro.grantFits, and_assoc]

theorem Coro.matrixFits_pad_iff (c : Coro) (lanes t : Nat) (b : Fin 32) :
    c.matrixFits lanes t true (.pad b) = true ↔ c.grantFits lanes t := by
  simp [Coro.matrixFits, Coro.grantFits, and_assoc]

section
variable {s : State} {g : Guard} {e : Fin 4} {a : Fin 64}

/-- An empty grant ends `mmk` and `mmga` before every matrix check. -/
theorem State.mmkOp_of_empty {b : Fin 64} {t : Nat} (h : s.issues [a, b] (codeBytes t))
    (empty : s.core.run.emptyGrant = true) : s.mmkOp g e a (.reg b) t = s.withRun s.core.run.finishV := by
  simp only [State.mmkOp, State.rowIssue]
  rw [State.vIssue_of_issues h rfl, if_pos empty]
  exact State.finishV_of_unhindered h.2.2.2.2.2

theorem State.mmgaOp_of_empty {b : Fin 64} {t : Nat} (h : s.issues [a, b] (codeBytes t))
    (empty : s.core.run.emptyGrant = true) : s.mmgaOp g e a (.reg b) t = s.withRun s.core.run.finishV := by
  simp only [State.mmgaOp, State.rowIssue]
  rw [State.vIssue_of_issues h rfl, if_pos empty]
  exact State.finishV_of_unhindered h.2.2.2.2.2

theorem State.mmkOp_of_misfit {b : Fin 64} {t : Nat} (h : s.issues [a, b] (codeBytes t))
    (work : s.core.run.emptyGrant = false) (misfit : s.core.run.matrixFits s.core.lanes t true (.reg b) = false) :
    s.mmkOp g e a (.reg b) t = s.raise .matrixShape := by
  simp only [State.mmkOp, State.rowIssue]
  rw [State.vIssue_of_issues h rfl]
  simp [work, misfit]

/-- A scratchpad operand below the own window, or misaligned, is met after the checks of the shape. -/
theorem State.mmkOp_of_bad_operand {b : Fin 32} {t : Nat} (h : s.issues [a] (codeBytes t))
    (work : s.core.run.emptyGrant = false) (fits : s.core.run.matrixFits s.core.lanes t true (.pad b) = true)
    (bad : (s.reg b).toNat < 2 ^ 64 - 2 ^ 18 ∨ (s.reg b).toNat % 128 ≠ 0) :
    s.mmkOp g e a (.pad b) t = s.raiseTrap { cause := .matrixOperand, addr := s.reg b } := by
  have rows : s.bRows (.pad b) s.core.run.mN = .error (.matrixOperand, s.reg b) := by
    simp only [State.bRows, State.getS_eq_reg]
    exact if_pos (Bool.or_eq_true_iff.2 (bad.imp decide_eq_true bne_iff_ne.2))
  simp only [State.mmkOp, State.rowIssue]
  rw [State.vIssue_of_issues h rfl]
  simp only [work, fits, rows]
  rfl

end

/-- Settles O16. The checks at issue are `Coro.issueCause`, in its order; the matrix checks stand behind them in `State.mmkOp`
and `State.mmgaOp`, after the test for an empty grant. -/
theorem issueAndMatrixChecks : Obligations.IssueAndMatrixChecks := by
  unfold Obligations.IssueAndMatrixChecks
  refine ⟨fun s g c d a b => ?_, fun s g c e a b k t => ?_⟩
  · intro run cause x hx
    have failed := (run.issueCause_vvv s.core.lanes d a b [a, b] [g.idx]).trans hx
    change Host.Outcome.next (s.vvv g d a b Coro.intType elAdd) = _
    unfold State.vvv State.elementwise State.sweep
    exact congrArg Host.Outcome.next (State.vIssue_of_cause failed _)
  · intro x w fits
    have width : w = codeBytes t.val := (codeBytes_val t).symm
    rw [width]
    refine ⟨fun zero issued => ?_, fun hM hN hK => ?_⟩
    · have empty := x.emptyGrant_iff.2 zero
      exact ⟨congrArg Host.Outcome.next (State.mmkOp_of_empty issued empty),
        congrArg Host.Outcome.next (State.mmgaOp_of_empty issued empty)⟩
    · have work : x.emptyGrant = false := by
        rw [Bool.eq_false_iff, Ne, Coro.emptyGrant_iff]
        omega
      refine ⟨fun issued misfit => ?_, fun issued fit bad => ?_⟩
      · have misfit := mt (x.matrixFits_reg_iff s.core.lanes t.val b).1 misfit
        exact congrArg Host.Outcome.next (State.mmkOp_of_misfit issued work (Bool.eq_false_iff.2 misfit))
      · have fit := (x.matrixFits_pad_iff s.core.lanes t.val k).2 fit
        exact congrArg Host.Outcome.next (State.mmkOp_of_bad_operand issued work fit bad)

end Sys2Proof.Machine
end

section
/-! SUPPORT. `spawn` (spec/06 R157, R164): the lowest free coroutine number, and the context of a new coroutine that the call
room takes. -/

namespace Sys2Proof.Machine

/-! ## The lowest free number (R157) -/

/-- The search ends at a free number, unless every number that it looks at is in use; those before its end are. -/
theorem Core.freeNumber_spec (c : Core) (fuel n : Nat) : n ≤ c.freeNumber fuel n ∧ c.freeNumber fuel n ≤ n + fuel ∧
    (∀ m, n ≤ m → m < c.freeNumber fuel n → c.numberUsed m = true) ∧
    (c.freeNumber fuel n < n + fuel → c.numberUsed (c.freeNumber fuel n) = false) := by
  induction fuel generalizing n with
  | zero => simp only [Core.freeNumber]; exact ⟨by omega, by omega, fun m _ _ => by omega, fun h => by omega⟩
  | succ fuel ih =>
    rw [Core.freeNumber]
    split
    · next used =>
      obtain ⟨lo, hi, before, free⟩ := ih (n + 1)
      refine ⟨by omega, by omega, fun m hm hlt => ?_, fun h => free (by omega)⟩
      rcases Nat.eq_or_lt_of_le hm with rfl | later
      · exact used
      · exact before m later hlt
    · next free => exact ⟨by omega, by omega, fun m _ _ => by omega, fun _ => by simpa using free⟩

/-- A core's coroutines use no more numbers than there are coroutines. -/
theorem Core.length_le_of_numbersUsed {c : Core} {n : Nat} (h : ∀ m < n, c.numberUsed m = true) : n ≤ c.allCoros.length := by
  have named : List.range n ⊆ c.allCoros.map (fun k => k.cnum.toNat) := fun m hm => by
    simpa [Core.numberUsed] using h m (List.mem_range.1 hm)
  simpa using (List.subperm_of_subset List.nodup_range named).length_le

/-- The number of a new coroutine is the lowest that no coroutine of the core has. -/
theorem Core.freeNumber_lowest (c : Core) : let n := c.freeNumber c.allCoros.length 0
    n ≤ c.allCoros.length ∧ c.numberUsed n = false ∧ ∀ m < n, c.numberUsed m = true := by
  obtain ⟨-, hi, before, free⟩ := c.freeNumber_spec c.allCoros.length 0
  refine ⟨by omega, ?_, fun m hm => before m (Nat.zero_le m) hm⟩
  by_contra used
  have last : ¬ c.freeNumber c.allCoros.length 0 < 0 + c.allCoros.length := fun inside => used (free inside)
  have crowded := Core.length_le_of_numbersUsed (c := c) (n := c.freeNumber c.allCoros.length 0 + 1) fun m hm => by
    rcases Nat.lt_succ_iff_lt_or_eq.1 hm with below | rfl
    · exact before m (Nat.zero_le m) below
    · simpa using used
  omega

/-! ## The new coroutine (R163, R164) -/

/-- A new coroutine as the core in focus takes it, under its number. -/
def State.newborn (s : State) (c : Coro) : Coro :=
  let n := s.core.freeNumber s.core.allCoros.length 0
  { c.smallContext with cnum := BitVec.ofNat 10 n, inc := s.core.inc n + 1, lastRun := s.stamp, since := s.stamp }

/-- Its core has it where its context has been placed, and decides what runs next if none does. -/
theorem State.addCoro_eq (s : State) (c : Coro) : s.addCoro c = (s.core.placeContext (s.newborn c)).map fun core =>
    let n := s.core.freeNumber s.core.allCoros.length 0
    let s1 := State.writeSpills { s with
      core := { core with incs := (n, s.core.inc n + 1) :: core.incs.filter (·.1 != n) }, stamp := s.stamp + 1 } s.core.coros
    (n, if s1.core.liveness == .idle then s1.askPacer else s1) := by
  unfold State.addCoro
  change (match s.core.placeContext (s.newborn c) with
    | none => none
    | some core => some _) = _
  cases s.core.placeContext (s.newborn c) <;> rfl

theorem State.addCoro_of_no_place {s : State} {c : Coro} (h : s.core.placeContext (s.newborn c) = none) :
    s.addCoro c = none := by
  rw [State.addCoro_eq, h]
  rfl

theorem State.newborn_blocks (s : State) (c : Coro) : (s.newborn c).blocks = 1 := by
  change ceilDiv 512 512 = 1
  decide

/-- The state with the new coroutine in the call room: no other context moves, and the incarnation counts `is` and the starter
`st` are what else may have changed. -/
def State.spawned (s : State) (c : Coro) (is : List (Nat × BitVec 16)) (st : Starter) : State := { s with
  stamp := s.stamp + 1, starter := st
  core := { s.core with incs := is, coros := s.core.coros ++ [{ s.newborn c with place := .callRoom }] } }

/-- A core that runs a coroutine takes another where its call room has a block. -/
theorem State.addCoro_of_fits {s : State} (ho : s.ordinary) (fits : s.core.roomFits 1 = true) (c : Coro) :
    ∃ is, s.addCoro c = some (s.core.freeNumber s.core.allCoros.length 0, s.spawned c is s.starter) := by
  obtain ⟨running, hslot, -⟩ := ho
  have placed := Core.placeContext_of_fits (c := s.core) (k := s.newborn c) (by rw [State.newborn_blocks]; exact fits)
  rw [State.addCoro_eq, placed, Option.map_some]
  dsimp only
  rw [State.writeSpills_of_none_new, if_neg (by simp [Core.liveness, hslot, running])]
  · exact ⟨_, rfl⟩
  · intro k hk spilled
    rcases List.mem_append.1 hk with old | new
    · exact old
    · rw [List.mem_singleton.1 new] at spilled
      cases spilled

/-- The launch's count is kept by the starter alone. -/
theorem State.spawned_countSpawn (s : State) (c : Coro) (is : List (Nat × BitVec 16)) :
    ∃ st, (s.spawned c is s.starter).countSpawn = s.spawned c is st := by
  unfold State.countSpawn
  split
  · exact ⟨s.starter, rfl⟩
  · exact ⟨_, rfl⟩

theorem State.spawnOp_of_fits {s : State} (ho : s.ordinary) (few : s.core.allCoros.length < 1024)
    (fits : s.core.roomFits 1 = true) (d : Fin 32) (pc arg : Word) : ∃ is st, s.spawnOp d pc arg =
      (s.spawned (s.core.run.child s.core.lanes pc arg) is st).wrote d
        (BitVec.ofNat 64 (s.core.freeNumber s.core.allCoros.length 0 * 2 ^ 8)) := by
  obtain ⟨is, added⟩ := State.addCoro_of_fits ho fits (s.core.run.child s.core.lanes pc arg)
  obtain ⟨st, counted⟩ := s.spawned_countSpawn (s.core.run.child s.core.lanes pc arg) is
  refine ⟨is, st, ?_⟩
  rw [State.spawnOp, if_neg (Nat.not_le.2 few), added]
  dsimp only
  rw [counted, State.setS_advance, w64]

/-! ## The instruction -/

section
variable {s : State} {g : Guard} (hg : s.enables g) (ho : s.ordinary) (drained : s.posted = false) (d a b : Fin 32)
include hg ho drained

theorem exec_spawn : exec (.spawn g d a b) s = .next (s.spawnOp d (s.reg a) (s.reg b)) := by
  change Host.Outcome.next (s.guarded g _) = _
  rw [State.guarded_on hg, State.noStrip_closed (State.closed_of_ordinary ho)]
  simp only [State.released, State.release, drained]
  rfl

end

/-- The coroutines of a core that runs one. -/
theorem State.allCoros_of_ordinary {s : State} (ho : s.ordinary) : s.core.allCoros = s.core.run :: s.core.coros := by
  obtain ⟨running, hslot, -⟩ := ho
  simp [Core.allCoros, running, hslot]

/-- The registers that a child begins with: its argument, its parent's number, and zeros (R164). -/
theorem Coro.child_reg (c : Coro) (lanes : Nat) (pc arg : Word) (r : Fin 32) : (c.child lanes pc arg).s[r] =
    if r = 2 then c.cnum.setWidth 64 else if r = 1 then arg else 0 := by
  have number : w64 c.cnum.toNat = c.cnum.setWidth 64 := BitVec.ofNat_toNat ..
  have regs : (c.child lanes pc arg).s = ((Vector.replicate 32 0).set 1 arg).set 2 (c.cnum.setWidth 64) := by
    rw [← number]
    rfl
  rw [regs]
  simp only [Fin.getElem_fin, Vector.getElem_set, Vector.getElem_replicate, Fin.ext_iff]
  simp only [eq_comm (b := r.val)]
  rfl

/-- Settles O6. A full core and one without room answer before anything changes; otherwise the new context joins the core's
under the lowest free number (`Core.freeNumber_lowest`, `State.addCoro_of_fits`), and only the launch's count changes besides. -/
theorem spawnMakesAReadyCoroutine : Obligations.SpawnMakesAReadyCoroutine := by
  unfold Obligations.SpawnMakesAReadyCoroutine
  intro s g d a b hg ho drained
  rw [exec_spawn hg ho drained]
  have count : s.core.allCoros.length = s.core.coros.length + 1 := by rw [State.allCoros_of_ordinary ho, List.length_cons]
  refine ⟨fun full => ?_, fun room crowded => ?_, fun room fits => ?_⟩
  · rw [State.spawnOp, if_pos (by omega), State.setS_advance]
  · rw [State.spawnOp, if_neg (by omega), State.addCoro_of_no_place (crowded _ rfl)]
    exact congrArg _ (State.setS_advance ..)
  · obtain ⟨is, st, made⟩ := State.spawnOp_of_fits ho (by omega) fits d (s.reg a) (s.reg b)
    obtain ⟨small, free, lowest⟩ := s.core.freeNumber_lowest
    have regs := s.core.run.child_reg s.core.lanes (s.reg a) (s.reg b)
    rw [made]
    refine ⟨_, rfl, s.core.freeNumber s.core.allCoros.length 0, _,
      List.mem_append_right _ (List.mem_singleton_self _), by omega, free, lowest, rfl, rfl, rfl,
      regs 1, regs 2, fun r h1 h2 => (regs r).trans ((if_neg h2).trans (if_neg h1)), rfl, rfl, rfl, rfl, rfl, rfl, rfl, rfl, rfl,
      fun c hc => List.mem_append_left _ hc, rfl, rfl, rfl, rfl⟩

end Sys2Proof.Machine
end

section
/-! SUPPORT. What moves the focus: `State.focus` and what is built of it alone (log 3). Every other operation leaves the number of
the core in focus as it is; an operation that leaves that core whole has a rule `_core`, and one that changes it a rule `_id`. -/

namespace Sys2Proof.Machine

/-! ## The focus -/

@[simp] theorem State.coreAt_id (s : State) (id : Nat) : (s.coreAt id).id = id := by
  unfold State.coreAt
  split
  · next here => exact here
  · cases e : s.others.find? (·.id = id) with
    | none => rfl
    | some c => simpa using List.find?_some e

@[simp] theorem State.focus_id (s : State) (id : Nat) : (s.focus id).core.id = id := by
  unfold State.focus
  split
  · next here => exact here
  · exact s.coreAt_id id

@[simp] theorem State.onCore_id (s : State) (id : Nat) (f : State → State) : (s.onCore id f).core.id = s.core.id :=
  State.focus_id ..

/-- An operation repeated over a list keeps the focus where one of it does. -/
theorem State.foldl_id {α : Type} {f : State → α → State} (h : ∀ t a, (f t a).core.id = t.core.id) (l : List α) (t : State) :
    (l.foldl f t).core.id = t.core.id := by
  induction l generalizing t with
  | nil => rfl
  | cons a l ih => rw [List.foldl_cons, ih, h]

/-- One that leaves the core in focus whole does so repeated. -/
theorem State.foldl_core {α : Type} {f : State → α → State} (h : ∀ t a, (f t a).core = t.core) (l : List α) (t : State) :
    (l.foldl f t).core = t.core := by
  induction l generalizing t with
  | nil => rfl
  | cons a l ih => rw [List.foldl_cons, ih, h]

/-! ## Changes of a core leave its number -/

section
variable (c : Core)

@[simp] theorem Core.modCurrent_id (f : Coro → Coro) : (c.modCurrent f).id = c.id := by unfold Core.modCurrent; split <;> rfl
@[simp] theorem Core.setLiveness_id (l : Live) : (c.setLiveness l).id = c.id := by unfold Core.setLiveness; split <;> rfl
@[simp] theorem Core.vacate_id : c.vacate.id = c.id := by simp [Core.vacate]
@[simp] theorem Core.trimRegs_id : c.trimRegs.id = c.id := rfl
@[simp] theorem Core.movePlace_id (n : BitVec 10) (p : Place) : (c.movePlace n p).id = c.id := rfl
@[simp] theorem Core.decided_id (n : BitVec 10) : (c.decided n).id = c.id := rfl

@[simp] theorem Core.mapCoros_id (f : Coro → Coro) : (c.mapCoros f).id = c.id := by
  simp only [Core.mapCoros]
  split <;> simp

@[simp] theorem Core.wake_id (p : Coro → Bool) : (c.wake p).id = c.id := by
  simp only [Core.wake, Core.trimRegs_id]
  repeat' split
  all_goals simp

@[simp] theorem Core.spill_id (n : Nat) : (c.spill n).id = c.id := by
  unfold Core.spill
  repeat' split
  all_goals rfl

@[simp] theorem Core.unspill_id (n : Nat) : (c.unspill n).id = c.id := by
  unfold Core.unspill
  repeat' split
  all_goals rfl

@[simp] theorem Core.refillFetch_id (asid va : Nat) : (c.refillFetch asid va).id = c.id := by
  unfold Core.refillFetch
  repeat' split
  all_goals rfl

@[simp] theorem Core.cacheWalk_id (asid va leaf level : Nat) : (c.cacheWalk asid va leaf level).id = c.id := by
  simp [Core.cacheWalk]

end

theorem Core.makeRoom_id {n : Nat} {cand : List Coro} {c c' : Core} {b : Nat} (h : Core.makeRoom n cand c b = some c') :
    c'.id = c.id := by
  induction n generalizing cand c with
  | zero =>
    rw [Core.makeRoom] at h
    split at h <;> cases h
    rfl
  | succ n ih =>
    rw [Core.makeRoom] at h
    split at h
    · cases h
      rfl
    · split at h
      · cases h
      · dsimp only at h
        split at h
        · exact (ih h).trans (Core.movePlace_id ..)
        · exact ih h

theorem Core.placeContext_id {c c' : Core} {k : Coro} (h : c.placeContext k = some c') : c'.id = c.id := by
  unfold Core.placeContext at h
  split at h
  · next e =>
    cases h
    exact (Core.makeRoom_id e :)
  · split at h <;> cases h
    rfl

/-! ## Registers, batons and records -/

section
variable (s : State)

@[simp] theorem State.mapCores_core (f : Core → Core) : (s.mapCores f).core = f s.core := rfl
@[simp] theorem State.askPacer_core : s.askPacer.core = s.core := rfl
@[simp] theorem State.setRec_core (r : QRec) : (s.setRec r).core = s.core := rfl
@[simp] theorem State.askUnloads_core : s.askUnloads.core = s.core := rfl
@[simp] theorem State.dropTags_core (n : BitVec 10) : (s.dropTags n).core = s.core := rfl
@[simp] theorem State.sendRemote_core (h : Word) (k : RemoteKind) : (s.sendRemote h k).core = s.core := rfl
@[simp] theorem State.setDomain_core (d : Nat) (x : Domain) : (s.setDomain d x).core = s.core := rfl
@[simp] theorem State.setPlane_core (p : Nat) (x : Plane) : (s.setPlane p x).core = s.core := rfl
@[simp] theorem State.setAlloc_core (a : Alloc) : (s.setAlloc a).core = s.core := rfl
@[simp] theorem State.setCcb_core (d : Nat) (b : Ccb) : (s.setCcb d b).core = s.core := rfl
@[simp] theorem State.ccbStatus_core (d n : Nat) : (s.ccbStatus d n).core = s.core := rfl
@[simp] theorem State.scrubStatus_core (n : Nat) : (s.scrubStatus n).core = s.core := rfl
@[simp] theorem State.keyEraseOp_core (n : Nat) : (s.keyEraseOp n).core = s.core := rfl
@[simp] theorem State.mctlOp_core (v : Word) : (s.mctlOp v).core = s.core := rfl
@[simp] theorem State.clearBitmap_core (d : Nat) : (s.clearBitmap d).core = s.core := rfl

@[simp] theorem State.askStarter_core : s.askStarter.core = s.core := by unfold State.askStarter; split <;> rfl

@[simp] theorem State.landed_id : s.landed.core.id = s.core.id := by unfold State.landed; split <;> rfl

@[simp] theorem State.askPending_core (core : Nat) (ps : List Pending) : (s.askPending core ps).core = s.core :=
  State.foldl_core (f := fun (t : State) (p : Pending) => t.push (.pendingDatumArrival core (bits p.coro.toNat 40 31) 0 0 false))
    (fun _ _ => rfl) _ s

@[simp] theorem State.orphan_id (left sent : List Pending) : (s.orphan left sent).core.id = s.core.id := by
  simp [State.orphan]

@[simp] theorem State.notifyStarter_core (h : Word) (b : Baton) : (s.notifyStarter h b).core = s.core := by
  simp only [State.notifyStarter]
  repeat' split
  all_goals rfl

@[simp] theorem State.wakeAll_id (scope : Nat) (p : Core → Coro → Bool) : (s.wakeAll scope p).core.id = s.core.id := by
  simp only [State.wakeAll, State.mapCores_core, Core.wake_id]
  split
  · exact State.foldl_id (f := State.acquireCore) (fun _ _ => rfl) _ s
  · rfl

@[simp] theorem State.signalLocal_id (h : Word) (n : Nat) : (s.signalLocal h n).core.id = s.core.id := by
  simp only [State.signalLocal]
  split <;> simp

@[simp] theorem State.errLocal_id (h : Word) (n : Nat) : (s.errLocal h n).core.id = s.core.id := by
  simp only [State.errLocal]
  split <;> simp

@[simp] theorem State.deviceSignal_id (h : Word) (n : Nat) : (s.deviceSignal h n).core.id = s.core.id := by
  unfold State.deviceSignal
  split_ifs <;> simp

@[simp] theorem State.deviceErr_id (h : Word) (n : Nat) : (s.deviceErr h n).core.id = s.core.id := by
  unfold State.deviceErr
  split_ifs <;> simp

@[simp] theorem State.registerSignal_id (h : Word) (o : Bool) : (s.registerSignal h o).core.id = s.core.id := by
  unfold State.registerSignal
  split_ifs <;> simp

@[simp] theorem State.modHolds_core (h : Word) (f : Nat → Nat) : (s.modHolds h f).core = s.core := by
  unfold State.modHolds
  split <;> rfl

@[simp] theorem State.holdBaton_core (h : Word) : (s.holdBaton h).core = s.core := by
  unfold State.holdBaton
  split <;> simp

@[simp] theorem State.releaseBaton_core (h : Word) : (s.releaseBaton h).core = s.core := by
  unfold State.releaseBaton
  split <;> simp

@[simp] theorem State.asked_core (h : Word) : (s.asked h).core = s.core := by unfold State.asked; split <;> rfl

@[simp] theorem State.writeRecord_id (die : Nat) (r : Record) : (s.writeRecord die r).core.id = s.core.id := by
  simp [State.writeRecord]

@[simp] theorem State.appendRecord_id (die : Nat) (trap : Bool) (r : Record) :
    (s.appendRecord die trap r).core.id = s.core.id := by
  simp only [State.appendRecord]
  split_ifs <;> simp

/-! ## Contexts and traps -/

@[simp] theorem State.writeSpills_core (old : List Coro) : (s.writeSpills old).core = s.core := by
  refine State.foldl_core (fun t k => ?_) _ s
  unfold State.writeSpill
  exact State.foldl_core (by intros; rfl) _ t

@[simp] theorem State.saveContext_id (k : Coro) (st : CState) (why : HeldWhy) : (s.saveContext k st why).core.id = s.core.id := by
  simp only [State.saveContext]
  split
  · next placed =>
    have same := Core.placeContext_id placed
    simpa using same
  · simp

@[simp] theorem State.takeTrap_id (t : Trap) : (s.takeTrap t).core.id = s.core.id := by simp [State.takeTrap]

@[simp] theorem State.trapDrained_id (t : Trap) : (s.trapDrained t).core.id = s.core.id := by
  unfold State.trapDrained
  split <;> simp

@[simp] theorem State.leavePx_id (p : PxRun) : (s.leavePx p).core.id = s.core.id := by
  unfold State.leavePx
  split <;> simp

@[simp] theorem State.endRequest_id (r : SlotRun) (n : Nat) (v : Word) : (s.endRequest r n v).core.id = s.core.id := rfl

@[simp] theorem State.raiseTrap_id (t : Trap) : (s.raiseTrap t).core.id = s.core.id := by
  unfold State.raiseTrap
  dsimp only
  repeat' split
  all_goals simp

@[simp] theorem State.restore_id (k : Coro) : (s.restore k).core.id = s.core.id := by simp [State.restore]

@[simp] theorem State.unpark_id (n : BitVec 10) : (s.unpark n).core.id = s.core.id := by
  simp only [State.unpark]
  split <;> rfl

/-! ## The switch tier (spec/03) -/

@[simp] theorem State.putGranule_core (p g bs k n b) : (s.putGranule p g bs k n b).core = s.core := rfl

@[simp] theorem State.installImage_core (p g n bs k b) : (s.installImage p g n bs k b).core = s.core := by
  simp only [State.installImage]
  split_ifs <;> rfl

@[simp] theorem State.settleImages_core (q) : (s.settleImages q).core = s.core := by
  simp only [State.settleImages]
  refine State.foldl_core (fun t e => ?_) _ _
  repeat' split
  all_goals simp

end
end Sys2Proof.Machine
end

section
/-! SUPPORT. No access moves the focus: planes, homes and the L1 (spec/02 to spec/04). Of an operation that gives more than a state,
a predicate says that the core in focus in each state that it may give has number `id`. -/

namespace Sys2Proof.Machine

/-- In the state that a stopped access leaves, if it leaves one, core `id` is in focus. -/
@[simp] def Stop.On (id : Nat) : Stop → Prop
  | .wait => True
  | .cause _ t => t.core.id = id

/-- Of an access that gives a datum and a state: core `id` is in focus in whichever state it leaves. -/
@[simp] def endsOn (id : Nat) {α : Type} : Except Stop (α × State) → Prop
  | .ok x => x.2.core.id = id
  | .error e => e.On id

/-- Of an operation that may have to wait, and then gives no state. -/
@[simp] def someOn (id : Nat) : Option State → Prop
  | some t => t.core.id = id
  | none => True

section
variable {id : Nat}

theorem endsOn_ok {α : Type} {r : Except Stop (α × State)} {x : α × State} (k : endsOn id r) (e : r = .ok x) :
    x.2.core.id = id := by rwa [e] at k

theorem endsOn_error {α : Type} {r : Except Stop (α × State)} {x : Stop} (k : endsOn id r) (e : r = .error x) : x.On id := by
  rwa [e] at k

theorem someOn_some {o : Option State} {t : State} (k : someOn id o) (e : o = some t) : t.core.id = id := by rwa [e] at k

variable {s : State} (h : s.core.id = id)
include h

theorem State.ite_id {t : State} {p : Prop} [Decidable p] (h' : t.core.id = id) : (if p then s else t).core.id = id := by
  split
  · exact h
  · exact h'

/-! ## The switch tier (spec/03) -/

theorem State.granuleDo_id {p g o n r k q f x} (e : s.granuleDo p g o n r k q f = .ok x) : x.2.core.id = id := by
  simp only [State.granuleDo] at e
  repeat' split at e
  all_goals cases e
  all_goals simpa using h

theorem State.granuleTurn_on (p off n r k q f) : endsOn id (s.granuleTurn p off n r k q f) := by
  simp only [State.granuleTurn]
  split
  · trivial
  · split
    · exact h
    · next e => exact State.granuleDo_id h e

theorem State.failover_on (p tag off n tenant r k f) : endsOn id (s.failover p tag off n tenant r k f) := by
  simp only [State.failover]
  repeat' split
  case h_2.isFalse => exact State.granuleTurn_on (by simp [h]) ..
  all_goals exact h

theorem State.planeDo_on (p tag off n tenant r k f) : endsOn id (s.planeDo p tag off n tenant r k f) := by
  simp only [State.planeDo]
  split
  · exact State.failover_on h ..
  · split
    · exact h
    · split_ifs
      · exact h
      · exact State.failover_on h ..
      · exact State.granuleTurn_on h ..
      · exact State.granuleTurn_on h ..

/-! ## What HBM and host memory keep (spec/02) -/

omit h in
@[simp] theorem State.rekey_core (k a) : (s.rekey k a).core = s.core := by
  simp only [State.rekey]
  split_ifs <;> rfl

omit h in
@[simp] theorem State.rekeyAll_core (k a n) : (s.rekeyAll k a n).core = s.core := by
  induction n generalizing s a with
  | zero => rfl
  | succ n ih => exact (ih _).trans (State.rekey_core k a)

omit h in
@[simp] theorem State.keyedWrite_core (k a bs) : (s.keyedWrite k a bs).core = s.core := by
  simp only [State.keyedWrite]
  split_ifs <;> simp

omit h in
@[simp] theorem State.allocL2_core (d st pa k sl b) : (s.allocL2 d st pa k sl b).core = s.core := rfl
omit h in
@[simp] theorem State.dirtyL2_core (st) : (s.dirtyL2 st).core = s.core := rfl
omit h in
@[simp] theorem State.revoke_core (p st n) : (s.revoke p st n).core = s.core := rfl
omit h in
@[simp] theorem State.forget_core (st n) : (s.forget st n).core = s.core := rfl

omit h in
@[simp] theorem State.memoryEvent_id : s.memoryEvent.core.id = s.core.id := by simp [State.memoryEvent]

omit h in
@[simp] theorem State.counterEvent_id (f b) : (s.counterEvent f b).core.id = s.core.id := by
  simp only [State.counterEvent]
  split_ifs <;> simp

omit h in
@[simp] theorem State.countAccess_id (pa b) : (s.countAccess pa b).core.id = s.core.id := by
  simp only [State.countAccess]
  split_ifs <;> simp

theorem State.logAccess_on (r) : someOn id (s.logAccess r) := by
  simp only [State.logAccess]
  repeat' split
  all_goals simp [h]

theorem State.homeArrive_on (r) : someOn id (s.homeArrive r) := by
  have k := State.logAccess_on h r
  simp only [State.homeArrive]
  split
  · trivial
  · next e =>
    rw [e] at k
    exact State.ite_id (by simpa using k) k

theorem State.blockDo_on (k a n r f) : endsOn id (s.blockDo k a n r f) := by
  simp only [State.blockDo]
  repeat' split
  all_goals simp [h]

omit h in
/-- Host memory is reached through the link, which changes no core. -/
theorem State.hostDo_core {a n r f x} (e : s.hostDo a n r f = .ok x) : x.2.core = s.core := by
  simp only [State.hostDo] at e
  repeat' split at e
  all_goals cases e
  all_goals rfl

theorem State.hostDo_on (a n r f) : endsOn id (s.hostDo a n r f) := by
  simp only [State.hostDo]
  repeat' split
  all_goals simp [h]

/-! ## Homes and the L1 (spec/02, spec/04) -/

omit h in
@[simp] theorem State.putHome_core (x st bs) : (s.putHome x st bs).core = s.core := by
  simp only [State.putHome]
  repeat' split
  · rfl
  · simp
  · next e => exact (State.hostDo_core e :)
  · rfl
  · rfl

omit h in
@[simp] theorem State.performWords_core (l ws) : (s.performWords l ws).core = s.core := by
  have k := State.foldl_core (f := fun (t : State) (r : Nat × List Byte) => t.putHome l.x (l.line * 64 + r.1) r.2) (by simp)
    (l.runs (l.dirty &&& wordBytes (ws &&& ~~~ l.bad)))
    { s with caches := s.caches.revokeWords (· != l.core) l.line (ws &&& wordsOf l.dirty) }
  simp only [State.performWords]
  split_ifs
  · exact k
  · exact k

omit h in
@[simp] theorem State.registerCore_core (n) : (s.registerCore n).core = s.core := by
  refine State.foldl_core (fun t l => ?_) _ s
  exact State.performWords_core l l.loose

omit h in
@[simp] theorem State.countBack_id (l) : (s.countBack l).core.id = s.core.id := by
  simp only [State.countBack]
  repeat' split
  all_goals simp

omit h in
@[simp] theorem State.writeBack_id (l) : (s.writeBack l).core.id = s.core.id := by
  simp only [State.writeBack]
  split_ifs <;> simp

omit h in
@[simp] theorem State.writeBackAll_id (p) : (s.writeBackAll p).core.id = s.core.id :=
  State.foldl_id (fun _ _ => State.writeBack_id _) _ s

theorem State.homeDo_on (iss x n r w q f) : endsOn id (s.homeDo iss x n r w q f) := by
  have arrives : ∀ {req t}, (if q = true then some s else s.homeArrive req) = some t → t.core.id = id := by
    intro req t e
    split at e
    · cases e
      exact h
    · exact someOn_some (State.homeArrive_on h _) e
  simp only [State.homeDo]
  split
  · split
    · trivial
    · next e => exact State.blockDo_on (by split <;> simp [arrives e]) ..
  · split
    · trivial
    · next e => exact State.hostDo_on (by split <;> simp [arrives e]) ..
  · exact h

theorem State.beatArrive_on (iss x n w) : someOn id (s.beatArrive iss x n w) := by
  simp only [State.beatArrive]
  split
  · exact State.homeArrive_on h _
  · exact State.homeArrive_on h _
  · exact h

omit h in
@[simp] theorem State.l1Find_id (x a) : (s.l1Find x a).2.core.id = s.core.id := by
  simp only [State.l1Find]
  repeat' split
  all_goals simp

omit h in
@[simp] theorem State.l1Line_id (iss x a) : (s.l1Line iss x a).2.core.id = s.core.id := by
  have k := State.l1Find_id (s := s) x a
  simp only [State.l1Line]
  repeat' split
  all_goals simp_all

theorem State.l1Read_on (iss x a n) : endsOn id (s.l1Read iss x a n) := by
  have k := State.homeDo_on ((State.l1Line_id iss x a).trans h) iss x.lineOf 64 true false false (fun _ => none)
  simp only [State.l1Read]
  repeat' split
  all_goals simp_all

omit h in
@[simp] theorem State.l1Write_id (iss x a bs) : (s.l1Write iss x a bs).core.id = s.core.id :=
  (State.foldl_id (fun _ _ => by simp) _ _).trans (State.l1Line_id (s := s) iss x a)

omit h in
@[simp] theorem State.l1Leave_id (a n) : (s.l1Leave a n).core.id = s.core.id := State.writeBackAll_id _

theorem State.relayDo_on (iss x a n r w f) : endsOn id (s.relayDo iss x a n r w f) := by
  have k := State.homeDo_on (id := id) (s := if w then s.l1Leave a n else s) (by split <;> simp [h]) iss x n r w true f
  simp only [State.relayDo]
  split
  · exact h
  · split
    · next e => exact endsOn_error k e
    · next e =>
      have ok := endsOn_ok k e
      cases w <;> exact ok

theorem State.outerDo_on (iss x n r w fr f) : endsOn id (s.outerDo iss x n r w fr f) := by
  simp only [State.outerDo]
  split
  · exact State.blockDo_on h ..
  · exact State.planeDo_on h ..
  · exact h
  · exact h
  · exact h
  · split
    · exact h
    · split_ifs
      · exact State.relayDo_on h ..
      · exact State.homeDo_on h ..
      · exact State.homeDo_on ((State.l1Leave_id ..).trans h) ..
      · exact State.l1Read_on h ..
      · split
        · exact h
        · exact (State.l1Write_id ..).trans h

end
end Sys2Proof.Machine
end

section
/-! SUPPORT. Nothing that a register write brings about moves the focus, nor what suspends or ends a coroutine. -/

namespace Sys2Proof.Machine

section
variable (s : State)

/-! ## Coroutines (spec/06, spec/15) -/

@[simp] theorem State.countEnd_core (c : Coro) (b : Bool) : (s.countEnd c b).core = s.core := by
  simp only [State.countEnd, State.askStarter_core]
  repeat' split
  all_goals simp

@[simp] theorem State.endRunning_id (b : Bool) : (s.endRunning b).core.id = s.core.id := by
  simp only [State.endRunning]
  split <;> simp

@[simp] theorem State.endSaved_id (c : Coro) : (s.endSaved c).core.id = s.core.id := by simp [State.endSaved]

@[simp] theorem State.abortTag_id (n : Nat) (g : BitVec 16) (c : BitVec 8) : (s.abortTag n g c).core.id = s.core.id :=
  (State.appendRecord_id ..).trans (State.foldl_id (fun _ _ => State.errLocal_id ..) _ s)

@[simp] theorem State.sendAborts_id (l : List (BitVec 16 × BitVec 8)) : (s.sendAborts l).core.id = s.core.id :=
  State.foldl_id (fun _ _ => by simp) l s

@[simp] theorem State.killCoro_id (n : BitVec 10) : (s.killCoro n).core.id = s.core.id := by
  simp only [State.killCoro]
  repeat' split
  all_goals simp

@[simp] theorem State.killSoon_id (n : BitVec 10) : (s.killSoon n).core.id = s.core.id := by
  unfold State.killSoon
  split <;> simp

@[simp] theorem State.takeDeferred_id : s.takeDeferred.core.id = s.core.id := by
  simp only [State.takeDeferred]
  repeat' split
  all_goals simp

@[simp] theorem State.continueHeld_id : s.continueHeld.core.id = s.core.id := by
  unfold State.continueHeld
  split <;> simp

@[simp] theorem State.preempt_id : s.preempt.core.id = s.core.id := by
  simp only [State.preempt]
  repeat' split
  all_goals simp

@[simp] theorem State.preemptDrained_id (why : PreemptWhy) : (s.preemptDrained why).core.id = s.core.id := by
  unfold State.preemptDrained
  split <;> simp

@[simp] theorem State.preemptFor_id (why : PreemptWhy) : (s.preemptFor why).core.id = s.core.id := by
  unfold State.preemptFor
  repeat' split
  all_goals simp

@[simp] theorem State.machineCheckCore_id : s.machineCheckCore.core.id = s.core.id := by
  simp only [State.machineCheckCore]
  refine (State.foldl_id (fun _ _ => State.appendRecord_id ..) _ _).trans ?_
  repeat' split
  all_goals simp

@[simp] theorem State.parkSaved_id (k : Coro) (t : Trap) : (s.parkSaved k t).core.id = s.core.id := by simp [State.parkSaved]

@[simp] theorem State.touch_id (a : BitVec 16) : (s.touch a).core.id = s.core.id := rfl

@[simp] theorem State.pace_id : s.pace.core.id = s.core.id := by
  simp only [State.pace]
  repeat' split
  all_goals simp

@[simp] theorem State.requestPreempt_id (why : PreemptWhy) (cut : List Nat) (e : Event) :
    (s.requestPreempt why cut e).core.id = s.core.id := by
  unfold State.requestPreempt
  split_ifs <;> simp

/-! ## Registers (spec/02 R58 to R66, spec/15 R366 to R369, spec/18 R396) -/

@[simp] theorem State.hdcfgOp_core (d : Nat) (v : Word) : (s.hdcfgOp d v).core = s.core := by
  simp only [State.hdcfgOp]
  repeat' split
  all_goals simp

@[simp] theorem State.memRegWrite_id (o : Nat) (v : Word) : (s.memRegWrite o v).core.id = s.core.id := by
  unfold State.memRegWrite
  extract_lets
  iterate 14 refine State.ite_id (by exact rfl) ?_
  exact State.ite_id (by simp) (State.ite_id (by exact rfl) rfl)

@[simp] theorem State.swRegWrite_core (o : Nat) (v : Word) : (s.swRegWrite o v).core = s.core := by
  simp only [State.swRegWrite]
  split_ifs <;> rfl

@[simp] theorem State.starterWrite_core (o : Nat) (v : Word) : (s.starterWrite o v).core = s.core := by
  simp only [State.starterWrite]
  split_ifs <;> rfl

@[simp] theorem State.closeOn_core (d n : Nat) : (s.closeOn d n).core = s.core := by
  unfold State.closeOn
  split <;> simp

@[simp] theorem State.ccmdOpenOp_core (d t i : Nat) : (s.ccmdOpenOp d t i).core = s.core := by
  unfold State.ccmdOpenOp
  repeat' split
  all_goals simp

@[simp] theorem State.ccmdResumeOp_id (d t i : Nat) : (s.ccmdResumeOp d t i).core.id = s.core.id := by
  unfold State.ccmdResumeOp
  repeat' split
  all_goals simp

@[simp] theorem State.ccmdKillOp_id (d t i : Nat) : (s.ccmdKillOp d t i).core.id = s.core.id := by
  unfold State.ccmdKillOp
  split <;> simp

@[simp] theorem State.ccmdCloseOp_core (d : Nat) : (s.ccmdCloseOp d).core = s.core := rfl

@[simp] theorem State.ccmdOp_id (d : Nat) (v : Word) : (s.ccmdOp d v).core.id = s.core.id := by
  simp only [State.ccmdOp]
  repeat' split
  all_goals simp

@[simp] theorem State.editOpen_id (d : Nat) (f : Coro → Coro) : (s.editOpen d f).core.id = s.core.id := by
  unfold State.editOpen
  split <;> simp

@[simp] theorem State.ccbWrite_id (d o : Nat) (v : Word) : (s.ccbWrite d o v).core.id = s.core.id := by
  unfold State.ccbWrite
  split_ifs <;> simp

@[simp] theorem State.hostsigOp_core (v : Word) : (s.hostsigOp v).core = s.core := by
  unfold State.hostsigOp
  split <;> rfl

@[simp] theorem State.keyLoadOp_core (n r : Nat) : (s.keyLoadOp n r).core = s.core := by
  unfold State.keyLoadOp
  repeat' split
  all_goals rfl

@[simp] theorem State.killWhere_id (id : Nat) (p : Coro → Bool) : (s.killWhere id p).core.id = s.core.id :=
  State.foldl_id (fun _ _ => State.onCore_id ..) _ s

@[simp] theorem State.cancelWhere_id (id : Nat) (p : RelayCmd → Bool) : (s.cancelWhere id p).core.id = s.core.id := by
  unfold State.cancelWhere
  refine State.foldl_id (fun t i => ?_) _ s
  split
  · split <;> simp
  · rfl

@[simp] theorem State.engagementScrubOp_id (req : Nat) : (s.engagementScrubOp req).core.id = s.core.id := by
  have cancels (ids : List Nat) (p : RelayCmd → Bool) (t : State) :
      (ids.foldl (fun t id => t.cancelWhere id p) t).core.id = t.core.id := State.foldl_id (fun _ _ => by simp) ids t
  have kills (ids : List Nat) (p : Coro → Bool) (t : State) :
      (ids.foldl (fun t id => t.killWhere id p) t).core.id = t.core.id := State.foldl_id (fun _ _ => by simp) ids t
  simp only [State.engagementScrubOp]
  split_ifs <;> simp [cancels, kills]

@[simp] theorem State.attestOp_core (req : Nat) : (s.attestOp req).core = s.core := by
  simp only [State.attestOp]
  split_ifs <;> simp

@[simp] theorem State.sysWrite_id (b : Bool) (o : Nat) (v : Word) : (s.sysWrite b o v).core.id = s.core.id := by
  unfold State.sysWrite
  extract_lets
  refine State.ite_id (by split <;> rfl) ?_
  refine State.ite_id (by simp) ?_
  iterate 2 refine State.ite_id (by exact rfl) ?_
  refine State.ite_id (by split <;> simp) ?_
  refine State.ite_id (by simp) ?_
  refine State.ite_id (by simp) ?_
  iterate 4 refine State.ite_id (by exact rfl) ?_
  refine State.ite_id ?_ rfl
  exact State.writeBackAll_id _

@[simp] theorem State.regWrite_id (b : Bool) (pa : Nat) (v : Word) : (s.regWrite b pa v).core.id = s.core.id := by
  simp only [State.regWrite]
  split_ifs <;> simp

end
end Sys2Proof.Machine
end

section
/-! SUPPORT. No access of a unit or of a core moves the focus, whatever target it reaches, nor an answer that it waits for. -/

namespace Sys2Proof.Machine

/-- Of an access whose outcome is a datum, a cause or a wait: core `id` is in focus in the state that it leaves. -/
@[simp] def Done.On (id : Nat) {α : Type} : Done α → Prop
  | .ok _ t => t.core.id = id
  | .cause _ t => t.core.id = id
  | .wait t => t.core.id = id

/-- Of an access that gives a state alone. -/
@[simp] def stateOn (id : Nat) : Except Stop State → Prop
  | .ok t => t.core.id = id
  | .error e => e.On id

section
variable {id : Nat}

theorem Done.on_of_eq {α : Type} {r r' : Done α} (k : r.On id) (e : r = r') : r'.On id := e ▸ k

theorem stateOn_ok {r : Except Stop State} {t : State} (k : stateOn id r) (e : r = .ok t) : t.core.id = id := by rwa [e] at k

end

/-! ## What asks and posts (R180, R227) -/

section
variable {s : State}

@[simp] theorem State.setFlight_id (f : Flight) : (s.setFlight f).core.id = s.core.id := rfl

theorem State.takeReply_id {c o n : Nat} {x : SlotReply × State} (e : s.takeReply c o n = some x) : x.2.core.id = s.core.id := by
  simp only [State.takeReply] at e
  repeat' split at e
  all_goals cases e
  rfl

theorem State.joinQueue_id {c : Nat} {r : SlotReq} {t : State} (e : s.joinQueue c r = some t) : t.core.id = s.core.id := by
  simp only [State.joinQueue] at e
  split at e
  all_goals cases e
  simp

theorem State.askFor_id {c : Coro} {f : Flight} {els : List SlotAccess} {x : State × Flight} (e : s.askFor c f els = some x) :
    x.1.core.id = s.core.id := by
  simp only [State.askFor] at e
  split at e
  · cases e
  · obtain ⟨t, et, rfl⟩ := Option.map_eq_some_iff.1 e
    exact (State.joinQueue_id et :)

theorem State.ask_id {p : List Pending} {els : List SlotAccess} {t : State} (e : s.ask p els = some t) : t.core.id = s.core.id := by
  simp only [State.ask] at e
  split_ifs at e
  · cases e
    rfl
  · cases e
    split
    · rfl
    · next e' => exact (State.askFor_id e' :)

@[simp] theorem State.post_id (c : Coro) (fuel : Nat) (els : List (Nat × SlotStore)) (k : Nat) :
    (s.post c fuel els k).1.core.id = s.core.id := by
  induction fuel generalizing s els k with
  | zero => rfl
  | succ n ih =>
    unfold State.post
    split
    · rfl
    · dsimp only
      split
      · rfl
      · next e => rw [ih, State.joinQueue_id e]

@[simp] theorem State.deferFailure_id (d : Deferred) : (s.deferFailure d).core.id = s.core.id := by
  unfold State.deferFailure
  split <;> rfl

@[simp] theorem State.acquire_id (n : Nat) : (s.acquire n).core.id = s.core.id := by
  simp only [State.acquire]
  repeat' split
  all_goals rfl

@[simp] theorem State.walkFor_id (n : Nat) (accs : List Access) (a : Word) : (s.walkFor n accs a).core.id = s.core.id := by
  simp only [State.walkFor]
  repeat' split
  all_goals simp

end

/-! ## Accesses (spec/11 R277, R288, spec/01 R31) -/

section
variable {id : Nat} {s : State} (h : s.core.id = id)
include h

theorem State.padBytesDo_on (a n : Nat) (r : Bool) (f : List Byte → Option (List Byte)) : endsOn id (s.padBytesDo a n r f) := by
  simp only [State.padBytesDo]
  repeat' split
  all_goals simp [h]

theorem State.padDo_on (iss : Issuer) (c o n : Nat) (r : Bool) (f : List Byte → Option (List Byte)) :
    endsOn id (s.padDo iss c o n r f) := by
  simp only [State.padDo]
  split
  · split
    · exact h
    · split
      · trivial
      · next r t e =>
        have k : t.core.id = id := (State.takeReply_id e).trans h
        split <;> exact k
  · split
    · exact h
    · exact State.padBytesDo_on h ..

theorem State.regDo_on (pa : Nat) (r : Bool) (f : List Byte → Option (List Byte)) : endsOn id (s.regDo pa r f) := by
  simp only [State.regDo]
  repeat' split
  all_goals simp [h]

theorem State.partAt_on (iss : Issuer) (x : Xlat) (n : Nat) (r w fr : Bool) (f : List Byte → Option (List Byte)) :
    endsOn id (s.partAt iss x n r w fr f) := by
  unfold State.partAt
  split
  · exact State.padDo_on h ..
  · exact State.regDo_on h ..
  · exact State.outerDo_on h ..

theorem State.partDo_on (iss : Issuer) (x : Xlat) (n : Nat) (r w : Bool) (f : List Byte → Option (List Byte)) :
    endsOn id (s.partDo iss x n r w f) := State.partAt_on h ..

theorem State.readBy_on {one : State → Xlat → Nat → Except Stop (List Byte × State)}
    (hone : ∀ t : State, t.core.id = id → ∀ x n, endsOn id (one t x n)) (ps : List (Xlat × Nat)) : endsOn id (s.readBy one ps) := by
  induction ps generalizing s with
  | nil => exact h
  | cons p ps ih =>
    have k1 := hone s h p.1 p.2
    unfold State.readBy
    split
    · next e => exact endsOn_error k1 e
    · next t e =>
      have k2 := ih (endsOn_ok k1 e)
      split
      · next e' => exact endsOn_error k2 e'
      · next e' => exact (endsOn_ok k2 e' :)

theorem State.readParts_on (iss : Issuer) (ps : List (Xlat × Nat)) : endsOn id (s.readParts iss ps) :=
  State.readBy_on h (fun _ ht _ _ => State.partDo_on ht ..) ps

theorem State.readFresh_on (iss : Issuer) (ps : List (Xlat × Nat)) : endsOn id (s.readFresh iss ps) :=
  State.readBy_on h (fun _ ht _ _ => State.partAt_on ht ..) ps

theorem State.writeEach_on (iss : Issuer) (bs : List Byte) (ps : List (Xlat × Nat)) : stateOn id (s.writeEach iss bs ps) := by
  induction ps generalizing s bs with
  | nil => exact h
  | cons p ps ih =>
    have k := State.partDo_on h iss p.1 p.2 false true (fun _ => some (bs.take p.2))
    unfold State.writeEach
    split
    · next e => exact endsOn_error k e
    · next e => exact ih (endsOn_ok k e) _

theorem State.writeParts_on (iss : Issuer) (bs : List Byte) (ps : List (Xlat × Nat)) : endsOn id (s.writeParts iss bs ps) := by
  have k := State.writeEach_on h iss bs ps
  simp only [State.writeParts]
  split
  · exact h
  · split
    · next e => exact stateOn_ok k e
    · exact h
    · trivial

omit h in
@[simp] theorem State.cureWhole_id (iss : Issuer) (ps : List (List Byte × List (Xlat × Nat))) :
    (s.cureWhole iss ps).core.id = s.core.id := by
  simp only [State.cureWhole]
  refine State.foldl_id (fun t q => ?_) _ s
  split
  · rfl
  · split
    · rfl
    · split
      · rfl
      · next e => exact (endsOn_ok (State.partDo_on rfl ..) e :)

theorem State.performSent_id {c : Coro} {iss : Issuer} {hs : HeldStore} {x : Option Cause × State}
    (e : s.performSent c iss hs = some x) : x.2.core.id = id := by
  simp only [State.performSent] at e
  split at e
  · cases e
  · split at e
    · cases e
    · next e' =>
      cases e
      exact endsOn_ok (State.writeParts_on (by simp [h]) ..) e'

theorem State.atomicDo_on (iss : Issuer) (x : Xlat) (n : Nat) (f : Nat → Option Nat) : (s.atomicDo iss x n f).On id := by
  have k := State.partDo_on h iss x n true true (fun old => (f (leNat old)).map (leBytes n))
  simp only [State.atomicDo]
  split
  · exact h
  · next e => exact endsOn_error k e
  · next e => exact endsOn_ok k e

theorem State.performHeld_id (c : Coro) (iss : Issuer) {fails : State → Deferred → State}
    (hf : ∀ t d, (fails t d).core.id = t.core.id) (hs : List HeldStore) : (s.performHeld c iss fails hs).1.core.id = id := by
  induction hs generalizing s with
  | nil => exact h
  | cons x xs ih =>
    unfold State.performHeld
    split
    · exact h
    · next e => exact ih (State.performSent_id h e :)
    · next e => exact ih ((hf ..).trans (State.performSent_id h e :))

theorem State.performAll_id (c : Coro) (iss : Issuer) {fails : State → Deferred → State}
    (hf : ∀ t d, (fails t d).core.id = t.core.id) (hs : List HeldStore) : (s.performAll c iss fails hs).1.core.id = id := by
  simp only [State.performAll]
  split
  · exact State.performHeld_id (by simp [h]) _ _ hf _
  · exact State.performHeld_id h _ _ hf _

end

/-! ## Streams: the truncations and the frames that a datum brings (spec/12) -/

section
variable (s : State)

@[simp] theorem State.dropNotice_id (die : Nat) (w : Word) : (s.dropNotice die w).core.id = s.core.id := by
  simp [State.dropNotice]

@[simp] theorem State.dsBaton_id (c : Coro) (die : Nat) (w tb : Word) : (s.dsBaton c die w tb).2.core.id = s.core.id := by
  simp only [State.dsBaton]
  split
  · rfl
  · split <;> simp

@[simp] theorem State.afterTruncate_id (c : Coro) (slot : Nat) (a : Word) (pa : Nat) (x : Xlat) (old : DsRec) (n : Nat) (w : Word) :
    (s.afterTruncate c slot a pa x old n w).core.id = s.core.id := by
  simp only [State.afterTruncate]
  split_ifs <;> simp

@[simp] theorem State.streamAfter_id (c : Coro) (slot : Nat) (f : DsForm) (b a : Word) (pa : Nat) (x : Xlat) (old : DsRec) :
    (s.streamAfter c slot f b a pa x old).core.id = s.core.id := by
  simp only [State.streamAfter]
  repeat' split
  all_goals simp

/-! ## Messages, answers and pending data (R180, R299, R418) -/

@[simp] theorem State.deferTo_id (core cnum inc : Nat) (d : Deferred) : (s.deferTo core cnum inc d).core.id = s.core.id :=
  State.onCore_id ..

@[simp] theorem State.deliver_id (core cnum inc id : Nat) (rs : List SlotReply) :
    (s.deliver core cnum inc id rs).core.id = s.core.id := State.onCore_id ..

@[simp] theorem State.cureWords_core (els : List SlotStore) : (s.cureWords els).core = s.core := by
  simp only [State.cureWords]
  split <;> rfl

@[simp] theorem State.replyNow_core (m : AMsg) (n : Nat) : (s.replyNow m n).core = s.core := rfl

@[simp] theorem State.datumLands_id (c : Coro) (p : Pending) (out : Except Cause Word) :
    (s.datumLands c p out).core.id = s.core.id := by
  simp only [State.datumLands]
  generalize (fun x : Coro => _) = land
  split <;> simp

@[simp] theorem State.beginHandler_id (m : AMsg) (rest : List SlotReq) : (s.beginHandler m rest).core.id = s.core.id := by
  simp only [State.beginHandler]
  repeat' split
  all_goals simp

@[simp] theorem State.applyStores_id (sender cnum inc : Nat) (es : List SlotStore) :
    (s.applyStores sender cnum inc es).core.id = s.core.id := by
  induction es generalizing s with
  | nil => rfl
  | cons e es ih =>
    unfold State.applyStores
    split
    · rw [ih, State.deferTo_id]
    · exact ih s
    · next e' => exact (ih _).trans (endsOn_ok (State.padDo_on rfl ..) e' :)

@[simp] theorem State.serveAll_id (es : List SlotAccess) : (s.serveAll es).2.core.id = s.core.id := by
  induction es generalizing s with
  | nil => rfl
  | cons e es ih =>
    unfold State.serveAll
    dsimp only
    split
    · exact ih s
    · exact ih s
    · next e' => exact (ih _).trans (endsOn_ok (State.padDo_on rfl ..) e' :)

@[simp] theorem State.serveHead_id (r : SlotReq) (rest : List SlotReq) : (s.serveHead r rest).core.id = s.core.id := by
  simp only [State.serveHead]
  split <;> simp

@[simp] theorem State.erasePending_id (c : Coro) (ps : List Pending) : (s.erasePending c ps).core.id = s.core.id := by
  simp [State.erasePending]

@[simp] theorem State.movePending_id (c : Coro) (ps : List Pending) (k : SlotKey) : (s.movePending c ps k).core.id = s.core.id := by
  simp [State.movePending]

@[simp] theorem State.poll_id (n : Nat) : (s.poll n).core.id = s.core.id := by
  simp only [State.poll]
  repeat' split
  all_goals simp

end

/-- Of an attempt to serve what is pending: core `id` is in focus in the state in it. -/
@[simp] def Served.On (id : Nat) : Served → Prop
  | .wait => True
  | .asked _ t => t.core.id = id
  | .out _ t => t.core.id = id

theorem Served.on_of_eq {id : Nat} {r r' : Served} (k : r.On id) (e : r = r') : r'.On id := e ▸ k

section
variable {id : Nat} {s : State} (h : s.core.id = id)
include h

theorem State.serveAtoms_on (x : Xlat) (n : Nat) (ps : List Pending) : (s.serveAtoms x n ps).On id := by
  induction ps generalizing s with
  | nil => exact h
  | cons p ps ih =>
    unfold State.serveAtoms
    split
    · trivial
    all_goals
      next e =>
        have k2 := ih (Done.on_of_eq (State.atomicDo_on h ..) e)
        split
        · next e' => rwa [e'] at k2
        · exact k2

theorem State.serveParts_on (c : Coro) (ps : List Pending) (x : Xlat) (n : Nat) : (s.serveParts c ps x n).On id := by
  simp only [State.serveParts]
  split
  · split
    · trivial
    · next e => exact (State.askFor_id e).trans h
  · split
    · exact State.serveAtoms_on h ..
    · have k := State.readParts_on h ((ps.map Pending.issuer).headD s.issuer) [(x, n)]
      split
      · trivial
      · next e => exact endsOn_error k e
      · next e => exact (endsOn_ok k e :)

theorem State.servePendingStream_on (c : Coro) (p : Pending) (f : DsForm) (b : Word) (x : Xlat) :
    someOn id (s.servePendingStream c p f b x) := by
  have k := State.atomicDo_on h p.issuer x 128 (f.new b)
  simp only [State.servePendingStream]
  split
  · trivial
  · next e => simpa using Done.on_of_eq k e
  · next e =>
    have ok := Done.on_of_eq k e
    split
    · simpa using ok
    · split <;> simpa using ok

end

section
variable (s : State)

@[simp] theorem State.pendingStores_id (c : Coro) (p : Pending) : (s.pendingStores c p).core.id = s.core.id := by
  have k := State.performAll_id (s := s) rfl c p.issuer (fails := fun t d => t.deferTo s.core.id c.cnum.toNat c.inc.toNat d)
    (by simp) (storesOf c.pending)
  simp only [State.pendingStores]
  split_ifs <;> simpa using k

@[simp] theorem State.orphanStores_id (c : Coro) (p : Pending) : (s.orphanStores c p).core.id = s.core.id := by
  have k := State.performAll_id (s := s) rfl c p.issuer (fails := fun t _ => t) (by simp)
    (storesOf (s.core.orphans.filter (fun q => q.coro == p.coro)))
  simp only [State.orphanStores]
  split_ifs <;> simpa using k

@[simp] theorem State.pendingStep_id (c : Coro) (p : Pending) (v : Word) : (s.pendingStep c p v).core.id = s.core.id := by
  simp only [State.pendingStep]
  split
  · simp
  · split_ifs <;> simp
  · split
    · simp
    · next e =>
      have k := someOn_some (State.servePendingStream_on rfl ..) e
      split_ifs <;> simpa using k
  · split
    · simp
    · next e => simpa using Served.on_of_eq (State.serveParts_on rfl ..) e
    · next e =>
      exact (State.foldl_id (fun _ _ => by simp) _ _).trans (Served.on_of_eq (State.serveParts_on rfl ..) e :)

@[simp] theorem State.orphanStep_id (p : Pending) : (s.orphanStep p).core.id = s.core.id := by
  simp only [State.orphanStep]
  split
  · simp
  · simp
  · next b _ _ =>
    cases e : State.servePendingStream .. with
    | none => rfl
    | some t => exact someOn_some (State.servePendingStream_on (by exact rfl) ..) e
  · split
    · rfl
    all_goals
      next e => exact Served.on_of_eq (State.serveParts_on (by exact rfl) ..) e

@[simp] theorem State.datumArrives_id (cnum idx : Nat) (v : Word) (b : Bool) :
    (s.datumArrives cnum idx v b).core.id = s.core.id := by
  simp only [State.datumArrives]
  repeat' split
  all_goals simp

end
end Sys2Proof.Machine
end

section
/-! SUPPORT. No relay, no run-ahead translation and no round of `vwait` moves the focus; so the steps of a core act where they name. -/

namespace Sys2Proof.Machine

/-! ## The relays (spec/05 R143 to R153) -/

section
variable (s : State)

@[simp] theorem State.setChan_id (c : Fin 8) (x : Chan) : (s.setChan c x).core.id = s.core.id := rfl
@[simp] theorem State.freeEngine_id (c : Fin 8) : (s.freeEngine c).core.id = s.core.id := rfl
@[simp] theorem State.relayIdle_id (c : Fin 8) (b : Bool) (x : Cause) : (s.relayIdle c b x).core.id = s.core.id := rfl
@[simp] theorem State.setBudget_id (c : Fin 8) (m : RelayCmd) (n : Nat) : (s.setBudget c m n).core.id = s.core.id := rfl

@[simp] theorem State.relayEnd_id (c : Fin 8) (m : RelayCmd) (b : Bool) : (s.relayEnd c m b).core.id = s.core.id := by
  simp [State.relayEnd]

@[simp] theorem State.relayStop_id (c : Fin 8) (m : RelayCmd) (x : Cause) : (s.relayStop c m x).core.id = s.core.id := by
  simp only [State.relayStop]
  split <;> simp

@[simp] theorem State.relayNext_id (c : Fin 8) (m : RelayCmd) : (s.relayNext c m).core.id = s.core.id := by
  simp only [State.relayNext]
  repeat' split
  all_goals simp

@[simp] theorem State.chunkOp_id (c : Fin 8) : (s.chunkOp c).core.id = s.core.id := by
  simp only [State.chunkOp]
  repeat' split
  all_goals simp

@[simp] theorem State.cacheRelay_core (who : Who) (e : Nat) (acc : Access) (a : Word) : (s.cacheRelay who e acc a).core = s.core := by
  simp only [State.cacheRelay]
  repeat' split
  all_goals rfl

@[simp] theorem State.readAhead_core (m : RelayCmd) (e pos : Nat) : (s.readAhead m e pos).core = s.core := by
  simp only [State.readAhead]
  split
  · split
    · rfl
    · refine State.foldl_core (fun t i => ?_) _ s
      split <;> rfl
  · rfl

end

section
variable {id : Nat} {s : State} (h : s.core.id = id)
include h

theorem State.relayRead_on (iss : Issuer) (x : Xlat) (n : Nat) : endsOn id (s.relayRead iss x n) := by
  have k := State.partDo_on h iss x n true false (fun _ => none)
  simp only [State.relayRead]
  split
  · next e =>
    split
    · exact State.partDo_on h ..
    · exact endsOn_error k e
  · exact k

theorem State.relayPiece_on (m : RelayCmd) (e pos lim : Nat) (first : Bool) : endsOn id (s.relayPiece m e pos lim first) := by
  have arrives {t : State} (ht : t.core.id = id) {p : Prop} [Decidable p] {x : Xlat} {n : Nat} {w : Bool} {u : State}
      (e : (if p then t.beatArrive m.issuer x n w else some t) = some u) : u.core.id = id := by
    split at e
    · exact someOn_some (State.beatArrive_on ht ..) e
    · cases e
      exact ht
  simp only [State.relayPiece]
  split
  · exact h
  · split
    · simpa using h
    · split
      · trivial
      · next e3 =>
        have h3 := arrives (by simpa using h) e3
        split
        · trivial
        · next e4 =>
          have h4 := arrives h3 e4
          split
          · next e5 => exact endsOn_error (State.relayRead_on h4 ..) e5
          · next e5 =>
            have h5 := endsOn_ok (State.relayRead_on h4 ..) e5
            split
            · next e6 => exact endsOn_error (State.writeParts_on h5 ..) e6
            · next e6 => exact (endsOn_ok (State.writeParts_on h5 ..) e6 :)
            · next e6 => exact (endsOn_ok (State.writeParts_on h5 ..) e6 :)

theorem State.relayPieces_on (c : Fin 8) (m : RelayCmd) (e stop : Nat) (first : Bool) (n : Nat) :
    (s.relayPieces c m e stop first n).1.core.id = id := by
  induction n generalizing s first with
  | zero => exact h
  | succ n ih =>
    unfold State.relayPieces
    dsimp only
    split
    · exact h
    · split
      · exact h
      · next e' => exact (endsOn_error (State.relayPiece_on h ..) e' :)
      · next e' => exact ih (by exact (endsOn_ok (State.relayPiece_on h ..) e' :)) _

end

@[simp] theorem State.relayPieces_id (s : State) (c : Fin 8) (m : RelayCmd) (e stop : Nat) (first : Bool) (n : Nat) :
    (s.relayPieces c m e stop first n).1.core.id = s.core.id := State.relayPieces_on rfl ..

@[simp] theorem State.beatOp_id (s : State) (c : Fin 8) : (s.beatOp c).core.id = s.core.id := by
  simp only [State.beatOp]
  split
  · split <;> simp
  · rfl

/-! ## The run-ahead pipeline (spec/01 R44 to R48) -/

@[simp] theorem State.aheadEls_id (s : State) (acc : Access) (xs : List (Word × Nat)) : (s.aheadEls acc xs).1.core.id = s.core.id := by
  induction xs generalizing s with
  | nil => rfl
  | cons x xs ih =>
    unfold State.aheadEls
    split
    · rfl
    · rw [ih]
      simp

@[simp] theorem State.aheadWord_id (s : State) (x : Ahead) (w : Nat) : (s.aheadWord x w).1.core.id = s.core.id := by
  unfold State.aheadWord
  extract_lets
  split
  · rfl
  · split <;> simp

@[simp] theorem State.aheadFrom_id (s : State) (last : Word) (n : Nat) (x : Ahead) (pc : Word) :
    (s.aheadFrom last n x pc).core.id = s.core.id := by
  induction n generalizing s x pc with
  | zero => rfl
  | succ n ih =>
    unfold State.aheadFrom
    split
    · rfl
    · next w _ =>
      have k := s.aheadWord_id x w
      split
      · next e => rwa [e] at k
      · next e =>
        rw [e] at k
        split
        · exact k
        · exact (ih ..).trans k

@[simp] theorem State.runAheadOp_id (s : State) (pc : Word) : (s.runAheadOp pc).core.id = s.core.id := by
  simp only [State.runAheadOp]
  split <;> simp

/-! ## Vector waits (spec/11 R292) -/

/-- Of a round of `vwait`: core `id` is in focus in the state in it. -/
@[simp] def Round.On (id : Nat) : Round → Prop
  | .wait t => t.core.id = id
  | .held t => t.core.id = id
  | .unmet t => t.core.id = id
  | .cause _ _ t => t.core.id = id

theorem Round.on_of_eq {id : Nat} {r r' : Round} (k : r.On id) (e : r = r') : r'.On id := e ▸ k

@[simp] theorem State.backFrom_id (s t : State) (c : Coro) : (s.backFrom t c).core.id = t.core.id := by
  simp [State.backFrom]

section
variable {id : Nat} {s : State} (h : s.core.id = id)
include h

theorem State.roundEach_on (iss : Issuer) (c : Coro) (v : VWait) (ok : Bool) (ps : List VPart) :
    (s.roundEach iss c v ok ps).On id := by
  induction ps generalizing s ok with
  | nil =>
    unfold State.roundEach
    split <;> exact h
  | cons p ps ih =>
    unfold State.roundEach
    split
    · exact h
    · next e => exact (endsOn_error (State.readFresh_on h ..) e :)
    · next e => exact ih (endsOn_ok (State.readFresh_on h ..) e) _

theorem State.roundOf_on (v : VWait) (els : List VPart) : (s.roundOf v els).On id := by
  unfold State.roundOf
  split
  · next e => exact (State.ask_id e).trans h
  · exact State.roundEach_on h ..

theorem State.vwaitRoundOf_on (c : Coro) (v : VWait) : (s.vwaitRoundOf c v).On id := by
  have k (els : List VPart) := State.roundOf_on (s := s.modCore (fun k => { k with run := c, slot := none })) h v els
  simp only [State.vwaitRoundOf]
  split
  · simpa using h
  · split
    all_goals
      next e =>
        simpa using Round.on_of_eq (k _) e

end

@[simp] theorem State.vwaitAgain_id (s : State) (n : Nat) : (s.vwaitAgain n).core.id = s.core.id := by
  simp only [State.vwaitAgain]
  split
  · next c _ =>
    split
    · next v _ =>
      have k := State.vwaitRoundOf_on (s := s) rfl c v
      split
      · next e => simpa using Round.on_of_eq k e
      · next e => simpa using Round.on_of_eq k e
      · next e =>
        have on := Round.on_of_eq k e
        split <;> simpa using on
      · next e => simpa using Round.on_of_eq k e
    · rfl
  · split
    · rfl
    · next c _ =>
      split
      · next v _ =>
        have k := State.vwaitRoundOf_on (s := s) rfl c v
        split
        · rfl
        · split
          all_goals
            next e =>
              simpa using Round.on_of_eq k e
      · rfl

/-! ## The steps of a core -/

/-- The step of a core's slot for the request at the head of its queue. -/
def State.windowTurn (k : Nat) (s : State) : State :=
  match s.core.slot, s.core.queue with
  | none, .message _ :: _ => s.push (.clusterWindowRequest k)
  | none, r :: rest => s.serveHead r rest
  | none, [] => s
  | _, _ => s.push (.clusterWindowRequest k)

/-- The step of a core's slot that begins the handler of the message at the head of its queue. -/
def State.handlerTurn (k : Nat) (s : State) : State :=
  match s.core.slot, s.core.queue with
  | none, .message m :: rest => s.beginHandler m rest
  | none, [] => s
  | _, _ => s.push (.activeMessageHandler k)

/-- The end of a handler at its limit (R300). -/
def State.limitTurn (s : State) : State :=
  match s.core.slot with
  | some r => s.endRequest r 0x33 0
  | none => s

/-- The end of a relay that has moved its last byte. -/
def State.completeTurn (c : Fin 8) (s : State) : State :=
  match (s.core.chans[c]).state, (s.core.chans[c]).cmd with
  | .inFlight, some m => if (s.core.chans[c]).done = m.len then s.relayEnd c m false else s
  | _, _ => s

/-- The end of a relay that was cancelled. -/
def State.cancelTurn (c : Fin 8) (s : State) : State :=
  match (s.core.chans[c]).state, (s.core.chans[c]).cmd with
  | .cancelling, some m => s.relayEnd c m true
  | _, _ => s

section
variable (s : State)

@[simp] theorem State.windowTurn_id (k : Nat) : (s.windowTurn k).core.id = s.core.id := by
  unfold State.windowTurn
  split <;> simp

@[simp] theorem State.handlerTurn_id (k : Nat) : (s.handlerTurn k).core.id = s.core.id := by
  unfold State.handlerTurn
  split <;> simp

@[simp] theorem State.limitTurn_id : s.limitTurn.core.id = s.core.id := by
  unfold State.limitTurn
  split <;> simp

@[simp] theorem State.completeTurn_id (c : Fin 8) : (s.completeTurn c).core.id = s.core.id := by
  unfold State.completeTurn
  split
  · split <;> simp
  · rfl

@[simp] theorem State.cancelTurn_id (c : Fin 8) : (s.cancelTurn c).core.id = s.core.id := by
  unfold State.cancelTurn
  split <;> simp

/-! ## Where a step acts -/

variable {s} in
theorem State.focus_of_id {k : Nat} (h : s.core.id = k) : s.focus k = s := by
  unfold State.focus
  exact if_pos h

/-- What a step does on core `k` it does there from wherever the focus is, if what it does leaves the focus. -/
theorem goes_of_onCore {i : Instr} {k : Nat} {f : State → State} (acts : ∀ u, exec i u = .next (u.onCore k f))
    (keeps : ∀ u, (f u).core.id = u.core.id) : Goes (exec i (s.focus k)) (fun t => exec i s = .next (t.focus s.core.id)) := by
  have focused : (s.focus k).core.id = k := s.focus_id k
  have there : (f (s.focus k)).core.id = k := (keeps _).trans focused
  have here : (s.focus k).onCore k f = f (s.focus k) := by
    unfold State.onCore
    rw [State.focus_of_id focused, focused, State.focus_of_id there]
  exact ⟨f (s.focus k), by rw [acts, here], acts s⟩

end

/-- Settles O56: each of the steps is what the core named does with the focus on it, and none of that moves the focus. -/
theorem coreStepsActOnTheirCore : Obligations.CoreStepsActOnTheirCore := by
  intro s k n m v bad why cut i listed
  simp only [List.mem_cons, List.not_mem_nil, or_false] at listed
  obtain rfl | rfl | rfl | rfl | rfl | rfl | rfl | rfl | rfl | rfl | rfl | rfl | rfl | rfl | rfl | rfl | rfl | rfl | rfl := listed
  · exact goes_of_onCore s (f := State.takeDeferred) (fun _ => rfl) (fun u => u.takeDeferred_id)
  · exact goes_of_onCore s (f := fun u => u.datumArrives n m v bad) (fun _ => rfl) (fun u => u.datumArrives_id ..)
  · exact goes_of_onCore s (f := fun u => u.requestPreempt why cut (.preemption k ⟨why, cut⟩)) (fun _ => rfl)
      (fun u => u.requestPreempt_id ..)
  · exact goes_of_onCore s (f := State.pace) (fun _ => rfl) (fun u => u.pace_id)
  · exact goes_of_onCore s (k := k)
      (f := fun u => if u.core.pacerWants then u.requestPreempt .pacer cut (.pacerPreemption ⟨k, cut⟩) else u) (fun _ => rfl)
      (fun u => State.ite_id (u.requestPreempt_id ..) rfl)
  · exact goes_of_onCore s (f := fun u => (u.modCore (·.spill n)).writeSpills u.core.coros) (fun _ => rfl) (fun u => by simp)
  · exact goes_of_onCore s (f := fun u => u.modCore (·.unspill n)) (fun _ => rfl) (fun u => by simp)
  · exact goes_of_onCore s (f := State.windowTurn k) (fun _ => rfl) (fun u => u.windowTurn_id k)
  · exact goes_of_onCore s (f := State.handlerTurn k) (fun _ => rfl) (fun u => u.handlerTurn_id k)
  · exact goes_of_onCore s (f := State.limitTurn) (fun _ => rfl) (fun u => u.limitTurn_id)
  · exact goes_of_onCore s (f := fun u => u.poll n) (fun _ => rfl) (fun u => u.poll_id n)
  · exact goes_of_onCore s (f := fun u => u.chunkOp (Fin.ofNat 8 n)) (fun _ => rfl) (fun u => u.chunkOp_id _)
  · exact goes_of_onCore s (f := fun u => u.beatOp (Fin.ofNat 8 n)) (fun _ => rfl) (fun u => u.beatOp_id _)
  · exact goes_of_onCore s (f := State.completeTurn (Fin.ofNat 8 n)) (fun _ => rfl) (fun u => u.completeTurn_id _)
  · exact goes_of_onCore s (f := State.cancelTurn (Fin.ofNat 8 n)) (fun _ => rfl) (fun u => u.cancelTurn_id _)
  · exact goes_of_onCore s (f := fun u => u.walkFor (n % 2 ^ 16) [.read, .write, .fetch] v) (fun _ => rfl)
      (fun u => u.walkFor_id ..)
  · exact goes_of_onCore s (f := fun u => u.runAheadOp v) (fun _ => rfl) (fun u => u.runAheadOp_id v)
  · exact goes_of_onCore s (k := k) (f := State.machineCheckCore) (fun _ => rfl) (fun u => u.machineCheckCore_id)
  · exact goes_of_onCore s (f := fun u => u.vwaitAgain n) (fun _ => rfl) (fun u => u.vwaitAgain_id n)

end Sys2Proof.Machine
end

section
/-! SUPPORT. `yield` and `fin` (spec/06 R166, R167, R174): what a coroutine that gives way is weighed against, and what its end
leaves behind. -/

namespace Sys2Proof.Machine

/-! ## The order of selection, from what is selected (R174) -/

theorem bestCoro_isSome {l : List Coro} {x : Coro} (h : x ∈ l) : ∃ k, bestCoro l = some k := by
  cases l with
  | nil => cases h
  | cons c cs => cases e : bestCoro cs <;> simp [bestCoro, e]

theorem bestCoro_mem {l : List Coro} {k : Coro} (h : bestCoro l = some k) : k ∈ l :=
  pickFrom_mem (fun c d => (ite_eq_or_eq _ d c).symm) (bestCoro_eq_pickFrom l ▸ h)

/-- None has a higher effective priority than the one selected. -/
theorem effPrio_le_bestCoro {l : List Coro} {k : Coro} (h : bestCoro l = some k) : ∀ x ∈ l, x.effPrio ≤ k.effPrio := by
  induction l generalizing k with
  | nil => cases h
  | cons c cs ih =>
    intro x hx
    cases e : bestCoro cs with
    | none =>
      obtain rfl : c = k := by simpa [bestCoro, e] using h
      rcases List.mem_cons.1 hx with rfl | later
      · exact Nat.le_refl _
      · obtain ⟨d, hd⟩ := bestCoro_isSome later
        rw [e] at hd
        cases hd
    | some d =>
      obtain rfl : (if preferred d c = true then d else c) = k := by simpa [bestCoro, e] using h
      have top : c.effPrio ≤ (if preferred d c = true then d else c).effPrio ∧
          d.effPrio ≤ (if preferred d c = true then d else c).effPrio := by
        split_ifs with before <;> rw [preferred_iff] at before <;> omega
      rcases List.mem_cons.1 hx with rfl | later
      · exact top.1
      · exact (ih e x later).trans top.2

section
variable {c : Core} (hf : c.first = none) (cs : List Coro)
include hf

/-- Where the starter has placed none first, a decision is between the selectable ones alone. -/
theorem Core.choice_of_no_first : c.choice cs = bestCoro (cs.filter Coro.selectable) := by
  have nobody : (cs.filter Coro.selectable).find? (fun k => some k.cnum.toNat == c.first) = none := by simp [hf]
  simp only [Core.choice]
  rw [nobody]

/-- One of a higher effective priority is selected before the one that yields. -/
theorem Core.choice_of_higher {k x : Coro} (hx : x ∈ cs) (sel : x.selectable = true) (higher : k.effPrio < x.effPrio) :
    ∃ w ∈ cs, c.choice (k :: cs) = some w := by
  have ready : x ∈ (k :: cs).filter Coro.selectable := List.mem_filter.2 ⟨List.mem_cons_of_mem _ hx, sel⟩
  obtain ⟨w, best⟩ := bestCoro_isSome ready
  have top := effPrio_le_bestCoro best x ready
  refine ⟨w, ?_, by rw [Core.choice_of_no_first hf, best]⟩
  rcases List.mem_cons.1 (List.mem_filter.1 (bestCoro_mem best)).1 with rfl | other
  · omega
  · exact other

/-- One that yields among coroutines that cannot run is selected itself. -/
theorem Core.choice_of_alone {k : Coro} (sel : k.selectable = true) (alone : ∀ x ∈ cs, x.state ≠ .ready) :
    c.choice (k :: cs) = some k := by
  have others : cs.filter Coro.selectable = [] := List.filter_eq_nil_iff.2 fun x hx => by simp [Coro.selectable, alone x hx]
  rw [Core.choice_of_no_first hf, List.filter_cons_of_pos sel, others]
  rfl

end

/-! ## `yield` (R166) -/

/-- The coroutine that yields, as it is weighed against the others: Ready, at the next instruction. -/
def State.yielding (s : State) : Coro := { s.core.run with pc := s.core.run.pc + 4, state := .ready, lastRun := s.stamp }

section
variable {s : State} {g : Guard} (hg : s.enables g) (ho : s.ordinary) (drained : s.posted = false)
include hg ho drained

theorem exec_yield (k : Fin 64) (b : Fin 32) : exec (.yield g k b) s = .next (s.yieldOp (s.reg b) k.val) := by
  change Host.Outcome.next (s.guarded g _) = _
  rw [State.guarded_on hg, State.noStrip_closed (State.closed_of_ordinary ho)]
  simp only [State.released, State.release, drained]
  rfl

theorem exec_fin : exec (.fin g) s = .next (s.endRunning false) := by
  change Host.Outcome.next (s.guarded g _) = _
  rw [State.guarded_on hg, State.noStrip_closed (State.closed_of_ordinary ho)]
  simp only [State.released, State.release, drained]
  rfl

end

theorem State.yieldOp_of_goesOn {s : State} {w : Coro} (chosen : s.core.choice (s.yielding :: s.core.coros) = some w)
    (self : w.cnum = s.core.run.cnum) (live : Word) (keep : Nat) : s.yieldOp live keep =
      (State.modCore { s with stamp := s.stamp + 1 } (·.decided s.core.run.cnum)).modRun
        (fun _ => { s.yielding with state := .running, passed := 0, convoy := none }) := by
  rw [State.yieldOp]
  dsimp only
  rw [show s.core.choice ({ s.core.run with pc := s.core.run.pc + 4, state := .ready, lastRun := s.stamp } :: s.core.coros) =
    some w from chosen]
  exact if_pos self

theorem State.yieldOp_of_givesWay {s : State} {w : Coro} (chosen : s.core.choice (s.yielding :: s.core.coros) = some w)
    (other : w.cnum ≠ s.core.run.cnum) (live : Word) (keep : Nat) : s.yieldOp live keep =
      (State.saveContext { s with stamp := s.stamp + 1 } (s.yielding.trimLive s.core.lanes live keep) .ready .yield).continueHeld
    := by
  rw [State.yieldOp]
  dsimp only
  rw [show s.core.choice ({ s.core.run with pc := s.core.run.pc + 4, state := .ready, lastRun := s.stamp } :: s.core.coros) =
    some w from chosen]
  exact if_neg other

/-! ## `fin` (R167) -/

/-- Registering a core whose stores are all performed changes nothing (spec/04 R121). -/
theorem State.registerCore_of_performed {s : State} {id : Nat} (h : ∀ l ∈ s.caches.l1, l.core = id → l.loose = 0) :
    s.registerCore id = s := by
  have none_loose : s.caches.l1.filter (fun l => l.core == id && l.loose != 0) = [] := by
    simpa [List.filter_eq_nil_iff] using h
  rw [State.registerCore, none_loose]
  rfl

theorem State.countEnd_mem {s : State} (h : ∀ l ∈ s.caches.l1, l.core = s.core.id → l.loose = 0) (c : Coro) (killed : Bool) :
    (s.countEnd c killed).mem = s.mem := by
  simp only [State.countEnd, State.askStarter_mem, State.registerCore_of_performed h]
  split
  · rfl
  · split <;> rfl

theorem State.mem_askStarter {s : State} {e : Event} (h : e ∈ s.agenda) : e ∈ s.askStarter.agenda := by
  unfold State.askStarter
  split
  · exact List.mem_append_left _ h
  · exact h

/-- The end of a launch's last coroutine asks for its completion (spec/14 R351). -/
theorem State.countEnd_completes {s : State} {c : Coro} {r : QRec} (found : s.findRec c.launch = some r) (last : r.alive = 1)
    (killed : Bool) : Event.launchCompletion r.seq ∈ (s.countEnd c killed).agenda := by
  refine State.mem_askStarter ?_
  rw [found]
  simp [last, State.push]

/-- The state of an ordinary coroutine's core without it, before its launch is told. -/
def State.finished (s : State) : State :=
  State.dropTags { s with core := s.core.vacate.trimRegs } s.core.run.cnum

theorem State.endRunning_of_ordinary {s : State} (ho : s.ordinary) :
    s.endRunning false = ((s.finished.countEnd s.core.run false).askUnloads).askPacer := by
  obtain ⟨running, hslot, -⟩ := ho
  have current : s.core.current = some s.core.run := by simp [Core.current, hslot, running]
  have nothing (t : State) : t.orphan [] [] = t := by simp [State.orphan, State.askPending, State.modCore]
  rw [State.endRunning, current]
  simp only [Bool.false_eq_true, if_false, List.filter_nil, nothing]
  rfl

theorem State.finished_core {s : State} (ho : s.ordinary) : s.finished.core =
    Core.trimRegs { s.core with run := Coro.blank, live := .idle, pxLast := none, cut := none, drain := none } := by
  obtain ⟨-, hslot, -⟩ := ho
  rw [State.finished, State.dropTags_core, Core.vacate_of_no_slot hslot]

/-- Settles O8. A coroutine that yields is selected among those that are selectable and itself (`Core.choice_of_alone`,
`Core.choice_of_higher`); one that ends leaves its core before its launch is told, and the count asks for the completion. -/
theorem yieldAndFinResults : Obligations.YieldAndFinResults := by
  unfold Obligations.YieldAndFinResults
  refine ⟨fun s g k b hg ho first idle drained => ?_, fun s g hg ho drained => ?_⟩
  · rw [exec_yield hg ho drained]
    refine ⟨fun alone => ?_, fun ⟨c, hc, sel, higher, _⟩ distinct fits => ?_⟩
    · have chosen := Core.choice_of_alone first s.core.coros (k := s.yielding)
        (by simp [Coro.selectable, State.yielding, idle]) alone
      obtain ⟨running, -⟩ := ho
      rw [State.yieldOp_of_goesOn chosen rfl]
      exact ⟨_, rfl, running, rfl, rfl, rfl, rfl, rfl, rfl, rfl⟩
    · obtain ⟨w, hw, chosen⟩ := Core.choice_of_higher first s.core.coros (k := s.yielding) hc sel higher
      obtain ⟨-, hslot, -, hstrip, -, hflight, -⟩ := ho
      rw [State.yieldOp_of_givesWay chosen (distinct w hw),
        State.saveContext_of_fits (s := { s with stamp := s.stamp + 1 }) (k := s.yielding.trimLive s.core.lanes (s.reg b) k.val)
          hslot hflight hstrip fits]
      exact ⟨_, rfl, rfl, rfl, List.mem_append_right _ (List.mem_singleton_self _), _,
        List.mem_append_right _ (List.mem_singleton_self _), rfl, rfl, rfl, rfl, rfl⟩
  · have left := s.finished_core ho
    rw [exec_fin hg ho drained, State.endRunning_of_ordinary ho]
    have core : (((s.finished.countEnd s.core.run false).askUnloads).askPacer).core = s.finished.core := by simp
    have id : s.finished.core.id = s.core.id := by rw [left]; rfl
    refine ⟨_, rfl, by rw [core, left]; rfl, by rw [core, left]; rfl, fun performed => ?_, ?_, ?_, fun r _ found last => ?_⟩
    · exact State.countEnd_mem (s := s.finished) (by rw [id]; exact performed) ..
    · obtain ⟨-, hslot, -⟩ := ho
      rw [core, left]
      simp [Core.allCoros, Core.trimRegs, hslot]
    · refine List.mem_append_right _ (List.mem_singleton.2 ?_)
      rw [State.askUnloads_core, State.countEnd_core, id]
    · exact List.mem_append_left _ (List.mem_append_left _
        (State.countEnd_completes (s := s.finished) (c := s.core.run) found last false))

end Sys2Proof.Machine
end

section
/-! SUPPORT. `vcfg` and `spsplit` (spec/06 R158, R161, spec/02 R49 to R52): VLMAX as the fields of a configuration give it, and the
L1 lines and scratchpad bytes that a new split loses. -/

namespace Sys2Proof.Machine

/-! ## `vcfg` (R158) -/

/-- VLMAX of a coroutine that has just been configured. -/
theorem Coro.configured_vlmax (c : Coro) (lanes : Nat) (r w : Fin 4) :
    (c.configured lanes r w).vlmax lanes = 128 * lanes / 2 ^ (r.val + 3) * 128 / 2 ^ w.val := by
  have small (n : Fin 4) : (BitVec.ofNat 2 n.val).toNat = n.val := by rw [BitVec.toNat_ofNat]; omega
  rw [Coro.vlmax, Coro.rgroups, Coro.nregs, Coro.wb]
  change 128 * lanes / 2 ^ ((BitVec.ofNat 2 r.val).toNat + 3) * 128 / 2 ^ (BitVec.ofNat 2 w.val).toNat = _
  rw [small, small]

/-- A configuration, field by field. -/
theorem Coro.configured_eq (c : Coro) (lanes : Nat) (r w : Fin 4) : c.configured lanes r w = { c with
    nreg := BitVec.ofNat 2 r.val, wmax := BitVec.ofNat 2 w.val, rc := 1, vstart := Vector.replicate 4 ⟨0, 0⟩, vcarry := 0
    vl := BitVec.ofNat 14 (128 * lanes / 2 ^ (r.val + 3) * 128 / 2 ^ w.val)
    v := Vector.replicate 64 0, m := Vector.replicate 7 0 } := by
  rw [← c.configured_vlmax lanes r w]
  rfl

theorem State.vcfgOp_of_lanes {s : State} (h : s.core.lanes ≠ 0) (d : Fin 32) (r w : Fin 4) : s.vcfgOp d r w =
    (s.withRun (s.core.run.configured s.core.lanes r w)).wrote d
      (BitVec.ofNat 64 (128 * s.core.lanes / 2 ^ (r.val + 3) * 128 / 2 ^ w.val)) := by
  rw [State.vcfgOp, if_neg h]
  dsimp only
  rw [State.setS_advance]
  congr 1
  exact congrArg w64 (s.core.run.configured_vlmax s.core.lanes r w)

/-! ## `spsplit` (spec/02 R49 to R52) -/

/-- A queue of messages alone holds no access to the scratchpad. -/
theorem State.serveAccesses_of_messages (s : State) {q : List SlotReq} (h : ∀ r ∈ q, ∃ m, r = .message m) :
    s.serveAccesses q = s := by
  induction q with
  | nil => rfl
  | cons r q ih =>
    obtain ⟨m, rfl⟩ := h r List.mem_cons_self
    exact ih fun x hx => h x (List.mem_cons_of_mem _ hx)

/-- The caches without the L1 lines of a list. -/
def Caches.dropLines (c : Caches) (ls : List L1Line) : Caches := ls.foldl (fun c l => c.dropL1 l.core l.line) c

theorem Caches.mem_dropLines {c : Caches} {ls : List L1Line} {x : L1Line} (h : x ∈ (c.dropLines ls).l1) :
    x ∈ c.l1 ∧ x ∉ ls := by
  induction ls generalizing c with
  | nil => exact ⟨h, List.not_mem_nil⟩
  | cons l ls ih =>
    obtain ⟨kept, others⟩ := ih (c := c.dropL1 l.core l.line) h
    obtain ⟨before, apart⟩ := List.mem_filter.1 kept
    refine ⟨before, List.not_mem_cons_of_ne_of_not_mem (fun same => ?_) others⟩
    simp [same] at apart

/-- Lines without dirty bytes leave the L1, and no byte goes to a home. -/
theorem State.writeBack_of_clean {s : State} {ls : List L1Line} (h : ∀ l ∈ ls, l.dirty = 0) :
    ls.foldl State.writeBack s = { s with caches := s.caches.dropLines ls } := by
  induction ls generalizing s with
  | nil => rfl
  | cons l ls ih =>
    have clean : s.writeBack l = { s with caches := s.caches.dropL1 l.core l.line } := by
      rw [State.writeBack]
      exact if_pos (h l List.mem_cons_self)
    rw [List.foldl_cons, clean, ih fun x hx => h x (List.mem_cons_of_mem _ hx)]
    rfl

/-- The L1 lines that a scratchpad of `n` ways takes the place of. -/
def State.converted (s : State) (n : Nat) : List L1Line := s.caches.l1.filter (fun l => l.core == s.core.id && decide (l.way < n))

/-- The state whose scratchpad has another number of ways, once its core's L1 has left those it takes. -/
def State.resplit (s : State) (n : Nat) : State :=
  if n = s.core.spways then s else State.splitWays { s with caches := s.caches.dropLines (s.converted n) } n

/-- What a core that posts nothing and whose converted lines are clean does at a split. -/
theorem State.spsplitOp_of_clean {s : State} {n : Nat} (drained : s.posted = false)
    (messages : ∀ q ∈ s.core.queue, ∃ m, q = .message m)
    (clean : ∀ l ∈ s.caches.l1, l.core = s.core.id → l.way < n → l.dirty = 0) (d : Fin 32) :
    s.spsplitOp d n = (((s.resplit n).setS d (BitVec.ofNat 64 s.core.spways)).landed).advance := by
  have drops : s.writeBackAll (fun l => l.core == s.core.id && decide (l.way < n)) =
      { s with caches := s.caches.dropLines (s.converted n) } := State.writeBack_of_clean fun l hl => by
    obtain ⟨held, here, below⟩ : l ∈ s.caches.l1 ∧ l.core = s.core.id ∧ l.way < n := by simpa using hl
    exact clean l held here below
  have ready : s.release 1 = some s := by simp [State.release, drained]
  rw [State.spsplitOp, ready]
  dsimp only
  rw [State.serveAccesses_of_messages s messages, drops]
  rfl

/-- A split moves nothing but the ways, the bytes that the scratchpad has no way for any more or has gained, their poison, and
the L1 lines. -/
theorem State.resplit_eq (s : State) (n : Nat) : ∃ bad, s.resplit n = { s with
    core := { s.core with spways := n }, mem := (s.resplit n).mem, caches := (s.resplit n).caches, padPoison := bad } := by
  unfold State.resplit
  split
  · next same =>
    subst same
    exact ⟨s.padPoison, rfl⟩
  · next other =>
    have moved : State.splitWays { s with caches := s.caches.dropLines (s.converted n) } n = _ := if_neg other
    rw [moved]
    exact ⟨_, rfl⟩

theorem State.resplit_caches {s : State} {n : Nat} (other : n ≠ s.core.spways) :
    (s.resplit n).caches = s.caches.dropLines (s.converted n) := by
  rw [State.resplit, if_neg other, State.splitWays, if_neg other]
  rfl

theorem State.resplit_mem_get {s : State} (hm : s.mem.wf = true) (n x : Nat) : (s.resplit n).mem.get x =
    if n ≠ s.core.spways ∧ padStore s.core.id + min n s.core.spways * 32768 ≤ x ∧ x < padStore s.core.id + 8 * 32768
      then 0 else s.mem.get x := by
  unfold State.resplit
  split
  · next same => exact (if_neg fun changed => changed.1 same).symm
  · next other =>
    have moved : (State.splitWays { s with caches := s.caches.dropLines (s.converted n) } n).mem =
        s.mem.erase (padStore s.core.id + min s.core.spways n * 32768) (padStore s.core.id + 8 * 32768) := by
      rw [State.splitWays, if_neg other]
      rfl
    rw [moved, Memory.get_erase _ _ _ hm, Nat.min_comm]
    simp only [ne_eq, other, not_false_eq_true, true_and]
    rfl

/-- No line of the core is left in a way that the scratchpad has. -/
theorem State.resplit_lines {s : State} {n : Nat} (other : n ≠ s.core.spways) {l : L1Line} (hl : l ∈ (s.resplit n).caches.l1)
    (here : l.core = s.core.id) : n ≤ l.way := by
  rw [State.resplit_caches other] at hl
  obtain ⟨held, apart⟩ := Caches.mem_dropLines hl
  by_contra below
  exact apart (List.mem_filter.2 ⟨held, by simp [here, Nat.lt_of_not_le below]⟩)

/-- What a write of a register leaves of everything else, where what was in flight has landed. -/
theorem State.landed_advance_of_setS (s : State) (d : Fin 32) (v : Word) :
    ((s.setS d v).landed).advance = s.withRun { (s.wrote d v).core.run with flight := none } := by
  rw [← State.setS_advance]
  unfold State.landed
  split
  · next e => simp only [State.withRun, State.advance, State.setPc, State.modRun, State.setS] at e ⊢; rw [← e]
  · rfl

/-- Settles O38. A configuration writes its fields and returns the VLMAX that they give (`Coro.configured_vlmax`); a split drops
the lines of the ways it takes (`State.writeBack_of_clean`) and erases the bytes beyond the ways that it keeps. -/
theorem configuringAndSplitting : Obligations.ConfiguringAndSplitting := by
  unfold Obligations.ConfiguringAndSplitting
  intro s g d r w k hg
  have vcfg : exec (.vcfg g d r w) s = .next (s.vcfgOp d r w) := congrArg Host.Outcome.next (State.guarded_on hg _)
  have spsplit : exec (.spsplit g d k) s = .next (s.noStrip (fun s => s.spsplitOp d k.val)) :=
    congrArg Host.Outcome.next (State.guarded_on hg _)
  rw [vcfg, spsplit]
  refine ⟨fun none => ?_, fun lanes => ?_, fun opened => ?_, fun closed waits => ?_, fun closed drained _ _ hm messages clean => ?_⟩
  · rw [State.vcfgOp, if_pos none]
  · rw [State.vcfgOp_of_lanes lanes]
    rw [Coro.configured_eq]
    rfl
  · rw [State.noStrip_open opened]
  · rw [State.noStrip_closed closed, State.spsplitOp, show s.release 1 = none by simp [State.release, waits]]
    rfl
  · rw [State.noStrip_closed closed, State.spsplitOp_of_clean drained messages clean, State.landed_advance_of_setS]
    obtain ⟨bad, split⟩ := s.resplit_eq k.val
    refine ⟨_, rfl, ⟨bad, ?_⟩, fun other l hl here => State.resplit_lines other hl here, State.resplit_mem_get hm k.val⟩
    rw [split]
    rfl

end Sys2Proof.Machine
end

section
/-! SUPPORT. A cluster-window store whose element begins in the scratchpad and runs beyond its end: the case that refutes what
messages and the requests of the cluster window do (O30). -/

namespace Sys2Proof.Machine

section
variable {s : State} {e : SlotStore}

/-- No byte of an element that runs beyond the end of the scratchpad is written: it fails with NEAR_OUT_OF_RANGE, which is
deferred to the sender (spec/01 R11, spec/18 R418). -/
theorem State.applyStores_of_beyond (serves : s.core.inService = true) (beyond : s.core.padBytes < e.off + e.data.length)
    (sender cnum inc : Nat) : s.applyStores sender cnum inc [e] =
      s.deferTo sender cnum inc ⟨.nearOutOfRange, e.idx, e.va, e.insn, e.member, true, none⟩ := by
  have refused : (s.coreAt s.core.id).padRefuses e.off e.data.length = some .nearOutOfRange := by
    simp [State.coreAt, Core.padRefuses, serves, beyond]
  have failed : s.padDo slotIssuer s.core.id e.off e.data.length false (fun _ => some e.data) =
      .error (.cause .nearOutOfRange s) := by
    rw [State.padDo, refused]
    simp
  rw [State.applyStores, failed]
  rfl

/-- A store of one such element, at the head of its slot's queue. -/
theorem exec_clusterWindowRequest_of_beyond {rest : List SlotReq} {sender cnum inc : Nat} (free : s.core.slot = none)
    (head : s.core.queue = .store sender cnum inc [e] :: rest) (serves : s.core.inService = true)
    (beyond : s.core.padBytes < e.off + e.data.length) :
    ∃ t, exec (.clusterWindowRequest s.core.id) s = .next t ∧ t.mem = s.mem := by
  have served : s.windowTurn s.core.id = s.serveHead (.store sender cnum inc [e]) rest := by
    unfold State.windowTurn
    rw [free, head]
  refine ⟨s.onCore s.core.id (State.windowTurn s.core.id), rfl, ?_⟩
  rw [State.onCore_self rfl (s.windowTurn_id s.core.id), served, State.serveHead]
  rw [State.applyStores_of_beyond (by simpa using serves) (by simpa [Core.padBytes] using beyond)]
  simp

end

/-- Two bytes to the last byte of a scratchpad of one way. -/
def straddlingElements : List SlotStore := [⟨32767, [1, 2], 0, 0, 0, 0⟩]

/-- The module after reset, with a scratchpad of one way at core 0, whose slot holds a store of those. -/
def straddlingStore : State := { State.reset with
  core := { Core.reset 0 with spways := 1, queue := [.store 0 0 0 straddlingElements] } }

/-- The two bytes would show in memory. -/
theorem straddlingStore_write_shows : straddlingStore.mem ≠ straddlingElements.foldl
    (fun m e => m.write (padStore straddlingStore.core.id + e.off) e.data) straddlingStore.mem := by decide +kernel

/-- Refutes O30: the elements of a cluster-window store are said to be written where each begins below the end of the scratchpad.
One that begins there and runs beyond the end is refused whole, and its sender meets NEAR_OUT_OF_RANGE. -/
theorem not_messageResults : ¬ Obligations.MessageResults := by
  unfold Obligations.MessageResults
  intro h
  obtain ⟨-, slots⟩ := h
  obtain ⟨-, stores, -⟩ := slots straddlingStore []
  obtain ⟨t, e, written⟩ := stores 0 0 0 straddlingElements rfl rfl rfl (by decide)
  obtain ⟨u, e', kept⟩ := exec_clusterWindowRequest_of_beyond (s := straddlingStore) rfl rfl rfl (by decide)
  obtain rfl : u = t := Host.Outcome.next.inj (e'.symm.trans e)
  rw [written] at kept
  dsimp only at kept
  exact straddlingStore_write_shows kept.symm

end Sys2Proof.Machine
end

section
/-! SUPPORT. Encodings (spec/08 R202 to R208): the word of every well-formed instruction decodes to it, a word that decodes is
its instruction's own, and what a word outside every encoding comes to. -/

namespace Sys2Proof.Laws

/-- Every instruction, each by the rule of its own format. -/
theorem RoundTrip.all (i : Instr) : RoundTrip.Statement i :=
  @Instr.rec Statement
    nop add sub and or xor sll srl sra mul mulh mulhu div divu rem remu min max minu maxu clz ctz popc rev sel bfx bfxs
    bfi cmpEq cmpNe cmpLt cmpLtu cmpLe cmpLeu gand gor addi andi ori xori slli srli srai li lis loop faddF64 fsubF64
    fmulF64 fdivF64 fminF64 fmaxF64 fmaF64 fsqrtF64 faddF32 fsubF32 fmulF32 fdivF32 fminF32 fmaxF32 fmaF32 fsqrtF32
    fcmpEqF64 fcmpLtF64 fcmpLeF64 fcmpEqF32 fcmpLtF32 fcmpLeF32 fcvt b jal jr spawn await yield fin sys vadd vsub
    vand vor vxor vsll vsrl vsra vmul vmulh vmin vmax vminu vmaxu vadds vsubs vaddScalar vsubScalar vandScalar
    vorScalar vxorScalar vsllScalar vsrlScalar vsraScalar vmulScalar vmulhScalar vminScalar vmaxScalar vminuScalar
    vmaxuScalar vaddsScalar vsubsScalar vcmpEq vcmpNe vcmpLt vcmpLtu vcmpLe vcmpLeu vmerge vslideup vslidedn
    vcompress viota vperm vbcast vext vmv mand mor mxor mandn mpop mfirst vtom mtov vfadd vfsub vfmul vfdiv vfmin
    vfmax vfma vfsqrt vfaddScalar vfsubScalar vfmulScalar vfdivScalar vfminScalar vfmaxScalar vfmaScalar vfcmpEq
    vfcmpLt vfcmpLe vfsgcopy vfsgflip vfsgmix vfkind vexp2 vlog2 vrsqrt vrcp vcvt vcvtW vcvtN vquant vquantS vdequant
    vquantPg vredsum vredmin vredmax vredand vredor vredxor vscan vscanmax vsredsum vsredmin vsredmax vsscan ldB64
    ldB32 stB64 stB32 ldB8 ldB16 ldI8 ldI16 ldI32 stB8 stB16 vld vlds vldx vldt vldn vldWp vst vsts vstx vstt vstn
    ldWp ldAcq stRel atomAdd atomMin atomMax atomMinu atomMaxu atomAnd atomOr atomXor atomSwap atomCas vatomAdd
    vatomMin vatomMax vatomAnd vatomOr vatomXor vatomSwap vatomCas vwait barv bnew bfree bsig bsigOneOperand bsigErr
    bqry barm barmRel rcopy rcopyShape rwp rcancel rqry amsend amreply amreg swalloc swfree swquota mmk mmkScratchpad
    mmga mmgaScratchpad mshape mzero mld mst mcvt mseg vtmask vexpm vscore vpacc pxl pxw pxwSh pxinv pxret dsadv
    dstrunc dsframe dsplay launch cancel cget cset vcfg spsplit stripBegin stripCommit asidBind asidRetire xlinvVa
    xlinvAsid xlinvGlob fence waitingRecordWrite deferredStoreFailure pendingDatumArrival preemption pacerDecision
    pacerPreemption contextSpill contextReturn clusterWindowRequest activeMessageHandler handlerLimit amReplyDelivery
    remoteSignalArrival batonPoll relayChunk relayBeat relayComplete relayCancelComplete translationWalk
    runAheadTranslation maintenanceComplete asidRetirementComplete homeSliceRequest bankConflict hdcfgWrite
    granuleMove migrationComplete mctlWrite switchAccess mirrorImageInstall failoverAccess mergeLockLapse planeDown
    planeUp collectiveAbortReceipt starterDecision starterTimedDecision launchBlocking dependenceFailed
    launchCompletion unloadComplete ccmdOpen ccmdResume ccmdKill ccmdClose ccmdBadcmd machineCheck truncationCleanup
    cleanupComplete cleanupFailed hostAccess hostSignal hostsigWrite linkLoss linkReturn ownClaim ownRelease
    ownHandover leaseLapse ownerScrubComplete engagementScrub engagementScrubComplete attestation attestationComplete
    keyLoad keyErase moduleReset memoryTrained fabricTrained hbmRepair clockThrottle clockRestore thermalStop
    registerWrite vwaitRound illegalInstruction instructionFetchFault i

end Sys2Proof.Laws

namespace Sys2Proof.Machine

/-- Settles O58. -/
theorem decodeInvertsEncode : Obligations.DecodeInvertsEncode := by
  unfold Obligations.DecodeInvertsEncode
  exact fun i w wellFormed => Laws.RoundTrip.all i wellFormed w

/-- The decoder accepts a word only after it has compared it with the instruction's own (R206, R208). -/
theorem decode_eq_ok {i : Instr} {w : Nat} (word : decode w = .ok i) : i.wellFormed = true ∧ encode i = some w := by
  unfold decode at word
  split at word
  · next nop =>
    cases word
    exact ⟨rfl, congrArg some nop.symm⟩
  · split at word
    · cases word
    · split at word
      · next own =>
        cases word
        simp only [Bool.and_eq_true, beq_iff_eq] at own
        obtain ⟨⟨-, wellFormed⟩, own⟩ := own
        exact ⟨wellFormed, own⟩
      · cases word

/-- Settles O59. -/
theorem decodedWordsAreTheirOwn : Obligations.DecodedWordsAreTheirOwn := by
  unfold Obligations.DecodedWordsAreTheirOwn
  exact fun _ _ => decode_eq_ok

/-- NEG = 1 with GUARD = 7 is reserved, in every word but the canonical no-op (R203). -/
theorem decode_of_reserved_guard {w : Nat} (other : w ≠ 0x03C00000) (reserved : (guardOf w).ok = false) :
    decode w = .error (undecodedCause w) := by
  rw [decode, if_neg other, reserved]
  cases decodeRaw w <;> rfl

/-- MAJOR and the selector name no instruction (R208). -/
theorem decode_of_unnamed {w : Nat} (other : w ≠ 0x03C00000) (unnamed : decodeRaw w = none) :
    decode w = .error (undecodedCause w) := by
  rw [decode, if_neg other, unnamed]

/-- Settles O60. Each word of the tables is its instruction's own, so it decodes to it; of the two others, the first has a
reserved guard, and the second an unassigned selector. -/
theorem tableWordsDecode : Obligations.TableWordsDecode := by
  unfold Obligations.TableWordsDecode
  have word (i : Instr) (w : Nat) := decodeInvertsEncode i w
  exact ⟨word _ _ rfl rfl, word _ _ rfl rfl, word _ _ rfl rfl, word _ _ rfl rfl, word _ _ rfl rfl, word _ _ rfl rfl,
    word _ _ rfl rfl, word _ _ rfl rfl, word _ _ rfl rfl, word _ _ rfl rfl, word _ _ rfl rfl, word _ _ rfl rfl,
    word _ _ rfl rfl, word _ _ rfl rfl, decode_of_reserved_guard (by decide) rfl, decode_of_unnamed (by decide) rfl⟩

end Sys2Proof.Machine
end

section
/-! SUPPORT. What `cget` reads (spec/08 R215 and Tables 10 and 11, spec/09 R239), and the checks of a control-register number
that come before the guard (R208). -/

namespace Sys2Proof.Machine

/-! ## `cget` and `cset` behind their checks -/

section
variable {s : State} {g : Guard} {n : Fin 64} {d a : Fin 32}

theorem exec_cget_checked (hc : s.cregCheck n.val false = none) :
    exec (.cget g d n) s = .next (s.guarded g fun s => (s.setS d (s.cregRead n.val)).advance) := by
  change Host.Outcome.next (s.checked (s.cregCheck n.val false) _) = _
  rw [hc]
  rfl

theorem exec_cset_checked (hc : s.cregCheck n.val true = none) :
    exec (.cset g n a) s = .next (s.guarded g fun s => (s.cregWrite n.val (s.getS a)).advance) := by
  change Host.Outcome.next (s.checked (s.cregCheck n.val true) _) = _
  rw [hc]
  rfl

theorem exec_cget_of_check (hg : s.enables g) (hc : s.cregCheck n.val false = none) :
    exec (.cget g d n) s = .next (s.wrote d (s.cregRead n.val)) := by
  rw [exec_cget_checked hc, State.guarded_on hg, State.setS_advance]

theorem exec_cget_of_cause {x : Cause} (hc : s.cregCheck n.val false = some x) :
    exec (.cget g d n) s = .next (s.raise x) := by
  change Host.Outcome.next (s.checked (s.cregCheck n.val false) _) = _
  rw [hc]
  rfl

end

/-! ## The checks of a number, before the guard -/

theorem cregPrivileged_iff {n : Nat} : cregPrivileged n = true ↔ 32 ≤ n ∧ n < 38 := by simp [cregPrivileged]

/-- A register of the coroutine passes its checks, unless it is written and marked RO. -/
theorem State.cregCheck_coro (s : State) {n : Nat} {write : Bool} (coro : n < 27)
    (writable : write = true → cregReadOnly n = false) : s.cregCheck n write = none := by
  have unprivileged : cregPrivileged n = false := by
    simp only [cregPrivileged, Bool.and_eq_false_iff, decide_eq_false_iff_not]
    omega
  have assigned : cregAssigned n = true := by simp [cregAssigned, coro]
  simpa [State.cregCheck, unprivileged, assigned] using writable

/-- A privileged register passes those of a read in a privileged coroutine. -/
theorem State.cregCheck_privileged {s : State} {n : Nat} (hp : cregPrivileged n = true) (priv : s.core.run.priv = true) :
    s.cregCheck n false = none := by
  have assigned : cregAssigned n = true := by
    rw [cregPrivileged_iff] at hp
    simp [cregAssigned, hp]
  simp [State.cregCheck, priv, assigned]

/-- In an unprivileged one it passes none. -/
theorem State.cregCheck_unprivileged {s : State} {n : Nat} {write : Bool} (hp : cregPrivileged n = true)
    (unpriv : s.core.run.priv = false) : s.cregCheck n write = some .privInstruction := by
  simp [State.cregCheck, hp, unpriv]

/-- A number outside 0 to 26 and 32 to 37 names no register. -/
theorem State.cregCheck_unassigned (s : State) {n : Nat} {write : Bool} (hn : (27 ≤ n ∧ n < 32) ∨ 38 ≤ n) :
    s.cregCheck n write = some .cregInvalid := by
  have unprivileged : cregPrivileged n = false := by
    simp only [cregPrivileged, Bool.and_eq_false_iff, decide_eq_false_iff_not]
    omega
  have unassigned : cregAssigned n = false := by
    simp only [cregAssigned, Bool.or_eq_false_iff, Bool.and_eq_false_iff, decide_eq_false_iff_not]
    omega
  simp [State.cregCheck, unprivileged, unassigned]

/-! ## What a register reads -/

/-- The word of the coroutine has a name of its own, `x`, so that no check of the two sides opens the sum that it is. -/
theorem cregCoro_coroWord {k : Core} {c : Coro} {x : Word} (word : coroWord k.id c = x) : cregCoro k c 20 = x.toNat := by
  unfold cregCoro
  rw [word]
  rfl

theorem State.cregRead_coroWord {s : State} {x : Word} (word : coroWord s.core.id s.core.run = x) :
    s.cregRead 20 = BitVec.ofNat 64 x.toNat := by
  rw [State.cregRead, cregCoro_coroWord word]
  rfl

/-- Settles O36. The fields of each register stand in one case of `cregCoro` or of `State.cregSys`, and the causes are the
outcomes of `State.cregCheck`. -/
theorem controlRegisterReads : Obligations.ControlRegisterReads := by
  unfold Obligations.ControlRegisterReads
  intro s g d hg
  have coro (n : Fin 64) (hn : n.val < 27 := by decide) :=
    exec_cget_of_check hg (d := d) (s.cregCheck_coro hn nofun)
  have sys (n : Fin 64) (hp : cregPrivileged n.val = true) (priv : s.core.run.priv = true) :=
    exec_cget_of_check hg (d := d) (State.cregCheck_privileged hp priv)
  refine ⟨coro 0, coro 1, coro 2, coro 3, coro 4, coro 5, coro 6, coro 7, coro 8, coro 9, coro 10, coro 11, coro 12, coro 13,
    coro 14, coro 15, coro 16, coro 17, coro 18, coro 19, (coro 20).trans ?_, coro 21, coro 22, coro 23, coro 24, coro 25,
    coro 26,
    fun priv => ⟨sys 32 rfl priv, sys 33 rfl priv, sys 34 rfl priv, sys 35 rfl priv, sys 36 rfl priv, sys 37 rfl priv⟩,
    fun n lo hi unpriv => exec_cget_of_cause (State.cregCheck_unprivileged (cregPrivileged_iff.2 ⟨lo, hi⟩) unpriv),
    fun n hn => exec_cget_of_cause (s.cregCheck_unassigned hn)⟩
  exact congrArg (fun v => Host.Outcome.next (s.wrote d v)) (State.cregRead_coroWord rfl)

end Sys2Proof.Machine
end

section
/-! SUPPORT. A false guard of class S (spec/08 R203 and R204): the meaning of such an instruction stands under its guard, after
the checks at decode. -/

namespace Sys2Proof.Machine

/-- An instruction whose whole meaning stands under a guard that is false. -/
theorem exec_of_guarded {i : Instr} {s : State} {g : Guard} {f : State → State} (body : exec i s = .next (s.guarded g f))
    (hg : ¬ s.enables g) : exec i s = .next s.passed :=
  body.trans (congrArg Host.Outcome.next (State.guarded_off hg f))

theorem exec_of_privileged {i : Instr} {s : State} {g : Guard} {f : State → State}
    (body : exec i s = .next (s.privileged fun s => s.guarded g f)) (priv : s.core.run.priv = true) :
    exec i s = .next (s.guarded g f) :=
  body.trans (congrArg Host.Outcome.next (State.privileged_on priv _))

/-- Settles O52. Each meaning unfolds to `State.guarded` of the guard, behind the check of privilege or of the register's number
where there is one, and so one rule serves all of them. -/
theorem falseGuardChangesOnlyThePc : Obligations.FalseGuardChangesOnlyThePc := by
  unfold Obligations.FalseGuardChangesOnlyThePc
  intro s g d a b d6 k6 h6 l6 a6 a3 b3 t3 sc3 h3 k3 i9 uw6 iw6 iw15 k2 w2 o2 r2 iw21 iw4 iw2 d4 a4 b4 k4 wt hg
  simp only [List.forall_mem_cons, List.not_mem_nil, false_implies, implies_true, and_true]
  refine ⟨?_, fun priv => ?_, fun r hr => ⟨?_, fun writable => ?_⟩⟩
  · and_intros
    all_goals exact exec_of_guarded rfl hg
  · and_intros
    all_goals exact exec_of_guarded (exec_of_privileged rfl priv) hg
  · exact exec_of_guarded (exec_cget_checked (s.cregCheck_coro hr nofun)) hg
  · have notReadOnly : cregReadOnly r.val = false := by simpa [cregReadOnly, and_assoc] using writable
    exact exec_of_guarded (exec_cset_checked (s.cregCheck_coro hr fun _ => notReadOnly)) hg

end Sys2Proof.Machine
end

section
/-! SUPPORT. A step as the meaning of one instruction (spec/08 R201 and R208, log 3): which move the schedule and the agenda
give, and what a fetch and the checks after it come to for an instruction of no convoy. -/

namespace Sys2Proof.Machine

/-! ## What a word and a step on the agenda mean -/

theorem traitsOf_of_decode {w : Nat} {i : Instr} (word : decode w = .ok i) : traitsOf w = some (traitsOfInstr i) := by
  rw [traitsOf, word]

theorem execWord_of_decode {w : Nat} {i : Instr} (word : decode w = .ok i) (s : State) : execWord w s = exec i s := by
  rw [execWord, word]

/-! ## Which move a step is -/

section
variable {s t : State} (on : s.stopped = false)
include on

theorem step_of_core (move : s.nextMove = (.core, t)) : step s = coreStep t := by
  simp [step, on, move]

theorem step_of_focus {id : Nat} (move : s.nextMove = (.focus id, t)) : step s = .next (t.focus id) := by
  simp [step, on, move]

theorem step_of_event {k : Nat} {e : Event} (move : s.nextMove = (.event k, t)) (waits : t.agenda[k]? = some e) :
    step s = exec (eventInstr e) { t with agenda := t.agenda.eraseIdx k } := by
  simp only [step, on, move, waits]
  rfl

theorem step_of_input {e : Event} (move : s.nextMove = (.input e, t)) : step s = exec (eventInstr e) t := by
  simp only [step, on, move]
  rfl

end

/-- No schedule fixes the move, and the first step on the agenda is not of the background and can go on. -/
theorem State.nextMove_of_first {s : State} {e : Event} {es : List Event} (sched : s.sched = []) (first : s.agenda = e :: es)
    (fore : background e = false) (enabled : s.enabled e = true) : s.nextMove = (.event 0, s) := by
  simp [State.nextMove, State.ownMove, sched, first, firstAt, fore, enabled]

/-! ## The fetch -/

/-- An aligned word that no convoy has fetched is fetched when it executes (R201, R210). -/
theorem State.nextFetch_of_aligned {s : State} (aligned : s.core.run.pc.toNat % 4 = 0) (new : s.core.run.nextWord = none) :
    s.nextFetch = s.fetchWord s.me s.core.run.pc := by
  simp [State.nextFetch, State.fetchAt, new, aligned]

/-- After a fetch nothing but the fetch cache has changed (R48). -/
theorem Core.refillFetch_eq (c : Core) (asid va : Nat) : ∃ l, c.refillFetch asid va = { c with fetchTlb := l } := by
  unfold Core.refillFetch
  repeat' split
  exacts [⟨_, rfl⟩, ⟨_, rfl⟩, ⟨_, rfl⟩, ⟨_, rfl⟩]

theorem State.refilled_eq (s : State) (pc : Word) :
    ∃ l, s.refilled pc = { s with core := { s.core with fetchTlb := l } } := by
  unfold State.refilled
  split
  · exact ⟨_, rfl⟩
  · obtain ⟨l, e⟩ := s.core.refillFetch_eq s.core.run.asid.toNat (pc.toNat % 2 ^ 56)
    exact ⟨l, by rw [State.modCore, e]⟩

section
variable (s : State) (pc : Word)

@[simp] theorem State.refilled_run : (s.refilled pc).core.run = s.core.run := by
  obtain ⟨l, e⟩ := s.refilled_eq pc
  rw [e]

@[simp] theorem State.refilled_slot : (s.refilled pc).core.slot = s.core.slot := by
  obtain ⟨l, e⟩ := s.refilled_eq pc
  rw [e]

@[simp] theorem State.refilled_px : (s.refilled pc).core.px = s.core.px := by
  obtain ⟨l, e⟩ := s.refilled_eq pc
  rw [e]

@[simp] theorem State.refilled_cut : (s.refilled pc).core.cut = s.core.cut := by
  obtain ⟨l, e⟩ := s.refilled_eq pc
  rw [e]

@[simp] theorem State.refilled_sys : (s.refilled pc).sys = s.sys := by
  obtain ⟨l, e⟩ := s.refilled_eq pc
  rw [e]

end

/-- The state after the fetch of the word `w`: its page is in the fetch cache, and the core holds the word. -/
def State.fed (s : State) (w : Nat) : State :=
  (s.refilled s.core.run.pc).modCore fun c => { c with insn := BitVec.ofNat 32 w }

/-- The fetch leaves the coroutine as it was. -/
theorem State.fed_modRun (s : State) (w : Nat) (f : Coro → Coro) : (s.fed w).modRun f = { s.refilled s.core.run.pc with
    core := { (s.refilled s.core.run.pc).core with insn := BitVec.ofNat 32 w, run := f s.core.run } } := by
  unfold State.fed State.modRun State.modCore
  dsimp only
  rw [State.refilled_run]

/-! ## The checks before an instruction's meaning -/

/-- Full service assigns every major (R413). -/
theorem State.known_of_full_service {s : State} (service : s.sys.svc = 2) (w : Nat) (t : Option Traits) : s.known w t = t := by
  simp [State.known, SysRegs.reduced, service]

/-- No scalar operand is uncorrectable where nothing is marked so. -/
theorem State.lostScalar_of_unmarked {s : State} (ecc : s.core.run.ecc = []) (t : Traits) (w : Nat) :
    s.lostScalar t w = none := by
  have finds_none {α : Type} (l : List α) : l.find? (fun _ => false) = none := by simp
  simp [State.lostScalar, ecc, finds_none]

/-- An instruction of no convoy runs, and ends the convoy in progress. -/
theorem State.takeIn_of_lone {s : State} {t : Traits} (lone : t.member = none) (cut : s.core.cut = none)
    (ecc : s.core.run.ecc = []) (find : Nat → Option Traits) (w : Nat) :
    s.takeIn find w t = .run w (s.modRun fun x => { x with convoy := none }) := by
  have found := State.lostScalar_of_unmarked (s := s.modRun fun x => { x with convoy := none }) ecc t w
  simp [State.takeIn, lone, cut, found]

/-- Outside handlers a word that decodes is taken in. -/
theorem State.ready_of_coroutine {s : State} {w : Nat} {t : Traits} {find : Nat → Option Traits} (fetch : s.nextFetch = .ok w)
    (known : (s.fed w).known w (find w) = some t) (slot : s.core.slot = none) (px : s.core.px = none) :
    s.ready find = (s.fed w).takeIn find w t := by
  have slot' : (s.fed w).core.slot = none := (s.refilled_slot _).trans slot
  have px' : (s.fed w).core.px = none := (s.refilled_px _).trans px
  unfold State.fed at *
  simp only [State.ready, fetch, known, slot', px']

theorem State.ready_of_lone {s : State} {w : Nat} {i : Instr} (fetch : s.nextFetch = .ok w) (word : decode w = .ok i)
    (lone : i.member = none) (slot : s.core.slot = none) (px : s.core.px = none) (cut : s.core.cut = none)
    (ecc : s.core.run.ecc = []) (service : s.sys.svc = 2) :
    s.ready traitsOf = .run w ((s.fed w).modRun fun c => { c with convoy := none }) := by
  have cut' : (s.fed w).core.cut = none := (s.refilled_cut _).trans cut
  have ecc' : (s.fed w).core.run.ecc = [] := (congrArg (·.ecc) (s.refilled_run _)).trans ecc
  have service' : (s.fed w).sys.svc = 2 := (congrArg (·.svc) (s.refilled_sys _)).trans service
  rw [State.ready_of_coroutine fetch ((State.known_of_full_service service' ..).trans (traitsOf_of_decode word)) slot px]
  exact State.takeIn_of_lone (s := s.fed w) (t := traitsOfInstr i) lone cut' ecc' _ _

/-- Nothing comes before the core's instruction: no stores to wait for, no datum, no deferred failure. -/
theorem coreStep_of_run {s t : State} {w : Nat} (deferred : s.core.run.deferred = none) (pending : s.core.run.pending = [])
    (drain : s.core.drain = none) (ready : s.ready traitsOf = .run w t) : coreStep s = execWord w t := by
  simp [coreStep, deferred, pending, drain, ready]

/-- Settles O53. The first case is a step of the core after its fetch and checks; the second makes that fetch and those checks;
in the others the schedule, or the agenda where there is none, names the step. -/
theorem stepRunsTheDecodedInstruction : Obligations.StepRunsTheDecodedInstruction := by
  unfold Obligations.StepRunsTheDecodedInstruction
  intro s w i on
  refine ⟨fun s1 s2 move deferred pending drain ready word => ?_,
    fun ts sched ordinary deferred pending ecc aligned new fetch word lone service => ?_,
    fun ts k e sched waits => ?_, fun ts e sched => ?_, fun ts id sched here => ?_, fun e es sched first fore enabled => ?_⟩
  · rw [step_of_core on move, coreStep_of_run deferred pending drain ready, execWord_of_decode word]
  · obtain ⟨live, slot, px, -, drain, -, cut⟩ := ordinary
    have move : s.nextMove = (.core, { s with sched := ts }) := by simp [State.nextMove, sched, Core.busy, live]
    have fetched := (State.nextFetch_of_aligned (s := { s with sched := ts }) aligned new).trans fetch
    have ready := State.ready_of_lone fetched word lone slot px cut ecc service
    rw [step_of_core on move, coreStep_of_run (s := { s with sched := ts }) deferred pending drain ready,
      execWord_of_decode word]
    exact congrArg (exec i) (State.fed_modRun { s with sched := ts } w _)
  · exact step_of_event on (t := { s with sched := ts }) (by simp [State.nextMove, sched]) waits
  · exact step_of_input on (by simp [State.nextMove, sched])
  · exact step_of_focus on (by simp [State.nextMove, sched, here])
  · rw [step_of_event on (State.nextMove_of_first sched first fore enabled) (by rw [first]; rfl), first]
    rfl

end Sys2Proof.Machine
end

section
/-! SUPPORT. What the scalar instructions on words give (spec/07 R183, spec/09 R228, R229 and R231): quotients and smaller operands
in the terms of integers, and counts, reversed bytes and bit fields in the terms of single bits. -/

namespace Sys2Proof.Machine

/-! ## Quotients, remainders, and the smaller and larger operand (R183, R228) -/

theorem divS_eq (x y : Word) : divS x y = if y = 0 then -1 else BitVec.ofInt 64 (x.toInt.tdiv y.toInt) := by
  unfold divS
  congr 1
  apply BitVec.eq_of_toInt_eq
  rw [BitVec.toInt_sdiv, BitVec.toInt_ofInt]

theorem divU_eq (x y : Word) :
    divU x y = if y = 0 then BitVec.allOnes 64 else BitVec.ofNat 64 (x.toNat / y.toNat) := by
  unfold divU
  rw [show (-1 : Word) = BitVec.allOnes 64 by decide, ← BitVec.toNat_udiv, BitVec.ofNat_toNat, BitVec.setWidth_eq]

theorem remS_eq (x y : Word) : remS x y = if y = 0 then x else BitVec.ofInt 64 (x.toInt.tmod y.toInt) := by
  unfold remS
  rw [← BitVec.toInt_srem, BitVec.ofInt_toInt]

theorem remU_eq (x y : Word) : remU x y = if y = 0 then x else BitVec.ofNat 64 (x.toNat % y.toNat) := by
  unfold remU
  rw [← BitVec.toNat_umod, BitVec.ofNat_toNat, BitVec.setWidth_eq]

theorem minS_eq (x y : Word) : minS x y = if x.toInt < y.toInt then x else y := by
  simp only [minS, BitVec.slt_iff_toInt_lt]

theorem maxS_eq (x y : Word) : maxS x y = if x.toInt < y.toInt then y else x := by
  simp only [maxS, BitVec.slt_iff_toInt_lt]

/-! ## Single bits of numbers -/

theorem bitAt_eq_testBit (x i : Nat) : bitAt x i = x.testBit i := by
  rw [bitAt, Nat.testBit_eq_decide_div_mod_eq]
  rfl

/-! ## Counts of bits (R228) -/

/-- The zeros from bit `n - 1` down, and the one below them where there is one. -/
theorem leadZeros_spec (n x : Nat) : leadZeros n x ≤ n ∧
    (∀ i, i < leadZeros n x → x.testBit (n - 1 - i) = false) ∧
    (leadZeros n x < n → x.testBit (n - 1 - leadZeros n x) = true) := by
  induction n with
  | zero => simp [leadZeros]
  | succ n ih =>
    obtain ⟨le, zeros, one⟩ := ih
    rw [leadZeros, bitAt_eq_testBit, Nat.add_sub_cancel]
    split
    next top => simp [top]
    next top =>
      refine ⟨by omega, fun i hi => ?_, fun hn => ?_⟩
      · cases i with
        | zero => simpa using top
        | succ i =>
          rw [show n - (i + 1) = n - 1 - i by omega]
          exact zeros i (by omega)
      · rw [show n - (1 + leadZeros n x) = n - 1 - leadZeros n x by omega]
        exact one (by omega)

/-- The zeros from bit 0 up, and the one above them where there is one. -/
theorem trailZeros_spec (n x : Nat) : trailZeros n x ≤ n ∧ (∀ i, i < trailZeros n x → x.testBit i = false) ∧
    (trailZeros n x < n → x.testBit (trailZeros n x) = true) := by
  induction n generalizing x with
  | zero => simp [trailZeros]
  | succ n ih =>
    obtain ⟨le, zeros, one⟩ := ih (x / 2)
    rw [trailZeros]
    split
    next low => simp [Nat.testBit_zero, low]
    next low =>
      refine ⟨by omega, fun i hi => ?_, fun hn => ?_⟩
      · cases i with
        | zero => simpa [Nat.testBit_zero] using low
        | succ i =>
          rw [Nat.testBit_succ]
          exact zeros i (by omega)
      · rw [Nat.add_comm, Nat.testBit_succ]
        exact one (by omega)

theorem popLow_eq_countP (n x : Nat) : popLow n x = (List.range n).countP (fun i => x.testBit i) := by
  induction n generalizing x with
  | zero => rfl
  | succ n ih =>
    rw [popLow, ih, List.range_succ_eq_map, List.countP_cons, List.countP_map, Nat.add_comm]
    congr 1
    · congr 1
      funext i
      exact (Nat.testBit_succ ..).symm
    · rcases Nat.mod_two_eq_zero_or_one x with h | h <;> simp [Nat.testBit_zero, h]

/-! ## Reversed bytes (R228) -/

theorem leBytes_length (n x : Nat) : (leBytes n x).length = n := by
  induction n generalizing x with
  | zero => rfl
  | succ n ih => rw [leBytes, List.length_cons, ih]

theorem leBytes_getElem (n x i : Nat) (h : i < (leBytes n x).length) :
    (leBytes n x)[i] = BitVec.ofNat 8 (x / 256 ^ i) := by
  induction n generalizing x i with
  | zero => exact absurd h (Nat.not_lt_zero i)
  | succ n ih =>
    cases i with
    | zero => simp [leBytes]
    | succ i => simp [leBytes, ih, Nat.div_div_eq_div_mul, Nat.pow_succ, Nat.mul_comm]

/-- Byte `i` of a little-endian number is the one that stands there in its list. -/
theorem byte_leNat (bs : List Byte) (i : Nat) (h : i < bs.length) : BitVec.ofNat 8 (leNat bs / 256 ^ i) = bs[i] := by
  induction bs generalizing i with
  | nil => exact absurd h (Nat.not_lt_zero i)
  | cons b bs ih =>
    have lt := b.isLt
    cases i with
    | zero =>
      apply BitVec.eq_of_toNat_eq
      simp only [leNat, BitVec.toNat_ofNat, List.getElem_cons_zero]
      omega
    | succ i =>
      rw [List.getElem_cons_succ, ← ih, Nat.pow_succ', ← Nat.div_div_eq_div_mul]
      congr 2
      rw [leNat]
      omega

theorem extractLsb'_byte (v : Word) (i : Nat) : v.extractLsb' (8 * i) 8 = BitVec.ofNat 8 (v.toNat / 256 ^ i) := by
  rw [BitVec.extractLsb', Nat.shiftRight_eq_div_pow, Nat.pow_mul]

theorem leNat_lt (bs : List Byte) : leNat bs < 256 ^ bs.length := by
  induction bs with
  | nil => simp [leNat]
  | cons b bs ih =>
    have lt := b.isLt
    rw [leNat, List.length_cons, Nat.pow_succ]
    omega

theorem reverseBytes_byte (x : Word) {i : Nat} (hi : i < 8) :
    (reverseBytes x).extractLsb' (8 * i) 8 = x.extractLsb' (8 * (7 - i)) 8 := by
  have lt := leNat_lt (leBytes 8 x.toNat).reverse
  rw [List.length_reverse, leBytes_length, show 256 ^ 8 = 2 ^ 64 by decide] at lt
  have here : i < (leBytes 8 x.toNat).reverse.length := by rwa [List.length_reverse, leBytes_length]
  rw [extractLsb'_byte, extractLsb'_byte, reverseBytes, w64, BitVec.toNat_ofNat, Nat.mod_eq_of_lt lt, byte_leNat _ i here,
    List.getElem_reverse, leBytes_getElem, leBytes_length]

/-! ## Bit fields (R229) -/

theorem fieldLow_add_fieldLen_le (c : Word) : fieldLow c + fieldLen c ≤ 64 := by
  have := Nat.mod_lt c.toNat (show 0 < 64 by decide)
  unfold fieldLen fieldLow
  omega

theorem fieldGet_bit (x c : Word) (i : Nat) :
    (fieldGet x c).getLsbD i = (decide (i < fieldLen c) && x.getLsbD (fieldLow c + i)) := by
  have le := fieldLow_add_fieldLen_le c
  rw [fieldGet, w64, BitVec.getLsbD_ofNat, Nat.testBit_mod_two_pow, Nat.testBit_div_two_pow, BitVec.getLsbD, Nat.add_comm]
  by_cases h : i < fieldLen c
  · simp [h, show i < 64 by omega]
  · simp [h]

/-- A number read as a signed one of `n` bits is the value of the word of those bits (R183). -/
theorem toSigned_eq_toInt (n m : Nat) : toSigned n m = (BitVec.ofNat n m).toInt := by
  cases n with
  | zero => simp [toSigned, Nat.mod_one, BitVec.of_length_zero]
  | succ n =>
    rw [toSigned, BitVec.toInt_eq_toNat_cond, BitVec.toNat_ofNat, Nat.add_sub_cancel, Nat.pow_succ]
    split_ifs <;> first | rfl | omega

theorem fieldGetS_bit (x c : Word) {i : Nat} (hi : i < 64) : (fieldGetS x c).getLsbD i =
    (decide (0 < fieldLen c) && x.getLsbD (fieldLow c + min i (fieldLen c - 1))) := by
  unfold fieldGetS
  split
  next none => simp [none]
  next some =>
    have bit (k : Nat) (hk : k < fieldLen c) :
        (BitVec.ofNat (fieldLen c) (x.toNat / 2 ^ fieldLow c)).getLsbD k = x.getLsbD (fieldLow c + k) := by
      rw [BitVec.getLsbD_ofNat, Nat.testBit_div_two_pow, BitVec.getLsbD, Nat.add_comm]
      simp [hk]
    rw [toSigned_eq_toInt, ← BitVec.signExtend, BitVec.getLsbD_signExtend, BitVec.msb_eq_getLsbD_last]
    simp only [hi, Nat.pos_of_ne_zero some, decide_true, Bool.true_and]
    split
    next h => rw [bit i h, Nat.min_eq_left (by omega)]
    next h => rw [bit _ (by omega), Nat.min_eq_right (by omega)]

/-- Bit `i` of a number with a field of `n` bits from `lo` on replaced. -/
theorem setBits_testBit (x lo n v i : Nat) (hn : 0 < n) : (setBits x (lo + n - 1) lo v).testBit i =
    if lo ≤ i ∧ i < lo + n then v.testBit (i - lo) else x.testBit i := by
  have parts : setBits x (lo + n - 1) lo v = 2 ^ lo * (2 ^ n * (x / 2 ^ lo / 2 ^ n) + v % 2 ^ n) + x % 2 ^ lo := by
    have outer := Nat.div_add_mod x (2 ^ lo)
    have inner := congrArg (2 ^ lo * ·) (Nat.div_add_mod (x / 2 ^ lo) (2 ^ n))
    simp only [Nat.mul_add] at inner
    rw [setBits, bits, show lo + n - 1 + 1 - lo = n by omega, Nat.mul_add]
    rw [Nat.mul_comm (_ % _) (2 ^ lo), Nat.mul_comm (_ % _) (2 ^ lo)]
    omega
  rw [parts, Nat.testBit_two_pow_mul_add _ (Nat.mod_lt _ (Nat.two_pow_pos lo))]
  split
  next below => rw [if_neg (by omega), Nat.testBit_mod_two_pow]; simp [below]
  next notBelow =>
    rw [Nat.testBit_two_pow_mul_add _ (Nat.mod_lt _ (Nat.two_pow_pos n))]
    split
    next inside => rw [if_pos (by omega), Nat.testBit_mod_two_pow]; simp [inside]
    next above =>
      rw [if_neg (by omega), Nat.testBit_div_two_pow, Nat.testBit_div_two_pow]
      congr 1
      omega

theorem fieldPut_bit (d x c : Word) {i : Nat} (hi : i < 64) : (fieldPut d x c).getLsbD i =
    if fieldLow c ≤ i ∧ i < fieldLow c + fieldLen c then x.getLsbD (i - fieldLow c) else d.getLsbD i := by
  unfold fieldPut
  split
  next none => rw [if_neg (by omega)]
  next some =>
    rw [w64, BitVec.getLsbD_ofNat, setBits_testBit _ _ _ _ _ (Nat.pos_of_ne_zero some)]
    simp [hi, BitVec.getLsbD]

end Sys2Proof.Machine
end

section
/-! SUPPORT. The scalar instructions in the forms that they share (spec/09 R225 and R228 to R231): an instruction whose meaning is
a form writes what the form's function gives. -/

namespace Sys2Proof.Machine

/-- An instruction whose whole meaning stands under a guard that is true. -/
theorem exec_of_guard_on {i : Instr} {s t : State} {g : Guard} {f : State → State}
    (body : exec i s = .next (s.guarded g f)) (hg : s.enables g) (result : f s = t) : exec i s = .next t := by
  rw [body, State.guarded_on hg, result]

/-! ## Forms that write a register -/

section
variable {i : Instr} {s : State} {g : Guard} {d a b : Fin 32}

/-- A register written under the guard `g` with `f` of the state. -/
theorem exec_of_write {f : State → Word} {v : Word}
    (body : exec i s = .next (s.guarded g fun s => (s.setS d (f s)).advance)) (hg : s.enables g) (value : f s = v) :
    exec i s = .next (s.wrote d v) :=
  exec_of_guard_on body hg (value ▸ s.setS_advance d _)

theorem exec_of_alu {f : Word → Word → Word} {v : Word} (body : exec i s = .next (s.alu g d a b f)) (hg : s.enables g)
    (value : f (s.reg a) (s.reg b) = v) : exec i s = .next (s.wrote d v) := by
  rw [body, State.alu_eq hg, value]

theorem exec_of_alu1 {f : Word → Word} {v : Word} (body : exec i s = .next (s.alu1 g d a f)) (hg : s.enables g)
    (value : f (s.reg a) = v) : exec i s = .next (s.wrote d v) := by
  rw [body, State.alu1_eq hg, value]

end

/-! ## The results of each group -/

section
variable (s : State) (g : Guard) (d a b : Fin 32)

/-- `sel` is executed whatever its guard (R229). -/
theorem exec_sel : exec (.sel g d a b) s =
    .next (s.wrote d (if s.core.run.guardOn g then s.reg a else s.reg b)) :=
  congrArg Host.Outcome.next (State.setS_advance s d _)

theorem exec_sel_of_enables (hg : s.enables g) : exec (.sel g d a b) s = .next (s.wrote d (s.reg a)) := by
  rw [exec_sel, State.guardOn_of_enables hg, if_pos rfl]

theorem exec_sel_of_not_enables (hg : ¬ s.enables g) : exec (.sel g d a b) s = .next (s.wrote d (s.reg b)) := by
  rw [exec_sel, State.guardOn_of_not_enables hg, if_neg Bool.false_ne_true]

end

section
variable {s : State} {g : Guard} (hg : s.enables g) (d a b : Fin 32)
include hg

theorem exec_clz_counts : ∃ n : Nat, n ≤ 64 ∧ exec (.clz g d a) s = .next (s.wrote d (BitVec.ofNat 64 n)) ∧
    (∀ i, i < n → (s.reg a).getLsbD (63 - i) = false) ∧ (n < 64 → (s.reg a).getLsbD (63 - n) = true) :=
  have ⟨le, zeros, one⟩ := leadZeros_spec 64 (s.reg a).toNat
  ⟨_, le, exec_of_alu1 rfl hg rfl, zeros, one⟩

theorem exec_ctz_counts : ∃ n : Nat, n ≤ 64 ∧ exec (.ctz g d a) s = .next (s.wrote d (BitVec.ofNat 64 n)) ∧
    (∀ i, i < n → (s.reg a).getLsbD i = false) ∧ (n < 64 → (s.reg a).getLsbD n = true) :=
  have ⟨le, zeros, one⟩ := trailZeros_spec 64 (s.reg a).toNat
  ⟨_, le, exec_of_alu1 rfl hg rfl, zeros, one⟩

end

/-- Settles O1. Each instruction is a form of scalar instructions with a function of words; what that function gives is `rfl` for
the sums, products, shifts and bitwise operations, and a lemma of its own for quotients, counts, bytes and bit fields. -/
theorem scalarIntegerResults : Obligations.ScalarIntegerResults := by
  unfold Obligations.ScalarIntegerResults
  refine ⟨fun s g d a b hg => ?arithmetic, fun s g d a b hg => ?products, fun s g d a hg => ?counts,
    fun s g d a b => ?fields, fun s g d a hg => ?immediates⟩
  case arithmetic => and_intros <;> exact exec_of_alu rfl hg rfl
  case products =>
    exact ⟨exec_of_alu rfl hg rfl, exec_of_alu rfl hg rfl, exec_of_alu rfl hg rfl, exec_of_alu rfl hg (divS_eq ..),
      exec_of_alu rfl hg (divU_eq ..), exec_of_alu rfl hg (remS_eq ..), exec_of_alu rfl hg (remU_eq ..),
      exec_of_alu rfl hg (minS_eq ..), exec_of_alu rfl hg (maxS_eq ..), exec_of_alu rfl hg rfl, exec_of_alu rfl hg rfl⟩
  case counts =>
    exact ⟨exec_clz_counts hg d a, exec_ctz_counts hg d a,
      exec_of_alu1 rfl hg (congrArg (BitVec.ofNat 64) (popLow_eq_countP 64 _)),
      _, exec_of_alu1 rfl hg rfl, fun i => reverseBytes_byte _⟩
  case fields =>
    exact ⟨exec_sel_of_enables s g d a b, exec_sel_of_not_enables s g d a b, fun hg =>
      ⟨⟨_, exec_of_alu rfl hg rfl, fieldGet_bit _ _⟩, ⟨_, exec_of_alu rfl hg rfl, fun i => fieldGetS_bit _ _⟩,
        ⟨_, exec_of_write rfl hg rfl, fun i => fieldPut_bit _ _ _⟩⟩⟩
  case immediates =>
    have unsigned {n : Nat} (u : BitVec n) : u.setWidth 64 = BitVec.ofNat 64 u.toNat := (BitVec.ofNat_toNat 64 u).symm
    refine ⟨fun i => exec_of_alu1 rfl hg rfl, fun u => ?_, fun i => ⟨exec_of_write rfl hg rfl, ?_⟩⟩
    · exact ⟨exec_of_alu1 rfl hg (congrArg _ (unsigned u)), exec_of_alu1 rfl hg (congrArg _ (unsigned u)),
        exec_of_alu1 rfl hg (congrArg _ (unsigned u)), exec_of_alu1 rfl hg rfl, exec_of_alu1 rfl hg rfl,
        exec_of_alu1 rfl hg rfl⟩
    · exact exec_of_alu1 rfl hg (congrArg _ (unsigned i))

end Sys2Proof.Machine
end

section
/-! SUPPORT. Compares and combinations of guards, and scalar floating point (spec/09 R230 and R232 to R234): the state that each form
leaves, in the terms of the statements. -/

namespace Sys2Proof.Machine

/-! ## Compares (R230, R233) -/

/-- Flags set besides the guards of a compare (R233). -/
theorem State.Compared.orFlags {s t : State} {d : Fin 64} {c : Bool} (h : s.Compared t d c 0) (f : Flags) :
    s.Compared (t.modRun (·.orFlags f)) d c f := by
  obtain ⟨frame, guards⟩ := h
  refine ⟨?_, guards⟩
  conv_lhs => rw [frame]
  simp [State.modRun, State.withRun, Coro.orFlags]

theorem State.finishFcmp_compared (s : State) {d : Fin 64} (hd : pairOk d = true) (r : Bool × Flags) :
    s.Compared (s.finishFcmp d r) d r.1 r.2 :=
  (s.setGPair_compared hd r.1).orFlags r.2

section
variable {i : Instr} {s : State} {g : Guard} {d : Fin 64}

/-- Two guards written under the guard `g` with `f` of the state. -/
theorem exec_of_setGPair {f : State → Bool} {c : Bool}
    (body : exec i s = .next (s.guarded g fun s => (s.setGPair d (f s)).advance)) (hg : s.enables g)
    (hd : pairOk d = true) (value : f s = c) : Goes (exec i s) (s.Compared · d c 0) :=
  ⟨_, exec_of_guard_on body hg rfl, value ▸ s.setGPair_compared hd _⟩

theorem exec_of_compare {a b : Fin 32} {f : Word → Word → Bool} {c : Bool} (body : exec i s = .next (s.compare g d a b f))
    (hg : s.enables g) (hd : pairOk d = true) (value : f (s.reg a) (s.reg b) = c) :
    Goes (exec i s) (s.Compared · d c 0) :=
  exec_of_setGPair body hg hd value

theorem exec_of_combine {a b : Fin 8} {f : Bool → Bool → Bool} {c : Bool} (body : exec i s = .next (s.combine g d a b f))
    (hg : s.enables g) (hd : pairOk d = true) (value : f (s.guard a) (s.guard b) = c) :
    Goes (exec i s) (s.Compared · d c 0) :=
  exec_of_setGPair body hg hd value

theorem exec_of_fcompare {a b : Fin 32} {f : Fmt} {cc : Nat} (body : exec i s = .next (s.fcompare g d a b f cc))
    (hg : s.enables g) (hd : pairOk d = true) :
    let r := f.compare cc (s.freg f a) (s.freg f b)
    Goes (exec i s) (s.Compared · d r.1 r.2) :=
  ⟨_, exec_of_guard_on body hg rfl, s.finishFcmp_compared hd _⟩

end

/-- Settles O2: each compare and each combination of guards is one write of a pair of guards. -/
theorem compareAndGuardLogicResults : Obligations.CompareAndGuardLogicResults := by
  unfold Obligations.CompareAndGuardLogicResults
  intro s g d hg hd
  refine ⟨fun a b => ?compares, fun a b => ?combinations⟩
  case compares => and_intros <;> exact exec_of_compare rfl hg hd rfl
  case combinations => exact ⟨exec_of_combine rfl hg hd rfl, exec_of_combine rfl hg hd rfl⟩

/-! ## Floating point (R232 to R234) -/

theorem State.setS_orFlags_advance (s : State) (d : Fin 32) (v : Word) (f : Flags) :
    ((s.setS d v).modRun (·.orFlags f)).advance = s.wroteFlags d v f :=
  congrArg (State.modRun · (·.orFlags f)) (s.setS_advance d v)

section
variable {i : Instr} {s : State} {g : Guard} {d a b : Fin 32}

/-- A register written with its flags under the guard `g`. -/
theorem exec_of_writeFlags {f : State → Word × Flags}
    (body : exec i s = .next (s.guarded g fun s => ((s.setS d (f s).1).modRun (·.orFlags (f s).2)).advance))
    (hg : s.enables g) : exec i s = .next (s.wroteFlags d (f s).1 (f s).2) :=
  exec_of_guard_on body hg (State.setS_orFlags_advance ..)

/-- A result written with its flags under the guard `g`. -/
theorem exec_of_finishFp {f : State → Nat × Flags} (body : exec i s = .next (s.guarded g fun s => s.finishFp d (f s)))
    (hg : s.enables g) : exec i s = .next (s.wroteFlags d (BitVec.ofNat 64 (f s).1) (f s).2) :=
  exec_of_writeFlags (f := fun s => (w64 (f s).1, (f s).2)) body hg

theorem exec_of_fop {f : Fmt} {op : Rm → Nat → Nat → Nat × Flags} (body : exec i s = .next (s.fop g d a b f op))
    (hg : s.enables g) :
    let r := op (Rm.ofFrm s.core.run.frm.toNat).arith (s.freg f a) (s.freg f b)
    exec i s = .next (s.wroteFlags d (BitVec.ofNat 64 r.1) r.2) :=
  exec_of_finishFp body hg

theorem exec_of_fminmax {f : Fmt} {isMax : Bool} (body : exec i s = .next (s.fminmax g d a b f isMax)) (hg : s.enables g) :
    let r := f.minmax isMax (s.freg f a) (s.freg f b)
    exec i s = .next (s.wroteFlags d (BitVec.ofNat 64 r.1) r.2) :=
  exec_of_finishFp body hg

theorem exec_of_ffma {f : Fmt} (body : exec i s = .next (s.ffma g d a b f)) (hg : s.enables g) :
    let r := f.fma (Rm.ofFrm s.core.run.frm.toNat).arith (s.freg f a) (s.freg f b) (s.freg f d)
    exec i s = .next (s.wroteFlags d (BitVec.ofNat 64 r.1) r.2) :=
  exec_of_finishFp body hg

theorem exec_of_fsqrt {f : Fmt} (body : exec i s = .next (s.fsqrt g d a f)) (hg : s.enables g) :
    let r := f.sqrt (Rm.ofFrm s.core.run.frm.toNat).arith (s.freg f a)
    exec i s = .next (s.wroteFlags d (BitVec.ofNat 64 r.1) r.2) :=
  exec_of_finishFp body hg

end

/-- A NaN is unordered with every value (R188). -/
theorem fcmp_of_isNan {x y : FVal} (h : x.isNan = true ∨ y.isNan = true) : fcmp x y = none := by
  rcases h with h | h
  · cases x with
    | nan => rfl
    | inf | fin => cases h
  · cases y with
    | nan => cases x <;> rfl
    | inf | fin => cases h

theorem Fmt.compare_of_isNan {f : Fmt} {x y : Nat} (cc : Nat) (h : (f.decode x).isNan = true ∨ (f.decode y).isNan = true) :
    (f.compare cc x y).1 = false := by
  simp only [Fmt.compare, fcmp_of_isNan h]

/-- Settles O3: each operation and each conversion is one write of a register with its flags, and each comparison one of a pair of
guards with its flags. -/
theorem scalarFloatingPointResults : Obligations.ScalarFloatingPointResults := by
  unfold Obligations.ScalarFloatingPointResults
  refine ⟨fun s g d a b hg => ?operations, fun s g hg => ⟨fun d a b hd f i cc member => ?compares, fun d a t sc => ?conversions⟩⟩
  case operations =>
    exact ⟨exec_of_fop rfl hg, exec_of_fop rfl hg, exec_of_fop rfl hg, exec_of_fop rfl hg,
      exec_of_fminmax rfl hg, exec_of_fminmax rfl hg, exec_of_ffma rfl hg, exec_of_fsqrt rfl hg,
      exec_of_fop rfl hg, exec_of_fop rfl hg, exec_of_fop rfl hg, exec_of_fop rfl hg,
      exec_of_fminmax rfl hg, exec_of_fminmax rfl hg, exec_of_ffma rfl hg, exec_of_fsqrt rfl hg⟩
  case compares =>
    have body : exec i s = .next (s.fcompare g d a b f cc) := by
      simp only [List.mem_cons, List.not_mem_nil, or_false, Prod.mk.injEq] at member
      obtain ⟨rfl, rfl, rfl⟩ | ⟨rfl, rfl, rfl⟩ | ⟨rfl, rfl, rfl⟩ | ⟨rfl, rfl, rfl⟩ | ⟨rfl, rfl, rfl⟩ | ⟨rfl, rfl, rfl⟩ := member
      all_goals rfl
    obtain ⟨t, next, compared⟩ := exec_of_fcompare body hg hd
    exact ⟨t, next, compared, Fmt.compare_of_isNan cc⟩
  case conversions => exact exec_of_writeFlags (f := fun s => convert s.core.run.convRm t sc (s.getS a)) rfl hg

end Sys2Proof.Machine
end

section
/-! SUPPORT. Branches, links and loops (spec/09 R235, R236): the state that each leaves, in the terms of the statements. -/

namespace Sys2Proof.Machine

theorem State.setS_setPc (s : State) (d : Fin 32) (v pc : Word) : (s.setS d v).setPc pc = (s.wrote d v).jumped pc := by
  rw [← State.setS_advance]
  rfl

section
variable {s : State} {k : Fin 4} (i : BitVec 15)

/-- A counter of zero leaves the loop as it is. -/
theorem State.loopOp_zero (n : s.core.run.lc[k] = 0) : s.loopOp k i = s.passed := by
  rw [State.loopOp, if_pos n, State.advance_eq_passed]

/-- The last round counts the counter down to zero and goes on. -/
theorem State.loopOp_one (n : s.core.run.lc[k] = 1) :
    s.loopOp k i = (s.withRun { s.core.run with lc := s.core.run.lc.set k (s.core.run.lc[k] - 1) }).passed := by
  have nonzero : s.core.run.lc[k] ≠ 0 := by rw [n]; decide
  rw [State.loopOp, if_neg nonzero, if_pos n]
  rfl

/-- An earlier round counts down and goes round again. -/
theorem State.loopOp_many (n : 1 < s.core.run.lc[k].toNat) :
    s.loopOp k i = (s.withRun { s.core.run with lc := s.core.run.lc.set k (s.core.run.lc[k] - 1) }).jumped (s.target i) := by
  have nonzero : s.core.run.lc[k] ≠ 0 := fun e => by simp [e] at n
  have several : s.core.run.lc[k] ≠ 1 := fun e => by simp [e] at n
  rw [State.loopOp, if_neg nonzero, if_neg several]
  rfl

end

/-- Settles O5: a branch writes the program counter, a link a register before it, and the three cases of `loop` are those of
`State.loopOp`. -/
theorem branchLoopAndNopResults : Obligations.BranchLoopAndNopResults := by
  unfold Obligations.BranchLoopAndNopResults
  refine ⟨fun s g hg => ⟨fun i => ⟨?b, ?jal⟩, fun d a => ?jr, fun k i => ⟨fun n => ?zero, fun n => ?one, fun n => ?many⟩⟩,
    fun s => ?nop⟩
  case b => exact exec_of_guard_on rfl hg rfl
  case jal => exact exec_of_guard_on rfl hg (s.setS_setPc ..)
  case jr => exact exec_of_guard_on rfl hg (s.setS_setPc ..)
  case zero => exact exec_of_guard_on rfl hg (State.loopOp_zero i n)
  case one => exact exec_of_guard_on rfl hg (State.loopOp_one i n)
  case many => exact exec_of_guard_on rfl hg (State.loopOp_many i n)
  case nop => exact congrArg Host.Outcome.next s.advance_eq_passed

end Sys2Proof.Machine
end

section
/-! SUPPORT. Vector registers as bytes, and where the elements of a tile and their mask bits lie (spec/06 R158 to R160): no two
elements share a byte of a register, nor a bit of a mask. -/

namespace Sys2Proof.Machine

/-! ## Bytes of a register -/

theorem VReg.testBit_get (x : VReg) (o n i : Nat) :
    (VReg.get x o n).testBit i = (decide (i < 8 * n) && x.getLsbD (8 * o + i)) := by
  rw [VReg.get, Nat.testBit_mod_two_pow, Nat.testBit_div_two_pow, BitVec.getLsbD, Nat.add_comm i]

theorem VReg.get_lt (x : VReg) (o n : Nat) : VReg.get x o n < 2 ^ (8 * n) := Nat.mod_lt _ (Nat.two_pow_pos _)

theorem VReg.getLsbD_put (x : VReg) (o v j : Nat) {n : Nat} (hn : 0 < n) : (VReg.put x o n v).getLsbD j =
    if 8 * o ≤ j ∧ j < 8 * (o + n) then decide (j < 65536) && v.testBit (j - 8 * o) else x.getLsbD j := by
  rw [VReg.put, BitVec.getLsbD_ofNat, Nat.mul_add, setBits_testBit _ _ _ _ _ (by omega : 0 < 8 * n)]
  split
  · rfl
  · rw [BitVec.testBit_toNat]
    exact Bool.and_eq_right_iff_imp.2 fun h => decide_eq_true (BitVec.lt_of_getLsbD h)

theorem VReg.get_put_same (x : VReg) (v : Nat) {o n : Nat} (hn : 0 < n) (h : o + n ≤ 8192) :
    VReg.get (VReg.put x o n v) o n = v % 2 ^ (8 * n) := by
  apply Nat.eq_of_testBit_eq
  intro i
  rw [VReg.testBit_get, VReg.getLsbD_put _ _ _ _ hn, Nat.testBit_mod_two_pow]
  by_cases hi : i < 8 * n
  · rw [if_pos (by omega), Nat.add_sub_cancel_left]
    simp [show 8 * o + i < 65536 by omega]
  · simp [hi]

/-- Two ranges of bytes whose bits agree hold the same number. -/
theorem VReg.get_congr {x y : VReg} {o n : Nat} (h : ∀ j, 8 * o ≤ j → j < 8 * (o + n) → x.getLsbD j = y.getLsbD j) :
    VReg.get x o n = VReg.get y o n := by
  apply Nat.eq_of_testBit_eq
  intro i
  rw [VReg.testBit_get, VReg.testBit_get]
  by_cases hi : i < 8 * n
  · rw [h _ (by omega) (by omega)]
  · simp [hi]

/-! ## Places in sweep order (R7) -/

/-- The first `n r` places of each of `rows` rows, in sweep order. -/
def rowPlaces (rows : Nat) (n : Nat → Nat) : List (Nat × Nat) :=
  (List.range rows).flatMap fun r => (List.range (n r)).map fun e => (r, e)

theorem mem_rowPlaces {rows : Nat} {n : Nat → Nat} {r e : Nat} : (r, e) ∈ rowPlaces rows n ↔ r < rows ∧ e < n r := by
  simp [rowPlaces]

theorem rowPlaces_sorted (rows : Nat) (n : Nat → Nat) :
    (rowPlaces rows n).Pairwise (fun p q => p.1 < q.1 ∨ p.1 = q.1 ∧ p.2 < q.2) := by
  refine List.pairwise_flatMap.2 ⟨fun r _ => ?_, List.pairwise_lt_range.imp fun lt p hp q hq => ?_⟩
  · exact List.pairwise_map.2 (List.pairwise_lt_range.imp fun lt => .inr ⟨rfl, lt⟩)
  · obtain ⟨e, -, rfl⟩ := List.mem_map.1 hp
    obtain ⟨e', -, rfl⟩ := List.mem_map.1 hq
    exact .inl lt

theorem nodup_rowPlaces (rows : Nat) (n : Nat → Nat) : (rowPlaces rows n).Nodup := by
  refine (rowPlaces_sorted rows n).imp fun before eq => ?_
  cases eq
  omega

theorem foldl_rowPlaces {σ : Type} (step : σ → Nat × Nat → σ) (x : σ) (rows : Nat) (n : Nat → Nat) :
    (rowPlaces rows n).foldl step x =
      (List.range rows).foldl (fun y r => (List.range (n r)).foldl (fun y e => step y (r, e)) y) x := by
  simp only [rowPlaces, List.foldl_flatMap, List.foldl_map]

theorem Coro.tile_eq_rowPlaces (c : Coro) : c.tile = rowPlaces c.rc.toNat fun _ => c.vl.toNat := rfl

/-! ## The tile in its registers (R159, R160) -/

theorem typeBytes_pos (t : Nat) : 0 < typeBytes t := by
  unfold typeBytes
  split <;> decide

theorem Coro.tyBytes_pos (c : Coro) : 0 < c.tyBytes := typeBytes_pos _

theorem Coro.mem_tile (c : Coro) (r e : Nat) : (r, e) ∈ c.tile ↔ r < c.rc.toNat ∧ e < c.vl.toNat := by
  rw [Coro.tile_eq_rowPlaces, mem_rowPlaces]

theorem State.inTile_iff_mem (s : State) (r e : Nat) : s.inTile r e ↔ (r, e) ∈ s.core.run.tile :=
  (s.core.run.mem_tile r e).symm

theorem Coro.nodup_tile (c : Coro) : c.tile.Nodup := nodup_rowPlaces ..

theorem Coro.rowByte_add (c : Coro) (r n : Nat) : c.rowByte (r + n) = c.rowByte r + n * (c.gpr * 128) := by
  simp only [Coro.rowByte]
  ring

/-- The elements of `w` bytes of each row of the tile lie in that row, and the rows in a register. -/
structure Coro.Spans (c : Coro) (w : Nat) : Prop where
  pos : 0 < w
  row : ∀ e, e < c.vl.toNat → e * w + w ≤ c.gpr * 128
  last : ∀ r, r < c.rc.toNat → 0 < c.vl.toNat → c.rowByte r + c.gpr * 128 ≤ 8192

theorem Coro.wb_dvd (c : Coro) : c.wb ∣ 128 := by
  have small := c.wmax.isLt
  exact pow_dvd_pow 2 (show c.wmax.toNat ≤ 7 by omega)

theorem Coro.wb_pos (c : Coro) : 0 < c.wb := Nat.two_pow_pos _

theorem Core.lanes_le (c : Core) : c.lanes ≤ 4 := by
  rw [Core.lanes, popLow_eq_countP]
  exact List.countP_le_length

theorem Coro.rgroups_le (c : Coro) {lanes : Nat} (h : lanes ≤ 4) : c.rgroups lanes ≤ 64 := by
  have eight : 8 ≤ c.nregs := Nat.pow_le_pow_right (n := 2) (by decide) (Nat.le_add_left 3 _)
  exact (Nat.div_le_div_left eight (by decide)).trans (Nat.div_le_of_le_mul (by omega))

theorem Coro.vl_mul_wb_le (c : Coro) : c.vl.toNat * c.wb ≤ c.gpr * 128 := by
  unfold Coro.gpr ceilDiv
  omega

theorem Coro.shapeFits_groups {c : Coro} {lanes : Nat} (h : c.shapeFits lanes = true) (hv : 0 < c.vl.toNat)
    (hr : 0 < c.rc.toNat) : c.rc.toNat * c.gpr ≤ c.rgroups lanes := by
  have := mt (c.shapeFits_eq_false_iff lanes).2 (Bool.eq_false_iff.not.2 (not_not.2 h))
  omega

theorem State.spans_of_issues {s : State} {regs : List (Fin 64)} {w n : Nat} (h : s.issues regs n) (pos : 0 < w)
    (hw : w ≤ n) : s.core.run.Spans w := by
  obtain ⟨-, -, width, shape, -, -⟩ := h
  refine ⟨pos, fun e he => ?_, fun r hr hv => ?_⟩
  · calc e * w + w = (e + 1) * w := by ring
      _ ≤ s.core.run.vl.toNat * s.core.run.wb := Nat.mul_le_mul he (hw.trans width)
      _ ≤ s.core.run.gpr * 128 := s.core.run.vl_mul_wb_le
  · have groups := (Coro.shapeFits_groups shape hv (by omega)).trans (s.core.run.rgroups_le s.core.lanes_le)
    have rows : (r + 1) * s.core.run.gpr ≤ s.core.run.rc.toNat * s.core.run.gpr := Nat.mul_le_mul_right _ hr
    calc s.core.run.rowByte r + s.core.run.gpr * 128 = (r + 1) * s.core.run.gpr * 128 := by rw [Coro.rowByte]; ring
      _ ≤ 8192 := by omega

section
variable {c : Coro} {w : Nat} (h : c.Spans w)
include h

theorem Coro.Spans.end_le {r e : Nat} (p : (r, e) ∈ c.tile) : c.rowByte r + e * w + w ≤ 8192 := by
  obtain ⟨hr, he⟩ := (c.mem_tile r e).1 p
  have row := h.row e he
  have last := h.last r hr (by omega)
  omega

theorem Coro.Spans.apart_of_row_lt {r e r' e' : Nat} (p : (r, e) ∈ c.tile) (lt : r < r') :
    c.rowByte r + e * w + w ≤ c.rowByte r' + e' * w := by
  obtain ⟨-, he⟩ := (c.mem_tile r e).1 p
  obtain ⟨n, rfl⟩ := Nat.exists_eq_add_of_lt lt
  have row := h.row e he
  have start := c.rowByte_add r (n + 1)
  rw [Nat.add_mul, Nat.one_mul] at start
  rw [Nat.add_assoc r, start]
  omega

/-- Two elements of the tile share no byte. -/
theorem Coro.Spans.apart {r e r' e' : Nat} (p : (r, e) ∈ c.tile) (p' : (r', e') ∈ c.tile) (ne : (r, e) ≠ (r', e')) :
    c.rowByte r + e * w + w ≤ c.rowByte r' + e' * w ∨ c.rowByte r' + e' * w + w ≤ c.rowByte r + e * w := by
  have le_of_lt {e e' : Nat} (lt : e < e') : e * w + w ≤ e' * w :=
    (Nat.succ_mul e w).symm.le.trans (Nat.mul_le_mul_right w lt)
  rcases Nat.lt_trichotomy r r' with lt | rfl | gt
  · exact .inl (h.apart_of_row_lt p lt)
  · rcases Nat.lt_trichotomy e e' with lt | rfl | gt
    · have := le_of_lt lt
      omega
    · exact absurd rfl ne
    · have := le_of_lt gt
      omega
  · exact .inr (h.apart_of_row_lt p' gt)

end

/-! ## Mask bits of the tile (R159) -/

theorem Coro.vl_le_maskRow (c : Coro) : c.vl.toNat ≤ c.gpr * 128 / c.wb :=
  (Nat.le_div_iff_mul_le c.wb_pos).2 c.vl_mul_wb_le

theorem Coro.maskPos_inj (c : Coro) {r e r' e' : Nat} (p : (r, e) ∈ c.tile) (p' : (r', e') ∈ c.tile)
    (eq : c.maskPos r e = c.maskPos r' e') : (r, e) = (r', e') := by
  obtain ⟨-, he⟩ := (c.mem_tile r e).1 p
  obtain ⟨-, he'⟩ := (c.mem_tile r' e').1 p'
  have row := c.vl_le_maskRow
  have key {r e r' e' : Nat} (he : e < c.vl.toNat) (eq : c.maskPos r e = c.maskPos r' e') : ¬ r < r' := by
    intro lt
    have := Nat.mul_le_mul_right (c.gpr * 128 / c.wb) (Nat.succ_le_of_lt lt)
    rw [Nat.succ_mul] at this
    simp only [Coro.maskPos] at eq
    omega
  obtain rfl : r = r' := by
    have := key he eq
    have := key he' eq.symm
    omega
  simp only [Coro.maskPos] at eq
  rw [show e = e' by omega]

theorem Coro.vlmax_le (c : Coro) {lanes : Nat} (h : lanes ≤ 4) : c.vlmax lanes ≤ 8192 :=
  (Nat.div_le_self _ _).trans (Nat.mul_le_mul_right 128 (c.rgroups_le h))

/-- A tile that fits has a mask bit for each element. -/
theorem State.inMask_of_issues {s : State} {regs : List (Fin 64)} {n r e : Nat} (h : s.issues regs n) (p : s.inTile r e) :
    s.core.run.inMask s.core.lanes r e = true := by
  obtain ⟨-, -, -, shape, -, -⟩ := h
  obtain ⟨hr, he⟩ := p
  have groups := Coro.shapeFits_groups shape (by omega) (by omega)
  obtain ⟨per, eq⟩ := s.core.run.wb_dvd
  have cancel (n : Nat) : n * 128 / s.core.run.wb = n * per := by
    rw [eq, Nat.mul_left_comm, Nat.mul_div_cancel_left _ s.core.run.wb_pos]
  refine decide_eq_true ?_
  rw [Coro.maskPos, Coro.vlmax, cancel, cancel]
  have row := s.core.run.vl_le_maskRow
  rw [cancel] at row
  calc r * (s.core.run.gpr * per) + e < r * (s.core.run.gpr * per) + s.core.run.gpr * per := by omega
    _ = (r + 1) * s.core.run.gpr * per := by ring
    _ ≤ s.core.run.rc.toNat * s.core.run.gpr * per := Nat.mul_le_mul_right _ (Nat.mul_le_mul_right _ hr)
    _ ≤ s.core.run.rgroups s.core.lanes * per := Nat.mul_le_mul_right _ groups

end Sys2Proof.Machine
end

section
/-! SUPPORT. What a vector instruction leaves of the coroutine once some elements of one register are written (spec/10 R252), and how
the sweep of an instruction that nothing stops comes to that: elements one by one, or the whole tile at once (R255, R256). -/

namespace Sys2Proof.Machine

/-! ## Elements of one register written -/

/-- `c'` is `c` with `f r e` in element (r, e), of `w` bytes, of register `d` wherever `P r e` holds, and with the flags of those
elements. -/
structure Coro.Wrote (c : Coro) (d : Fin 64) (w : Nat) (P : Nat → Nat → Prop) (f : Nat → Nat → Nat × Flags) (c' : Coro) :
    Prop where
  frame : c' = { c with v := c'.v, fflags := c'.fflags }
  others : ∀ x : Fin 64, x ≠ d → c'.v[x] = c.v[x]
  written : ∀ r e, P r e → VReg.get c'.v[d] (c.rowByte r + e * w) w = (f r e).1 % 2 ^ (8 * w)
  kept : ∀ j, (∀ r e, P r e → ¬ (8 * (c.rowByte r + e * w) ≤ j ∧ j < 8 * (c.rowByte r + e * w + w))) →
    c'.v[d].getLsbD j = c.v[d].getLsbD j
  flags : ∀ k, c'.fflags.getLsbD k = true ↔ c.fflags.getLsbD k = true ∨ ∃ r e, P r e ∧ (f r e).2.getLsbD k = true

theorem Coro.Wrote.none (c : Coro) (d : Fin 64) (w : Nat) (f : Nat → Nat → Nat × Flags) :
    c.Wrote d w (fun _ _ => False) f c := by
  constructor <;> simp

theorem Coro.Wrote.congr {c c' : Coro} {d : Fin 64} {w : Nat} {P Q : Nat → Nat → Prop} {f : Nat → Nat → Nat × Flags}
    (h : c.Wrote d w P f c') (same : ∀ r e, P r e ↔ Q r e) : c.Wrote d w Q f c' := by
  rwa [show Q = P from funext₂ fun r e => propext (same r e).symm]

/-- What holds at one of some places and one more. -/
theorem exists_place_or {P Q : Nat → Nat → Prop} {r e : Nat} :
    (∃ r' e', (P r' e' ∨ (r', e') = (r, e)) ∧ Q r' e') ↔ (∃ r' e', P r' e' ∧ Q r' e') ∨ Q r e := by
  constructor
  · rintro ⟨r', e', old | here, q⟩
    · exact .inl ⟨r', e', old, q⟩
    · cases here
      exact .inr q
  · rintro (⟨r', e', old, q⟩ | q)
    · exact ⟨r', e', .inl old, q⟩
    · exact ⟨r, e, .inr rfl, q⟩

/-- One element written, with its flags. -/
def Coro.putFlagged (c : Coro) (d : Fin 64) (w r e : Nat) (x : Nat × Flags) : Coro :=
  (c.putElem d w r e x.1).orFlags x.2

theorem Coro.orFlags_zero (c : Coro) : c.orFlags 0 = c := by
  simp only [Coro.orFlags, show c.fflags ||| 0 = c.fflags from BitVec.or_zero]

theorem Coro.putElem_eq_putFlagged (c : Coro) (d : Fin 64) (w r e x : Nat) :
    c.putElem d w r e x = c.putFlagged d w r e (x, 0) :=
  (Coro.orFlags_zero _).symm

section
variable {c c' : Coro} {d : Fin 64} {w : Nat} {P : Nat → Nat → Prop} {f : Nat → Nat → Nat × Flags}
  (h : c.Wrote d w P f c')
include h

theorem Coro.Wrote.rowByte (r : Nat) : c'.rowByte r = c.rowByte r := by rw [h.frame]; rfl
theorem Coro.Wrote.maskBit (i : Fin 8) (r e : Nat) : c'.maskBit i r e = c.maskBit i r e := by rw [h.frame]; rfl
theorem Coro.Wrote.active (g : Guard) (r e : Nat) : c'.active g r e = c.active g r e := by
  rw [Coro.active, h.maskBit]; rfl

theorem Coro.Wrote.elem_of_ne {a : Fin 64} (ne : a ≠ d) (n r e : Nat) : c'.elem a n r e = c.elem a n r e := by
  rw [Coro.elem, Coro.elem, h.rowByte, h.others a ne]

/-- The bits of an element that is not written are those of none that is. -/
theorem Coro.Wrote.kept_elem (spans : c.Spans w) (tile : ∀ r e, P r e → (r, e) ∈ c.tile) {r e : Nat} (p : (r, e) ∈ c.tile)
    (new : ¬ P r e) : VReg.get c'.v[d] (c.rowByte r + e * w) w = c.elem d w r e := by
  refine VReg.get_congr fun j lo hi => h.kept j fun r' e' old => ?_
  have ne : (r, e) ≠ (r', e') := by
    rintro ⟨⟩
    exact new old
  have := spans.apart p (tile r' e' old) ne
  omega

theorem Coro.Wrote.elem_of_not (spans : c.Spans w) (tile : ∀ r e, P r e → (r, e) ∈ c.tile) (a : Fin 64) {r e : Nat}
    (p : (r, e) ∈ c.tile) (new : ¬ P r e) : c'.elem a w r e = c.elem a w r e := by
  by_cases same : a = d
  · rw [same, Coro.elem, h.rowByte]
    exact h.kept_elem spans tile p new
  · exact h.elem_of_ne same w r e

/-- One more element of the tile. -/
theorem Coro.Wrote.put (spans : c.Spans w) (tile : ∀ r e, P r e → (r, e) ∈ c.tile) {r e : Nat} (p : (r, e) ∈ c.tile)
    (new : ¬ P r e) : c.Wrote d w (fun r' e' => P r' e' ∨ (r', e') = (r, e)) f (c'.putFlagged d w r e (f r e)) := by
  have reg : (c'.putFlagged d w r e (f r e)).v[d] = VReg.put c'.v[d] (c.rowByte r + e * w) w (f r e).1 := by
    rw [← h.rowByte r]
    exact Vector.getElem_set_self ..
  refine ⟨?frame, fun x ne => ?others, fun r' e' done => ?written, fun j out => ?kept, fun k => ?flags⟩
  case frame =>
    conv_lhs => rw [h.frame]
    conv_rhs => rw [h.frame]
    rfl
  case others =>
    rw [← h.others x ne]
    exact Vector.getElem_set_ne d.isLt x.isLt (fun eq => ne (Fin.ext eq.symm))
  case written =>
    rw [reg]
    by_cases here : (r', e') = (r, e)
    · obtain ⟨rfl, rfl⟩ := Prod.mk.inj here
      exact VReg.get_put_same _ _ spans.pos (spans.end_le p)
    · have old := done.resolve_right here
      rw [← h.written r' e' old]
      refine VReg.get_congr fun j lo hi => ?_
      have := spans.apart p (tile r' e' old) (Ne.symm here)
      rw [VReg.getLsbD_put _ _ _ _ spans.pos, if_neg (by omega)]
  case kept =>
    rw [reg, VReg.getLsbD_put _ _ _ _ spans.pos, if_neg (out r e (.inr rfl))]
    exact h.kept j fun r' e' old => out r' e' (.inl old)
  case flags =>
    have now : (c'.putFlagged d w r e (f r e)).fflags.getLsbD k = (c'.fflags.getLsbD k || (f r e).2.getLsbD k) :=
      BitVec.getLsbD_or
    rw [now, Bool.or_eq_true, h.flags k, exists_place_or, or_assoc]

end

/-- Places taken one by one, each once: if each step takes `M P` to `M` of one place more where `A` accepts the place, and
leaves it otherwise, the end has `M` of all the places that `A` accepts. -/
theorem foldl_places {σ : Type} {L : List (Nat × Nat)} {step : σ → Nat × Nat → σ} {x : σ}
    (M : (Nat → Nat → Prop) → σ → Prop) (A : Nat → Nat → Prop) (nodup : L.Nodup) (start : M (fun _ _ => False) x)
    (next : ∀ P y r e, M P y → (∀ r e, P r e → (r, e) ∈ L) → (r, e) ∈ L → ¬ P r e →
      (A r e → M (fun r' e' => P r' e' ∨ (r', e') = (r, e)) (step y (r, e))) ∧ (¬ A r e → M P (step y (r, e)))) :
    M (fun r e => (r, e) ∈ L ∧ A r e) (L.foldl step x) := by
  have congr {P Q : Nat → Nat → Prop} {y : σ} (h : M P y) (same : ∀ r e, P r e ↔ Q r e) : M Q y := by
    rwa [show Q = P from funext₂ fun r e => propext (same r e).symm]
  suffices initial : ∀ l : List (Nat × Nat), l.Nodup → (∀ p ∈ l, p ∈ L) →
      M (fun r e => (r, e) ∈ l ∧ A r e) (l.foldl step x) from
    initial L nodup fun _ => id
  intro l
  induction l using List.reverseRecOn with
  | nil => exact fun _ _ => congr start (by simp)
  | append_singleton l p ih =>
    obtain ⟨r, e⟩ := p
    intro nodup sub
    obtain ⟨nodup, -, fresh⟩ := List.nodup_append.1 nodup
    have before := ih nodup fun p hp => sub p (by simp [hp])
    have new : (r, e) ∉ l := fun old => fresh _ old _ (List.mem_singleton_self _) rfl
    obtain ⟨put, skip⟩ := next _ _ r e before (fun r e done => sub _ (by simp [done.1])) (sub _ (by simp))
      fun done => new done.1
    rw [List.foldl_append, List.foldl_cons, List.foldl_nil]
    by_cases act : A r e
    · refine congr (put act) fun r' e' => ?_
      rw [List.mem_append, List.mem_singleton, or_and_right]
      exact or_congr Iff.rfl ⟨fun eq => ⟨eq, by cases eq; exact act⟩, fun both => both.1⟩
    · refine congr (skip act) fun r' e' => ?_
      rw [List.mem_append, List.mem_singleton, or_and_right]
      exact ⟨.inl, fun both => both.resolve_right fun ⟨eq, act'⟩ => act (by cases eq; exact act')⟩

/-- Elements of `d` written one by one, with `f r e` in each that `A` accepts: `step` may read the coroutine as the places before have
left it. -/
theorem Coro.Wrote.foldl {c : Coro} {d : Fin 64} {w : Nat} {f : Nat → Nat → Nat × Flags} (spans : c.Spans w)
    {step : Coro → Nat × Nat → Coro} {L : List (Nat × Nat)} (A : Nat → Nat → Prop) [DecidableRel A] (nodup : L.Nodup)
    (tile : ∀ p ∈ L, p ∈ c.tile)
    (hstep : ∀ P c' r e, c.Wrote d w P f c' → (∀ r e, P r e → (r, e) ∈ c.tile) → (r, e) ∈ L → ¬ P r e →
      step c' (r, e) = if A r e then c'.putFlagged d w r e (f r e) else c') :
    c.Wrote d w (fun r e => (r, e) ∈ L ∧ A r e) f (L.foldl step c) := by
  refine foldl_places (fun P c' => c.Wrote d w P f c') A nodup (Coro.Wrote.none c d w f) fun P c' r e h sub here new => ?_
  have old : ∀ r e, P r e → (r, e) ∈ c.tile := fun r e done => tile _ (sub r e done)
  rw [hstep P c' r e h old here new]
  refine ⟨fun act => ?_, fun inact => ?_⟩
  · rw [if_pos act]
    exact h.put spans old (tile _ here) new
  · rwa [if_neg inact]

/-! ## Sweeps that nothing stops (R255, R256) -/

theorem Coro.finishV_set (c : Coro) (v : Vector VReg 64) (fl : BitVec 6) :
    ({ c with v := v, fflags := fl } : Coro).finishV = { c.finishV with v := v, fflags := fl } := rfl

theorem State.cutPlace_of_unhindered {s : State} (h : s.unhindered) (w : Nat) : s.cutPlace w = none := by
  rw [State.cutPlace, h.2]

theorem Coro.firstStop_of_no_ecc {c : Coro} (h : c.ecc = []) (op : VOp) (whole : Bool)
    (f : EccMark → Option (Nat × Nat × Nat)) : c.firstStop op whole f = none := by
  rw [Coro.firstStop, h]
  rfl

theorem State.finishV_modRun {s : State} (h : s.unhindered) {f : Coro → Coro}
    (flight : (f s.core.run).flight = s.core.run.flight) : (s.modRun f).finishV = s.withRun (f s.core.run).finishV :=
  State.finishV_of_unhindered (s := s.modRun f) ⟨flight.trans h.1, h.2⟩

section
variable {s : State} {op : VOp} (passes : s.core.run.issueCause s.core.lanes op = none) (ecc : s.core.run.ecc = [])
  (free : s.unhindered)
include passes ecc free

/-- A sweep of an instruction past its checks, whose operands are good and whose convoy goes on, takes every element from VSTART on. -/
theorem State.sweep_of_passes {body : Bool → List (Nat × Nat) → Coro → Coro}
    (flight : (body true s.core.run.todo s.core.run).flight = s.core.run.flight) :
    s.sweep op body = s.withRun (body true s.core.run.todo s.core.run).finishV := by
  have all : s.core.run.todo.filter (beforeCut none) = s.core.run.todo := List.filter_eq_self.2 fun _ _ => rfl
  rw [State.sweep, State.vIssue, passes]
  dsimp only
  rw [Coro.eccStop, Coro.firstStop_of_no_ecc ecc, State.sweepTo, State.cutPlace_of_unhindered free]
  simp only [Option.filter_none, all, beq_self_eq_true]
  exact State.finishV_modRun free flight

theorem State.crossSweep_of_passes {part : CrossPart} {body : Coro → Coro}
    (flight : (body s.core.run).flight = s.core.run.flight) :
    s.crossSweep op part body = s.withRun (body s.core.run).finishV := by
  rw [State.crossSweep, State.vIssue, passes]
  dsimp only
  rw [Coro.eccStop, Coro.firstStop_of_no_ecc ecc]
  exact State.finishV_modRun free flight

end

section
variable {s : State} {op : VOp} (h : s.issues op.regs op.width) (ok : op.okType = true)
include h ok

theorem State.sweep_of_issues {body : Bool → List (Nat × Nat) → Coro → Coro}
    (flight : (body true s.core.run.todo s.core.run).flight = s.core.run.flight) :
    s.sweep op body = s.withRun (body true s.core.run.todo s.core.run).finishV := by
  have passes := State.issueCause_of_issues h ok
  obtain ⟨-, -, -, -, ecc, free⟩ := h
  exact State.sweep_of_passes passes ecc free flight

theorem State.crossSweep_of_issues {part : CrossPart} {body : Coro → Coro}
    (flight : (body s.core.run).flight = s.core.run.flight) :
    s.crossSweep op part body = s.withRun (body s.core.run).finishV := by
  have passes := State.issueCause_of_issues h ok
  obtain ⟨-, -, -, -, ecc, free⟩ := h
  exact State.crossSweep_of_passes passes ecc free flight

end

/-! ## The results of a sweep -/

theorem State.issues.sub {s : State} {regs regs' : List (Fin 64)} {n n' : Nat} (h : s.issues regs n)
    (sub : ∀ v ∈ regs', v ∈ regs) (le : n' ≤ n) : s.issues regs' n' := by
  obtain ⟨lanes, named, width, rest⟩ := h
  exact ⟨lanes, fun v hv => named v (sub v hv), le.trans width, rest⟩

theorem Coro.mem_todo (c : Coro) (r e : Nat) : (r, e) ∈ c.todo ↔ (r, e) ∈ c.tile ∧ c.notBefore (r, e) = true :=
  List.mem_filter

theorem Coro.nodup_todo (c : Coro) : c.todo.Nodup := c.nodup_tile.filter _

section
variable {s : State} {i : Instr} {d : Fin 64} {w : Nat} {P p : Nat → Nat → Prop} {f : Nat → Nat → Nat × Flags}

/-- An instruction that ends with the elements `P` of `d` written, and otherwise with the coroutine `k`. -/
theorem State.mapsInto_of_wrote {k k' c' : Coro} (next : exec i s = .next (s.withRun k'))
    (rest : k' = { k with v := c'.v, fflags := c'.fflags }) (h : s.core.run.Wrote d w P f c') (spans : s.core.run.Spans w)
    (places : ∀ r e, P r e ↔ s.inTile r e ∧ p r e) : s.mapsInto i k d w p f := by
  have tile : ∀ r e, P r e → (r, e) ∈ s.core.run.tile := fun r e done =>
    (s.inTile_iff_mem r e).1 ((places r e).1 done).1
  refine ⟨_, next, c'.v, c'.fflags, congrArg _ rest, h.others, fun r e here => ⟨fun q => ?_, fun q => ?_⟩, fun o out => ?_,
    fun k => ?_⟩
  · exact h.written r e ((places r e).2 ⟨here, q⟩)
  · exact h.kept_elem spans tile ((s.inTile_iff_mem r e).1 here) fun done => q ((places r e).1 done).2
  · refine VReg.get_congr fun j lo hi => h.kept j fun r e done => ?_
    have := out r e ((places r e).1 done).1
    omega
  · simp only [h.flags k, places, and_assoc]

/-- The same at completion. -/
theorem State.mapsAt_of_wrote {c' : Coro} (next : exec i s = .next (s.withRun c'.finishV))
    (h : s.core.run.Wrote d w P f c') (spans : s.core.run.Spans w) (places : ∀ r e, P r e ↔ s.inTile r e ∧ p r e) :
    s.mapsAt i d w p f := by
  refine State.mapsInto_of_wrote next ?_ h spans places
  rw [h.frame, Coro.finishV_set]

variable {op : VOp} (issued : s.issues op.regs op.width) (ok : op.okType = true) (pos : 0 < w) (le : w ≤ op.width)
include issued ok pos le

/-- A sweep whose body takes the places one by one, each of which `A` accepts receiving `f` of it. -/
theorem State.mapsAt_of_sweep {step : Coro → Nat × Nat → Coro} (A : Nat → Nat → Prop) [DecidableRel A]
    (body : exec i s = .next (s.sweep op fun _ ps c => ps.foldl step c))
    (hstep : ∀ P c' r e, s.core.run.Wrote d w P f c' → (∀ r e, P r e → (r, e) ∈ s.core.run.tile) →
      (r, e) ∈ s.core.run.tile → ¬ P r e →
      step c' (r, e) = if A r e then c'.putFlagged d w r e (f r e) else c')
    (places : ∀ r e, s.inTile r e → (A r e ∧ s.core.run.notBefore (r, e) = true ↔ p r e)) : s.mapsAt i d w p f := by
  have spans := State.spans_of_issues issued pos le
  have wrote := Coro.Wrote.foldl spans A s.core.run.nodup_todo (fun q => List.mem_of_mem_filter) fun P c' r e h tile here =>
    hstep P c' r e h tile (List.mem_of_mem_filter here)
  refine State.mapsAt_of_wrote (body.trans (congrArg _ ?_)) wrote spans fun r e => ?_
  · exact State.sweep_of_issues issued ok (by rw [wrote.frame])
  · rw [Coro.mem_todo, State.inTile_iff_mem, and_assoc]
    exact and_congr_right fun here => by rw [← places r e ((s.inTile_iff_mem r e).2 here), and_comm]

/-- A cross-element instruction whose body takes places of the tile one by one. -/
theorem State.mapsAt_of_crossSweep {part : CrossPart} {run : Coro → Coro} {step : Coro → Nat × Nat → Coro}
    {L : List (Nat × Nat)} (A : Nat → Nat → Prop) [DecidableRel A]
    (body : exec i s = .next (s.crossSweep op part run)) (all : run s.core.run = L.foldl step s.core.run)
    (nodup : L.Nodup) (tile : ∀ q ∈ L, q ∈ s.core.run.tile)
    (hstep : ∀ c' r e, (r, e) ∈ L → step c' (r, e) = if A r e then c'.putFlagged d w r e (f r e) else c')
    (places : ∀ r e, (r, e) ∈ L ∧ A r e ↔ s.inTile r e ∧ p r e) : s.mapsAt i d w p f := by
  have spans := State.spans_of_issues issued pos le
  have wrote := Coro.Wrote.foldl spans A nodup tile fun _ c' r e _ _ here _ => hstep c' r e here
  rw [← all] at wrote
  exact State.mapsAt_of_wrote (body.trans (congrArg _ (State.crossSweep_of_issues issued ok (by rw [wrote.frame])))) wrote spans places

end

section
variable {s : State} {i : Instr} {op : VOp} {g : Guard} {d : Fin 64} {w : Nat} {f : Nat → Nat → Nat × Flags}
  {F : Coro → Nat → Nat → Coro × Flags}

/-- An elementwise instruction, which gives element (r, e) what `f r e` says when it comes to it. -/
theorem State.mapsAt_of_elementwise (issued : s.issues op.regs op.width) (ok : op.okType = true) (pos : 0 < w)
    (le : w ≤ op.width) (body : exec i s = .next (s.elementwise op g F))
    (each : ∀ P c' r e, s.core.run.Wrote d w P f c' → (∀ r e, P r e → (r, e) ∈ s.core.run.tile) →
      (r, e) ∈ s.core.run.tile → ¬ P r e → F c' r e = (c'.putElem d w r e (f r e).1, (f r e).2)) :
    s.mapsAt i d w (s.does g) f := by
  refine State.mapsAt_of_sweep (op := { op with masks := g.idx :: op.masks }) issued ok pos le
    (fun r e => s.core.run.active g r e = true) body (fun P c' r e h tile here new => ?_) fun _ _ _ => Iff.rfl
  simp only [h.active, each P c' r e h tile here new]
  rfl

end

end Sys2Proof.Machine
end

section
/-! SUPPORT. What the vector integer instructions give (spec/10 R257 and Table 3): each operation on elements in the terms of words of
the element's width, with a vector or a scalar operand. -/

namespace Sys2Proof.Machine

/-! ## Elements as words -/

theorem State.toNat_el (s : State) (v : Fin 64) (r e : Nat) : (s.el v r e).toNat = s.core.run.elem v s.core.run.tyBytes r e := by
  rw [State.el, BitVec.toNat_ofNat]
  exact Nat.mod_eq_of_lt (VReg.get_lt ..)

theorem wrap_eq_toNat_ofInt (n : Nat) (i : Int) : wrap n i = (BitVec.ofInt n i).toNat := rfl

theorem toSigned_toNat {n : Nat} (x : BitVec n) : toSigned n x.toNat = x.toInt := by
  rw [toSigned_eq_toInt, BitVec.ofNat_toNat, BitVec.setWidth_eq]

theorem typeInt_of_lt {t : Nat} (ht : t < 8) : typeInt t = true := decide_eq_true ht

/-- The value of a word as an integer type gives it. -/
theorem asType_toNat {t w : Nat} (ht : t < 8) (x : BitVec (8 * w)) :
    asType t w x.toNat = if 4 ≤ t then x.toInt else (x.toNat : Int) := by
  simp only [asType, typeSigned, toSigned_toNat, ht, decide_true, Bool.and_true, decide_eq_true_eq]

/-- A value clamped to the range of a type. -/
theorem clampTo_eq {t : Nat} (ht : t < 8) (w : Nat) (i : Int) : clampTo (typeSigned t) w i =
    (BitVec.ofInt (8 * w) (min (if 4 ≤ t then 2 ^ (8 * w - 1) - 1 else 2 ^ (8 * w) - 1)
      (max (if 4 ≤ t then -2 ^ (8 * w - 1) else 0) i))).toNat := by
  have half : (0 : Int) < 2 ^ (8 * w - 1) := by positivity
  have whole : (0 : Int) < 2 ^ (8 * w) := by positivity
  rw [clampTo, wrap_eq_toNat_ofInt]
  congr 2
  simp only [typeSigned, ht, decide_true, Bool.and_true, decide_eq_true_eq]
  push_cast
  split_ifs <;> omega

/-! ## The operations (R183, Table 3) -/

section
variable (t : Nat) {w : Nat} (x y : BitVec (8 * w))

theorem elAdd_toNat : elAdd t w x.toNat y.toNat = (x + y).toNat := (BitVec.toNat_add ..).symm
theorem elAnd_toNat : elAnd t w x.toNat y.toNat = (x &&& y).toNat := (BitVec.toNat_and ..).symm
theorem elOr_toNat : elOr t w x.toNat y.toNat = (x ||| y).toNat := (BitVec.toNat_or ..).symm
theorem elXor_toNat : elXor t w x.toNat y.toNat = (x ^^^ y).toNat := (BitVec.toNat_xor ..).symm
theorem elMul_toNat : elMul t w x.toNat y.toNat = (x * y).toNat := (BitVec.toNat_mul ..).symm

theorem elSub_toNat : elSub t w x.toNat y.toNat = (x - y).toNat := by
  rw [elSub, wrap_eq_toNat_ofInt, Int.sub_eq_add_neg, BitVec.ofInt_add, BitVec.ofInt_neg, BitVec.ofInt_natCast,
    BitVec.ofInt_natCast, ← BitVec.sub_eq_add_neg, BitVec.ofNat_toNat, BitVec.ofNat_toNat, BitVec.setWidth_eq,
    BitVec.setWidth_eq]

theorem elSll_toNat : elSll t w x.toNat y.toNat = (x <<< (y.toNat % (8 * w))).toNat := by
  rw [BitVec.toNat_shiftLeft, Nat.shiftLeft_eq, elSll]

theorem elSrl_toNat : elSrl t w x.toNat y.toNat = (x >>> (y.toNat % (8 * w))).toNat := by
  rw [BitVec.toNat_ushiftRight, Nat.shiftRight_eq_div_pow, elSrl]

theorem elSra_toNat : elSra t w x.toNat y.toNat = (x.sshiftRight (y.toNat % (8 * w))).toNat := by
  rw [elSra, toSigned_toNat, wrap_eq_toNat_ofInt, BitVec.sshiftRight, Int.shiftRight_eq_div_pow]

theorem elMin_toNat : elMin t w x.toNat y.toNat = (if x.toInt ≤ y.toInt then x else y).toNat := by
  rw [elMin, toSigned_toNat, toSigned_toNat]
  split_ifs <;> grind

theorem elMax_toNat : elMax t w x.toNat y.toNat = (if y.toInt ≤ x.toInt then x else y).toNat := by
  rw [elMax, toSigned_toNat, toSigned_toNat]
  split_ifs <;> grind

theorem elMinu_toNat : elMinu t w x.toNat y.toNat = (if x.toNat ≤ y.toNat then x else y).toNat := by
  rw [elMinu]
  split_ifs <;> omega

theorem elMaxu_toNat : elMaxu t w x.toNat y.toNat = (if y.toNat ≤ x.toNat then x else y).toNat := by
  rw [elMaxu]
  split_ifs <;> omega

end

/-! ## The two forms (R257) -/

section
variable {s : State} {i : Instr} {g : Guard} {d a : Fin 64} {ok : Coro → Bool} {f : Nat → Nat → Nat → Nat → Nat}
  {o : BitVec (8 * s.core.run.tyBytes) → BitVec (8 * s.core.run.tyBytes) → BitVec (8 * s.core.run.tyBytes)}
  (accepts : ok s.core.run = true)
  (value : ∀ x y, f s.core.run.ty s.core.run.tyBytes x.toNat y.toNat = (o x y).toNat)
include accepts value

theorem State.maps_of_vvv {b : Fin 64} (issued : s.issues [d, a, b] s.core.run.tyBytes)
    (body : exec i s = .next (s.vvv g d a b ok f)) : s.maps i g d (fun r e => o (s.el a r e) (s.el b r e)) := by
  refine State.mapsAt_of_elementwise issued accepts s.core.run.tyBytes_pos le_rfl body fun P c r e h tile here new => ?_
  have spans := State.spans_of_issues issued s.core.run.tyBytes_pos le_rfl
  simp only [h.elem_of_not spans tile _ here new, ← State.toNat_el, value]

theorem State.maps_of_vvs {b : Fin 32} (issued : s.issues [d, a] s.core.run.tyBytes)
    (body : exec i s = .next (s.vvs g d a b ok f)) : s.maps i g d (fun r e => o (s.el a r e) ((s.reg b).setWidth _)) := by
  refine State.mapsAt_of_elementwise issued accepts s.core.run.tyBytes_pos le_rfl body fun P c r e h tile here new => ?_
  have spans := State.spans_of_issues issued s.core.run.tyBytes_pos le_rfl
  have scalar : (s.getS b).toNat % 2 ^ (8 * s.core.run.tyBytes) = ((s.reg b).setWidth (8 * s.core.run.tyBytes)).toNat :=
    (BitVec.toNat_setWidth ..).symm
  simp only [h.elem_of_not spans tile _ here new, ← State.toNat_el, scalar, value]

end

theorem Coro.intType_of_lt {c : Coro} (h : c.ty < 8) : c.intType = true := decide_eq_true h
theorem Coro.anyType_of_lt {c : Coro} (h : c.ty < 14) : c.anyType = true := decide_eq_true h

section
variable {t : Nat} (ht : t < 8) {w : Nat} (x y : BitVec (8 * w))
include ht

theorem elMulh_toNat : elMulh t w x.toNat y.toNat =
    (BitVec.ofInt (8 * w) ((if 4 ≤ t then x.toInt else x.toNat) * (if 4 ≤ t then y.toInt else y.toNat) / 2 ^ (8 * w))).toNat := by
  rw [elMulh, asType_toNat ht, asType_toNat ht, wrap_eq_toNat_ofInt]
  push_cast
  rfl

theorem elAdds_toNat : elAdds t w x.toNat y.toNat =
    (BitVec.ofInt (8 * w) (min (if 4 ≤ t then 2 ^ (8 * w - 1) - 1 else 2 ^ (8 * w) - 1)
      (max (if 4 ≤ t then -2 ^ (8 * w - 1) else 0)
        ((if 4 ≤ t then x.toInt else x.toNat) + (if 4 ≤ t then y.toInt else y.toNat))))).toNat := by
  rw [elAdds, clampTo_eq ht, asType_toNat ht, asType_toNat ht]

theorem elSubs_toNat : elSubs t w x.toNat y.toNat =
    (BitVec.ofInt (8 * w) (min (if 4 ≤ t then 2 ^ (8 * w - 1) - 1 else 2 ^ (8 * w) - 1)
      (max (if 4 ≤ t then -2 ^ (8 * w - 1) else 0)
        ((if 4 ≤ t then x.toInt else x.toNat) - (if 4 ≤ t then y.toInt else y.toNat))))).toNat := by
  rw [elSubs, clampTo_eq ht, asType_toNat ht, asType_toNat ht]

end

/-- Settles O13. Every instruction is one of two forms, with a vector or a scalar operand, of an operation on elements; each
operation is that of the words of the element's width. -/
theorem vectorIntegerResults : Obligations.VectorIntegerResults := by
  unfold Obligations.VectorIntegerResults
  refine ⟨fun s g c d a b => ?vectors, fun s g c d a b => ?scalars⟩
  case vectors =>
    intro t w x y val low high issued
    refine ⟨fun any => ?_, fun int => ?_⟩
    · have ok := Coro.anyType_of_lt (c := s.core.run) any
      exact ⟨State.maps_of_vvv ok (elAnd_toNat t) issued rfl, State.maps_of_vvv ok (elOr_toNat t) issued rfl,
        State.maps_of_vvv ok (elXor_toNat t) issued rfl⟩
    · have ok := Coro.intType_of_lt (c := s.core.run) int
      exact ⟨State.maps_of_vvv ok (elAdd_toNat t) issued rfl, State.maps_of_vvv ok (elSub_toNat t) issued rfl,
        State.maps_of_vvv ok (elSll_toNat t) issued rfl, State.maps_of_vvv ok (elSrl_toNat t) issued rfl,
        State.maps_of_vvv ok (elSra_toNat t) issued rfl, State.maps_of_vvv ok (elMul_toNat t) issued rfl,
        State.maps_of_vvv ok (elMulh_toNat int) issued rfl, State.maps_of_vvv ok (elMin_toNat t) issued rfl,
        State.maps_of_vvv ok (elMax_toNat t) issued rfl, State.maps_of_vvv ok (elMinu_toNat t) issued rfl,
        State.maps_of_vvv ok (elMaxu_toNat t) issued rfl, State.maps_of_vvv ok (elAdds_toNat int) issued rfl,
        State.maps_of_vvv ok (elSubs_toNat int) issued rfl⟩
  case scalars =>
    intro t w x y val low high issued
    refine ⟨fun any => ?_, fun int => ?_⟩
    · have ok := Coro.anyType_of_lt (c := s.core.run) any
      exact ⟨State.maps_of_vvs ok (elAnd_toNat t) issued rfl, State.maps_of_vvs ok (elOr_toNat t) issued rfl,
        State.maps_of_vvs ok (elXor_toNat t) issued rfl⟩
    · have ok := Coro.intType_of_lt (c := s.core.run) int
      exact ⟨State.maps_of_vvs ok (elAdd_toNat t) issued rfl, State.maps_of_vvs ok (elSub_toNat t) issued rfl,
        State.maps_of_vvs ok (elSll_toNat t) issued rfl, State.maps_of_vvs ok (elSrl_toNat t) issued rfl,
        State.maps_of_vvs ok (elSra_toNat t) issued rfl, State.maps_of_vvs ok (elMul_toNat t) issued rfl,
        State.maps_of_vvs ok (elMulh_toNat int) issued rfl, State.maps_of_vvs ok (elMin_toNat t) issued rfl,
        State.maps_of_vvs ok (elMax_toNat t) issued rfl, State.maps_of_vvs ok (elMinu_toNat t) issued rfl,
        State.maps_of_vvs ok (elMaxu_toNat t) issued rfl, State.maps_of_vvs ok (elAdds_toNat int) issued rfl,
        State.maps_of_vvs ok (elSubs_toNat int) issued rfl⟩

end Sys2Proof.Machine
end

section
/-! SUPPORT. Vector compares and mask instructions (spec/10 R258 and R260): the bits of the masks that an elementwise instruction
writes. -/

namespace Sys2Proof.Machine

/-! ## Bits of a mask -/

theorem Mask.getLsbD_put (x : Mask) {i : Nat} (hi : i < 8192) (b : Bool) (j : Nat) :
    (Mask.put x i b).getLsbD j = if j = i then b else x.getLsbD j := by
  have one : (1#8192 <<< i).getLsbD j = decide (j = i) := by
    rw [← BitVec.twoPow_eq, BitVec.getLsbD_twoPow]
    simp [hi, eq_comm]
  by_cases eq : j = i
  · subst eq
    cases b <;> simp [Mask.put, hi]
  · have off : ((if b then 1#8192 else 0#8192) <<< i).getLsbD j = false := by
      cases b
      · simp
      · simpa [eq] using one
    by_cases hj : j < 8192
    · rw [Mask.put, BitVec.getLsbD_or, off, BitVec.getLsbD_and, BitVec.getLsbD_not, one]
      simp [eq, hj]
    · rw [BitVec.getLsbD_of_ge _ _ (by omega), BitVec.getLsbD_of_ge _ _ (by omega)]
      simp [eq]

section
variable (c : Coro) (r e : Nat) (b : Bool)

theorem Coro.putMask_frame (i : Fin 8) : c.putMask i r e b = { c with m := (c.putMask i r e b).m } := by
  unfold Coro.putMask
  split <;> rfl

theorem Coro.putMaskPair_frame (d : Fin 64) : c.putMaskPair d r e b = { c with m := (c.putMaskPair d r e b).m } := by
  unfold Coro.putMaskPair
  split
  · exact c.putMask_frame r e b _
  · rw [Coro.putMask_frame, Coro.putMask_frame]

theorem Coro.getLsbD_putMask (i : Fin 8) (k : Fin 7) (j : Nat) (pos : c.maskPos r e < 8192) :
    (c.putMask i r e b).m[k].getLsbD j = if k.val = i.val ∧ j = c.maskPos r e then b else c.m[k].getLsbD j := by
  unfold Coro.putMask
  split
  next named =>
    by_cases same : k.val = i.val
    · have set : (c.m.set i.val (Mask.put c.m[i.val] (c.maskPos r e) b))[k] = Mask.put c.m[k] (c.maskPos r e) b := by
        simp only [Fin.getElem_fin, same, Vector.getElem_set_self]
      simp only [set, Mask.getLsbD_put _ pos, same, true_and]
    · have set : (c.m.set i.val (Mask.put c.m[i.val] (c.maskPos r e) b))[k] = c.m[k] :=
        Vector.getElem_set_ne named k.isLt fun eq => same eq.symm
      simp only [set, same, false_and, if_false]
  next m7 =>
    have other : ¬ (k.val = i.val ∧ j = c.maskPos r e) := fun both => m7 (both.1 ▸ k.isLt)
    rw [if_neg other]

/-- A pair of masks written: the bit in `d[2..0]`, its complement in `d[5..3]` where that differs. -/
theorem Coro.getLsbD_putMaskPair (d : Fin 64) (k : Fin 7) (j : Nat) (pos : c.maskPos r e < 8192) :
    (c.putMaskPair d r e b).m[k].getLsbD j = if j = c.maskPos r e then
      (if k.val = d.val % 8 then b else if k.val = d.val / 8 then !b else c.m[k].getLsbD j) else c.m[k].getLsbD j := by
  have same : pairLo d = pairHi d ↔ d.val % 8 = d.val / 8 := Fin.ext_iff
  unfold Coro.putMaskPair
  split
  next eq =>
    rw [same] at eq
    rw [Coro.getLsbD_putMask _ _ _ _ _ _ _ pos]
    simp only [pairLo, eq]
    split_ifs <;> simp_all
  next ne =>
    rw [same] at ne
    have here : (c.putMask (pairLo d) r e b).maskPos r e = c.maskPos r e := by rw [Coro.putMask_frame]; rfl
    rw [Coro.getLsbD_putMask _ _ _ _ _ _ _ (here ▸ pos), here, Coro.getLsbD_putMask _ _ _ _ _ _ _ pos]
    have lo : (pairLo d).val = d.val % 8 := rfl
    have hi : (pairHi d).val = d.val / 8 := rfl
    rw [lo, hi]
    by_cases bit : j = c.maskPos r e
    · simp only [bit, and_true, if_true]
      split_ifs <;> grind
    · simp only [bit, and_false, if_false]

end

/-- A single mask as a pair of one. -/
def maskPairOf (i : Fin 8) : Fin 64 := ⟨i.val * 9, by omega⟩

theorem Coro.putMaskPair_maskPairOf (c : Coro) (i : Fin 8) (r e : Nat) (b : Bool) :
    c.putMaskPair (maskPairOf i) r e b = c.putMask i r e b := by
  have lo : pairLo (maskPairOf i) = i := Fin.ext (show i.val * 9 % 8 = i.val by omega)
  have hi : pairHi (maskPairOf i) = i := Fin.ext (show i.val * 9 / 8 = i.val by omega)
  rw [Coro.putMaskPair, lo, hi, if_pos rfl]

/-! ## Bits of the tile written -/

/-- `c'` is `c` with the bit `b r e`, and its complement, in the masks that `d` names wherever `P r e` holds and the masks have a bit,
and with the flags of those elements. -/
structure Coro.Marked (c : Coro) (lanes : Nat) (d : Fin 64) (P : Nat → Nat → Prop) (b : Nat → Nat → Bool)
    (fl : Nat → Nat → Flags) (c' : Coro) : Prop where
  frame : c' = { c with m := c'.m, fflags := c'.fflags }
  marked : ∀ (k : Fin 7) (r e : Nat), P r e → c.inMask lanes r e = true → c'.m[k].getLsbD (c.maskPos r e) =
    if k.val = d.val % 8 then b r e else if k.val = d.val / 8 then !b r e else c.m[k].getLsbD (c.maskPos r e)
  kept : ∀ (k : Fin 7) (j : Nat), (∀ r e, P r e → c.inMask lanes r e = true → c.maskPos r e ≠ j) →
    c'.m[k].getLsbD j = c.m[k].getLsbD j
  flags : ∀ k, c'.fflags.getLsbD k = true ↔ c.fflags.getLsbD k = true ∨ ∃ r e, P r e ∧ (fl r e).getLsbD k = true

theorem Coro.Marked.none (c : Coro) (lanes : Nat) (d : Fin 64) (b : Nat → Nat → Bool) (fl : Nat → Nat → Flags) :
    c.Marked lanes d (fun _ _ => False) b fl c := by
  constructor <;> simp

section
variable {c c' : Coro} {lanes : Nat} {d : Fin 64} {P : Nat → Nat → Prop} {b : Nat → Nat → Bool} {fl : Nat → Nat → Flags}
  (h : c.Marked lanes d P b fl c')
include h

theorem Coro.Marked.maskPos (r e : Nat) : c'.maskPos r e = c.maskPos r e := by rw [h.frame]; rfl
theorem Coro.Marked.elem (a : Fin 64) (w r e : Nat) : c'.elem a w r e = c.elem a w r e := by rw [h.frame]; rfl

variable (tile : ∀ r e, P r e → (r, e) ∈ c.tile) {r e : Nat} (p : (r, e) ∈ c.tile) (new : ¬ P r e)
include tile p new

/-- An element that is not yet processed has the mask bits of before. -/
theorem Coro.Marked.maskBit (i : Fin 8) : c'.maskBit i r e = c.maskBit i r e := by
  unfold Coro.maskBit
  split
  next named =>
    rw [h.maskPos]
    exact h.kept ⟨i.val, named⟩ _ fun r' e' old _ eq => new (by cases c.maskPos_inj (tile r' e' old) p eq; exact old)
  next => rfl

theorem Coro.Marked.active (g : Guard) : c'.active g r e = c.active g r e := by
  rw [Coro.active, h.maskBit tile p new]
  rfl

/-- One more element of the tile; its bits are written where the masks have them. -/
theorem Coro.Marked.put (few : lanes ≤ 4) :
    c.Marked lanes d (fun r' e' => P r' e' ∨ (r', e') = (r, e)) b fl
      ((if c.inMask lanes r e then c'.putMaskPair d r e (b r e) else c').orFlags (fl r e)) := by
  have bit (k : Fin 7) (j : Nat) :
      ((if c.inMask lanes r e then c'.putMaskPair d r e (b r e) else c').orFlags (fl r e)).m[k].getLsbD j =
      if j = c.maskPos r e ∧ c.inMask lanes r e = true then
        (if k.val = d.val % 8 then b r e else if k.val = d.val / 8 then !b r e else c'.m[k].getLsbD j)
      else c'.m[k].getLsbD j := by
    by_cases inside : c.inMask lanes r e = true
    · have pos : c.maskPos r e < 8192 := (of_decide_eq_true inside).trans_le (c.vlmax_le few)
      have put := c'.getLsbD_putMaskPair r e (b r e) d k j (h.maskPos r e ▸ pos)
      rw [h.maskPos] at put
      simp only [inside, if_true, and_true]
      exact put
    · rw [if_neg inside, if_neg fun both => inside both.2]
      rfl
  refine ⟨?frame, fun k r' e' done inside => ?marked, fun k j out => ?kept, fun k => ?flags⟩
  case frame =>
    split
    · conv_lhs => rw [Coro.putMaskPair_frame, h.frame]
      conv_rhs => rw [Coro.putMaskPair_frame, h.frame]
      rfl
    · conv_lhs => rw [h.frame]
      conv_rhs => rw [h.frame]
      rfl
  case marked =>
    rw [bit]
    by_cases here : (r', e') = (r, e)
    · cases here
      have old : c'.m[k].getLsbD (c.maskPos r e) = c.m[k].getLsbD (c.maskPos r e) :=
        h.kept k _ fun r' e' old _ eq => new (by cases c.maskPos_inj (tile r' e' old) p eq; exact old)
      rw [if_pos ⟨rfl, inside⟩, old]
    · have old := done.resolve_right here
      rw [if_neg fun both => here (c.maskPos_inj (tile r' e' old) p both.1)]
      exact h.marked k r' e' old inside
  case kept =>
    rw [bit, if_neg fun both => out r e (.inr rfl) both.2 both.1.symm]
    exact h.kept k j fun r' e' old => out r' e' (.inl old)
  case flags =>
    have base : (if c.inMask lanes r e then c'.putMaskPair d r e (b r e) else c').fflags = c'.fflags := by
      split
      · rw [Coro.putMaskPair_frame]
      · rfl
    have now : ((if c.inMask lanes r e then c'.putMaskPair d r e (b r e) else c').orFlags (fl r e)).fflags.getLsbD k =
        (c'.fflags.getLsbD k || (fl r e).getLsbD k) := by
      rw [Coro.orFlags, base, BitVec.getLsbD_or]
    rw [now, Bool.or_eq_true, h.flags k, exists_place_or, or_assoc]

end

/-! ## The instructions that write masks -/

theorem bne_eq_decide_ne {x y : Nat} : (x != y) = decide (x ≠ y) :=
  Bool.eq_iff_iff.2 (by rw [bne_iff_ne, decide_eq_true_eq])

/-- An elementwise instruction that marks each element with `b` where the masks have a bit for it. -/
theorem Coro.marked_of_eachActive {c : Coro} {lanes : Nat} (few : lanes ≤ 4) {g : Guard} {d : Fin 64} {b : Nat → Nat → Bool}
    {fl : Nat → Nat → Flags} {F : Coro → Nat → Nat → Coro × Flags}
    (each : ∀ P c' r e, c.Marked lanes d P b fl c' → (∀ r e, P r e → (r, e) ∈ c.tile) → (r, e) ∈ c.tile → ¬ P r e →
      F c' r e = (if c.inMask lanes r e then c'.putMaskPair d r e (b r e) else c', fl r e)) :
    c.Marked lanes d (fun r e => (r, e) ∈ c.todo ∧ c.active g r e = true) b fl (Coro.eachActive g F c.todo c) := by
  refine foldl_places (c.Marked lanes d · b fl) (fun r e => c.active g r e = true) c.nodup_todo (Coro.Marked.none ..)
    fun P c' r e h old here new => ?_
  have tile : ∀ r e, P r e → (r, e) ∈ c.tile := fun r e done => List.mem_of_mem_filter (old r e done)
  replace here := List.mem_of_mem_filter here
  dsimp only
  rw [h.active tile here new, each P c' r e h tile here new]
  refine ⟨fun act => ?_, fun inact => ?_⟩
  · rw [if_pos act]
    exact h.put tile here new few
  · rwa [if_neg inact]

section
variable {s : State} {i : Instr} {op : VOp} {g : Guard} {d : Fin 64} {b : Nat → Nat → Bool} {fl : Nat → Nat → Flags}
  {F : Coro → Nat → Nat → Coro × Flags}

/-- An elementwise instruction past its checks that marks each element with `b` where the masks have a bit for it. -/
theorem State.mapsMasks_of_elementwise (passes : s.core.run.issueCause s.core.lanes { op with masks := g.idx :: op.masks } = none)
    (free : s.unhindered) (ecc : s.core.run.ecc = []) (body : exec i s = .next (s.elementwise op g F))
    (each : ∀ P c' r e, s.core.run.Marked s.core.lanes d P b fl c' → (∀ r e, P r e → (r, e) ∈ s.core.run.tile) →
      (r, e) ∈ s.core.run.tile → ¬ P r e →
      F c' r e = (if s.core.run.inMask s.core.lanes r e then c'.putMaskPair d r e (b r e) else c', fl r e)) :
    s.mapsMasks i g d b fl := by
  have marked := Coro.marked_of_eachActive s.core.lanes_le (g := g) each
  have places (r e : Nat) : (r, e) ∈ s.core.run.todo ∧ s.core.run.active g r e = true ↔ s.inTile r e ∧ s.does g r e := by
    rw [Coro.mem_todo, State.inTile_iff_mem, State.does, and_assoc, and_comm (a := s.core.run.notBefore _ = _)]
  have next := State.sweep_of_passes (body := fun _ => Coro.eachActive g F) passes ecc free (by rw [marked.frame])
  generalize Coro.eachActive g F s.core.run.todo s.core.run = c' at marked next
  refine ⟨_, body.trans (congrArg _ next), c'.m, c'.fflags, ?_, fun k r e here inside => ⟨fun done => ?_, fun not => ?_⟩,
    fun k j out => ?_, fun k => ?_⟩
  · conv_lhs => rw [marked.frame]
    rfl
  · exact marked.marked k r e ((places r e).2 ⟨here, done⟩) (decide_eq_true inside)
  · refine marked.kept k _ fun r' e' done _ eq => not ?_
    obtain ⟨there, does⟩ := (places r' e').1 done
    cases s.core.run.maskPos_inj ((s.inTile_iff_mem r' e').1 there) ((s.inTile_iff_mem r e).1 here) eq
    exact does
  · refine marked.kept k j fun r e done inside eq => ?_
    rcases out with out | out
    · exact out r e ((places r e).1 done).1 eq
    · exact absurd (of_decide_eq_true inside) (by omega)
  · simp only [marked.flags k, places, and_assoc]

/-- One that names vector registers: its tile fits, so the masks have a bit for each element. -/
theorem State.mapsMasks_of_issues (issued : s.issues op.regs op.width) (ok : op.okType = true)
    (body : exec i s = .next (s.elementwise op g F))
    (each : ∀ P c' r e, s.core.run.Marked s.core.lanes d P b fl c' →
      F c' r e = (c'.putMaskPair d r e (b r e), fl r e)) : s.mapsMasks i g d b fl := by
  have passes := State.issueCause_of_issues (op := { op with masks := g.idx :: op.masks }) issued ok
  obtain ⟨-, -, -, -, ecc, free⟩ := id issued
  refine State.mapsMasks_of_elementwise passes free ecc body fun P c' r e h tile here new => ?_
  rw [each P c' r e h, if_pos (State.inMask_of_issues issued ((s.inTile_iff_mem r e).2 here))]

theorem State.mapsMasks_of_vcmp {a b : Fin 64} {f : Nat → Nat → Nat → Bool}
    {o : BitVec (8 * s.core.run.tyBytes) → BitVec (8 * s.core.run.tyBytes) → Bool} (int : s.core.run.ty < 8)
    (value : ∀ x y, f s.core.run.tyBytes x.toNat y.toNat = o x y) (issued : s.issues [a, b] s.core.run.tyBytes)
    (body : exec i s = .next (s.vcmp g d a b f)) :
    s.mapsMasks i g d (fun r e => o (s.el a r e) (s.el b r e)) (fun _ _ => 0) :=
  State.mapsMasks_of_issues issued (Coro.intType_of_lt int) body fun P c' r e h => by
    simp only [h.elem, ← State.toNat_el, value]

/-- The instructions on masks alone name no vector register and make no checks. -/
theorem State.mapsMasks_of_mmm {d a b : Fin 8} {f : Bool → Bool → Bool} (free : s.unhindered) (ecc : s.core.run.ecc = [])
    (body : exec i s = .next (s.mmm g d a b f)) :
    s.mapsMasks i g (maskPairOf d) (fun r e => f (s.core.run.maskBit a r e) (s.core.run.maskBit b r e)) (fun _ _ => 0) := by
  refine State.mapsMasks_of_elementwise rfl free ecc body fun P c' r e h tile here new => ?_
  have inMask : c'.inMask s.core.lanes r e = s.core.run.inMask s.core.lanes r e := by rw [h.frame]; rfl
  simp only [inMask, h.maskBit tile here new, Coro.putMaskPair_maskPairOf]

end

/-- Settles O14. The compares and `vtom` mark every element that they process; the instructions on masks alone mark those that the
masks have a bit for. -/
theorem vectorCompareAndMaskResults : Obligations.VectorCompareAndMaskResults := by
  unfold Obligations.VectorCompareAndMaskResults
  refine fun s g c => ⟨fun d a b issued int => ?compares, fun d a b ecc free => ?masks, fun d a issued any => ?vtom⟩
  case compares =>
    intro x y
    exact ⟨State.mapsMasks_of_vcmp (o := fun x y => decide (x = y)) int
        (fun _ _ => decide_eq_decide.2 BitVec.toNat_inj) issued rfl,
      State.mapsMasks_of_vcmp (o := fun x y => decide (x ≠ y)) int
        (fun _ _ => bne_eq_decide_ne.trans (decide_eq_decide.2 (not_congr BitVec.toNat_inj))) issued rfl,
      State.mapsMasks_of_vcmp (o := fun x y => decide (x.toInt < y.toInt)) int
        (fun _ _ => by rw [toSigned_toNat, toSigned_toNat]) issued rfl,
      State.mapsMasks_of_vcmp (o := fun x y => decide (x.toNat < y.toNat)) int (fun _ _ => rfl) issued rfl,
      State.mapsMasks_of_vcmp (o := fun x y => decide (x.toInt ≤ y.toInt)) int
        (fun _ _ => by rw [toSigned_toNat, toSigned_toNat]) issued rfl,
      State.mapsMasks_of_vcmp (o := fun x y => decide (x.toNat ≤ y.toNat)) int (fun _ _ => rfl) issued rfl⟩
  case masks =>
    intro one x y
    exact ⟨State.mapsMasks_of_mmm (f := (· && ·)) free ecc rfl, State.mapsMasks_of_mmm (f := (· || ·)) free ecc rfl,
      State.mapsMasks_of_mmm (f := fun x y => x ^^ y) free ecc rfl,
      State.mapsMasks_of_mmm (f := fun x y => x && !y) free ecc rfl⟩
  case vtom =>
    refine State.mapsMasks_of_issues (F := fun c r e => (c.putMask d r e (c.elem a s.core.run.tyBytes r e != 0), 0))
      issued (Coro.anyType_of_lt any) rfl fun P c' r e h => ?_
    have bit : (s.core.run.elem a s.core.run.tyBytes r e != 0) = decide (s.el a r e ≠ 0) := by
      rw [← State.toNat_el, bne_eq_decide_ne]
      exact decide_eq_decide.2 (not_congr (BitVec.toNat_inj (y := 0)))
    rw [h.elem, bit]
    exact congrArg (·, 0) (c'.putMaskPair_maskPairOf ..).symm

end Sys2Proof.Machine
end

section
/-! SUPPORT. Moves and cross-element instructions (spec/10 R259 to R261): which element goes where, and what is counted or extracted
into a scalar register. -/

namespace Sys2Proof.Machine

/-! ## Folds that count -/

/-- A fold that carries how many of the elements before it `p` accepts. -/
theorem foldl_counting {σ : Type} (step : σ → Nat → Nat → σ) (p : Nat → Bool) (x : σ) (n : Nat) :
    (List.range n).foldl (fun (y : σ × Nat) e => (step y.1 e y.2, if p e then y.2 + 1 else y.2)) (x, 0) =
      ((List.range n).foldl (fun y e => step y e ((List.range e).countP p)) x, (List.range n).countP p) := by
  induction n with
  | zero => rfl
  | succ n ih =>
    rw [List.range_succ, List.foldl_append, List.foldl_append, ih, List.countP_append]
    simp only [List.foldl_cons, List.foldl_nil, List.countP_singleton]
    split <;> rfl

theorem zipIdx_eq_map_range (l : List Nat) : l.zipIdx = (List.range l.length).map fun e => (l.getD e 0, e) := by
  refine List.ext_getElem (by simp) fun e he _ => ?_
  simp [List.getD_eq_getElem?_getD, List.getElem?_eq_getElem (by simpa using he : e < l.length)]

/-! ## Elementwise moves and cross-element instructions -/

theorem Coro.putElem_mod (c : Coro) (d : Fin 64) {w : Nat} (hw : 0 < w) (r e x : Nat) :
    c.putElem d w r e (x % 2 ^ (8 * w)) = c.putElem d w r e x := by
  have width : 8 * (c.rowByte r + e * w + w) - 1 + 1 - 8 * (c.rowByte r + e * w) = 8 * w := by omega
  simp only [Coro.putElem, VReg.put, setBits, width, Nat.mod_mod]

section
variable {s : State} {g : Guard} {c : Bool} {d a b : Fin 64} {k : Fin 32}

/-- Element (r, e) as the cross-element instructions read it: zero beyond the row. -/
def State.elOr0 (s : State) (v : Fin 64) (r e : Nat) : Nat × Flags :=
  if e < s.core.run.vl.toNat then ((s.el v r e).toNat, 0) else (0, 0)

theorem State.elOr0_eq (s : State) (v : Fin 64) (r e : Nat) :
    s.elOr0 v r e = (if e < s.core.run.vl.toNat then s.core.run.elem v s.core.run.tyBytes r e else 0, 0) := by
  unfold State.elOr0
  split <;> simp only [State.toNat_el]

/-- The active elements of a row before element `n`. -/
def State.activeBefore (s : State) (g : Guard) (r n : Nat) : Nat := (List.range n).countP (s.core.run.active g r)

theorem State.length_filter_active (s : State) (g : Guard) (r n : Nat) :
    ((List.range n).filter (s.core.run.active g r)).length = s.activeBefore g r n :=
  List.countP_eq_length_filter.symm

theorem State.activeBefore_le (s : State) (g : Guard) (r n : Nat) : s.activeBefore g r n ≤ n :=
  List.countP_le_length.trans_eq List.length_range

variable (any : s.core.run.ty < 14)
include any

theorem State.maps_vbcast (issued : s.issues [d] s.core.run.tyBytes) :
    s.maps (.vbcast g c d k) g d (fun _ _ => (s.reg k).setWidth _) := by
  refine State.mapsAt_of_elementwise issued (Coro.anyType_of_lt any) s.core.run.tyBytes_pos le_rfl rfl
    fun P c' r e h tile here new => ?_
  rw [BitVec.toNat_setWidth, Coro.putElem_mod _ _ s.core.run.tyBytes_pos]
  rfl

theorem State.maps_vmv (issued : s.issues [d, a] s.core.run.tyBytes) : s.maps (.vmv g c d a) g d (s.el a) := by
  have spans := State.spans_of_issues issued s.core.run.tyBytes_pos le_rfl
  refine State.mapsAt_of_elementwise issued (Coro.anyType_of_lt any) s.core.run.tyBytes_pos le_rfl rfl
    fun P c' r e h tile here new => ?_
  simp only [h.elem_of_not spans tile _ here new, State.toNat_el]

theorem State.maps_mtov (m : Fin 8) (issued : s.issues [d] s.core.run.tyBytes) :
    s.maps (.mtov g c d m) g d (fun r e => if s.core.run.maskBit m r e then 1 else 0) := by
  have one : (1 : BitVec (8 * s.core.run.tyBytes)).toNat = 1 := by
    have pos := s.core.run.tyBytes_pos
    exact Nat.mod_eq_of_lt (Nat.one_lt_two_pow (by omega))
  refine State.mapsAt_of_elementwise issued (Coro.anyType_of_lt any) s.core.run.tyBytes_pos le_rfl rfl
    fun P c' r e h tile here new => ?_
  rw [h.maskBit]
  dsimp only
  split
  next set => rw [set, one]; rfl
  next clear => rw [Bool.eq_false_iff.2 clear]; rfl

theorem State.mapsAt_vmerge (issued : s.issues [d, a, b] s.core.run.tyBytes) :
    s.mapsAt (.vmerge g c d a b) d s.core.run.tyBytes (fun r e => s.core.run.notBefore (r, e) = true)
      (fun r e => if s.core.run.active g r e then s.elOr0 a r e else s.elOr0 b r e) := by
  have spans := State.spans_of_issues issued s.core.run.tyBytes_pos le_rfl
  refine State.mapsAt_of_sweep issued (Coro.anyType_of_lt any) s.core.run.tyBytes_pos le_rfl (fun _ _ => True) rfl
    (fun P c' r e h tile here new => ?_) fun r e here => iff_of_eq (true_and _)
  obtain ⟨-, he⟩ := (s.core.run.mem_tile r e).1 here
  rw [if_pos trivial, State.elOr0_eq, State.elOr0_eq, if_pos he, if_pos he]
  simp only [h.elem_of_not spans tile _ here new, h.active, Coro.putElem_eq_putFlagged]
  split <;> rfl

theorem State.mapsAt_vslideup (issued : s.issues [d, a] s.core.run.tyBytes) :
    s.mapsAt (.vslideup g c d a k) d s.core.run.tyBytes
      (fun r e => s.core.run.active g r e = true ∧ (s.reg k).toNat ≤ e) (fun r e => s.elOr0 a r (e - (s.reg k).toNat)) := by
  refine State.mapsAt_of_crossSweep issued (Coro.anyType_of_lt any) s.core.run.tyBytes_pos le_rfl _ rfl rfl
    s.core.run.nodup_tile (fun _ => id) (fun c' r e here => ?_) fun r e => by rw [State.inTile_iff_mem]
  obtain ⟨-, he⟩ := (s.core.run.mem_tile r e).1 here
  rw [State.elOr0_eq, if_pos (show e - (s.reg k).toNat < s.core.run.vl.toNat by omega), ← Coro.putElem_eq_putFlagged]
  simp only [Bool.and_eq_true, decide_eq_true_eq]
  rfl

theorem State.mapsAt_vslidedn (issued : s.issues [d, a] s.core.run.tyBytes) :
    s.mapsAt (.vslidedn g c d a k) d s.core.run.tyBytes (fun r e => s.core.run.active g r e = true)
      (fun r e => s.elOr0 a r (e + (s.reg k).toNat)) := by
  refine State.mapsAt_of_crossSweep issued (Coro.anyType_of_lt any) s.core.run.tyBytes_pos le_rfl _ rfl rfl
    s.core.run.nodup_tile (fun _ => id) (fun c' r e here => ?_) fun r e => by rw [State.inTile_iff_mem]
  rw [State.elOr0_eq, ← Coro.putElem_eq_putFlagged]
  rfl

theorem State.mapsAt_vperm (issued : s.issues [d, a, b] s.core.run.tyBytes) :
    s.mapsAt (.vperm g c d a b) d s.core.run.tyBytes (fun r e => s.core.run.active g r e = true)
      (fun r e => s.elOr0 a r (s.el b r e).toNat) := by
  refine State.mapsAt_of_crossSweep issued (Coro.anyType_of_lt any) s.core.run.tyBytes_pos le_rfl _ rfl rfl
    s.core.run.nodup_tile (fun _ => id) (fun c' r e here => ?_) fun r e => by rw [State.inTile_iff_mem]
  rw [State.elOr0_eq, State.toNat_el, ← Coro.putElem_eq_putFlagged]

/-- The places that `vcompress` writes are the first of each row, as many as the row has active elements. -/
theorem State.mapsAt_vcompress (issued : s.issues [d, a] s.core.run.tyBytes) :
    s.mapsAt (.vcompress g c d a) d s.core.run.tyBytes (fun r e => e < s.activeBefore g r s.core.run.vl.toNat)
      (fun r e => s.elOr0 a r (((List.range s.core.run.vl.toNat).filter (s.core.run.active g r)).getD e 0)) := by
  have le (r : Nat) := s.activeBefore_le g r s.core.run.vl.toNat
  refine State.mapsAt_of_crossSweep issued (Coro.anyType_of_lt any) s.core.run.tyBytes_pos le_rfl (fun _ _ => True)
    (step := fun c p => c.putElem d s.core.run.tyBytes p.1 p.2 (s.core.run.elem a s.core.run.tyBytes p.1
      (((List.range s.core.run.vl.toNat).filter (s.core.run.active g p.1)).getD p.2 0)))
    (L := rowPlaces s.core.run.rc.toNat fun r => s.activeBefore g r s.core.run.vl.toNat)
    rfl ?all (nodup_rowPlaces ..) (fun (r, e) here => ?tile) (fun c' r e here => ?step) fun r e => ?places
  case all =>
    rw [foldl_rowPlaces]
    simp only [zipIdx_eq_map_range, List.foldl_map, State.length_filter_active]
  case tile =>
    obtain ⟨hr, he⟩ := mem_rowPlaces.1 here
    exact (s.core.run.mem_tile r e).2 ⟨hr, he.trans_le (le r)⟩
  case step =>
    obtain ⟨-, he⟩ := mem_rowPlaces.1 here
    have inside : ((List.range s.core.run.vl.toNat).filter (s.core.run.active g r)).getD e 0 < s.core.run.vl.toNat := by
      rw [List.getD_eq_getElem?_getD]
      cases eq : ((List.range s.core.run.vl.toNat).filter (s.core.run.active g r))[e]? with
      | none => exact Nat.zero_lt_of_lt (he.trans_le (le r))
      | some i => exact List.mem_range.1 (List.mem_of_mem_filter (List.mem_of_getElem? eq))
    rw [if_pos trivial, State.elOr0_eq, if_pos inside, ← Coro.putElem_eq_putFlagged]
  case places =>
    rw [mem_rowPlaces, and_true]
    exact ⟨fun ⟨hr, he⟩ => ⟨⟨hr, he.trans_le (le r)⟩, he⟩, fun ⟨⟨hr, _⟩, he⟩ => ⟨hr, he⟩⟩

omit any in
theorem State.mapsAt_viota (int : s.core.run.ty < 8) (issued : s.issues [d] s.core.run.tyBytes) :
    s.mapsAt (.viota g c d) d s.core.run.tyBytes (fun _ _ => True) (fun r e => (s.activeBefore g r e, 0)) := by
  refine State.mapsAt_of_crossSweep issued (Coro.intType_of_lt int) s.core.run.tyBytes_pos le_rfl (fun _ _ => True)
    (step := fun c p => c.putElem d s.core.run.tyBytes p.1 p.2 (s.activeBefore g p.1 p.2))
    rfl ?all s.core.run.nodup_tile (fun _ => id) (fun c' r e here => ?step) fun r e => by rw [State.inTile_iff_mem]
  case all =>
    rw [Coro.tile_eq_rowPlaces, foldl_rowPlaces]
    exact List.foldl_ext _ _ _ fun y r _ => congrArg Prod.fst
      (foldl_counting (fun (y : Coro) e n => y.putElem d s.core.run.tyBytes r e n) (s.core.run.active g r) y _)
  case step => rw [if_pos trivial, ← Coro.putElem_eq_putFlagged]

end

/-! ## Instructions that write a scalar register -/

section
variable {s : State} {i : Instr} {op : VOp} {d : Fin 32} {v : Coro → Word}

theorem State.yields_of_crossSweep (passes : s.core.run.issueCause s.core.lanes op = none) (ecc : s.core.run.ecc = [])
    (free : s.unhindered) {part : CrossPart} (body : exec i s = .next (s.crossSweep op part fun c => c.setS d (v c))) :
    s.yields i d (v s.core.run) := by
  have set : s.core.run.setS d (v s.core.run) = { s.core.run with s := s.regsWith d (v s.core.run) } := by
    unfold Coro.setS State.regsWith
    split <;> rfl
  rw [State.yields, body, State.crossSweep_of_passes passes ecc free (by rw [set]), set]
  rfl

end

theorem Coro.tile_sorted (c : Coro) : c.tile.Pairwise (fun p q => p.1 < q.1 ∨ p.1 = q.1 ∧ p.2 < q.2) := rowPlaces_sorted ..

/-- The first place of the tile that `p` accepts is the one that no accepted place comes before. -/
theorem Coro.head?_filter_tile {c : Coro} {p : Nat × Nat → Bool} {r e : Nat} (here : (r, e) ∈ c.tile) (hit : p (r, e) = true)
    (first : ∀ r' e', (r', e') ∈ c.tile → p (r', e') = true → r < r' ∨ r = r' ∧ e ≤ e') :
    (c.tile.filter p).head? = some (r, e) := by
  have mem : (r, e) ∈ c.tile.filter p := List.mem_filter.2 ⟨here, hit⟩
  have sorted := c.tile_sorted.filter p
  cases eq : c.tile.filter p with
  | nil => rw [eq] at mem; cases mem
  | cons q l =>
    obtain ⟨r', e'⟩ := q
    obtain ⟨there, hit'⟩ := List.mem_filter.1 (eq ▸ List.mem_cons_self : (r', e') ∈ c.tile.filter p)
    have after := first r' e' there hit'
    rw [eq] at mem sorted
    rcases List.mem_cons.1 mem with same | later
    · rw [same]
      rfl
    · have before := List.rel_of_pairwise_cons sorted later
      omega

/-- A value as its type gives it, to 64 bits. -/
theorem ofInt_asType {t w : Nat} (x : BitVec (8 * w)) : BitVec.ofInt 64 (asType t w x.toNat) =
    if 4 ≤ t ∧ t < 8 then x.signExtend 64 else x.setWidth 64 := by
  simp only [asType, typeSigned, toSigned_toNat, Bool.and_eq_true, decide_eq_true_eq]
  split
  · rfl
  · rw [BitVec.ofInt_natCast, BitVec.ofNat_toNat]

theorem State.yields_vext {s : State} {c : Bool} {d : Fin 32} {a : Fin 64} {k : Fin 32} (any : s.core.run.ty < 14)
    (issued : s.issues [a] s.core.run.tyBytes) {r e : Nat} (row : bits (s.reg k).toNat 23 16 = r)
    (place : bits (s.reg k).toNat 13 0 = e) : s.yields (.vext c d a k) d
      (if r < s.core.run.rc.toNat ∧ e < s.core.run.vl.toNat then
        (if 4 ≤ s.core.run.ty ∧ s.core.run.ty < 8 then (s.el a r e).signExtend 64 else (s.el a r e).setWidth 64)
      else 0) := by
  subst row place
  have passes := State.issueCause_of_issues
    (op := ⟨[a], s.core.run.tyBytes, s.core.run.anyType, [a], [], [], [], none⟩) issued (Coro.anyType_of_lt any)
  obtain ⟨-, -, -, -, ecc, free⟩ := issued
  have result := State.yields_of_crossSweep (i := .vext c d a k) passes ecc free rfl
  simp only [← State.toNat_el, ofInt_asType, Bool.and_eq_true, decide_eq_true_eq] at result
  exact result

/-- Settles O15. The elementwise moves are sweeps; each cross-element instruction writes places of the tile from the coroutine of
before; `mpop`, `mfirst` and `vext` write one scalar register. -/
theorem vectorMoveAndPermuteResults : Obligations.VectorMoveAndPermuteResults := by
  unfold Obligations.VectorMoveAndPermuteResults
  refine ⟨fun s g c d a b k => ?vectors, fun s g c d => ⟨fun m ecc free => ?masks, fun a k issued any => ?vext⟩⟩
  case vectors =>
    intro w act before el issued any
    have one : s.issues [d] w := issued.sub (by simp) le_rfl
    have two : s.issues [d, a] w := issued.sub (by simp) le_rfl
    exact ⟨State.maps_vbcast any one, State.maps_vmv any two, State.mapsAt_vmerge any issued, State.mapsAt_vslideup any two,
      State.mapsAt_vslidedn any two, State.mapsAt_vperm any issued, State.mapsAt_vcompress any two,
      fun int => State.mapsAt_viota int one, fun m => State.maps_mtov any m one⟩
  case masks =>
    intro tile hit
    refine ⟨?mpop, fun clear => ?absent, fun r e here struck first => ?mfirst⟩
    case mpop =>
      rw [List.countP_eq_length_filter]
      exact State.yields_of_crossSweep (v := fun c => w64 (c.counted s.core.lanes g m).length) rfl ecc free rfl
    all_goals
      have result := State.yields_of_crossSweep (i := .mfirst g c d m) (d := d)
        (v := fun c => match (c.counted s.core.lanes g m).head? with
          | none => BitVec.allOnes 64
          | some p => w64 (c.sweepIndex p.1 p.2)) rfl ecc free rfl
    case absent =>
      have head : (s.core.run.counted s.core.lanes g m).head? = none :=
        List.head?_eq_none_iff.2 (List.filter_eq_nil_iff.2 fun p hp => Bool.eq_false_iff.1 (clear p hp))
      simpa only [head] using result
    case mfirst =>
      have head : (s.core.run.counted s.core.lanes g m).head? = some (r, e) :=
        Coro.head?_filter_tile ((s.inTile_iff_mem r e).1 here) struck
          fun r' e' there => first r' e' ((s.inTile_iff_mem r' e').2 there)
      simp only [head] at result
      exact result
  case vext =>
    intro r e
    exact State.yields_vext any issued rfl (by rw [bits, Nat.pow_zero, Nat.div_one])

end Sys2Proof.Machine
end

section
/-! SUPPORT. Vector floating point, conversions and dequantisation (spec/10 R262 to R266 and R269): operations on the elements of one
place, with the flags of each. -/

namespace Sys2Proof.Machine

/-! ## Operations on the elements of one place -/

section
variable {s : State} {i : Instr} {op : VOp} {g : Guard} {d : Fin 64} {w : Nat}

/-- An elementwise instruction that gives element (r, e) what `F` says of the elements of the registers at that place. -/
theorem State.mapsAt_of_pointwise (F : (Fin 64 → Nat) → Nat × Flags) (issued : s.issues op.regs op.width)
    (ok : op.okType = true) (pos : 0 < w) (le : w ≤ op.width)
    (body : exec i s = .next (s.elementwise op g fun c r e =>
      (c.putElem d w r e (F fun v => c.elem v w r e).1, (F fun v => c.elem v w r e).2))) :
    s.mapsAt i d w (s.does g) (fun r e => F fun v => s.core.run.elem v w r e) := by
  have spans := State.spans_of_issues issued pos le
  refine State.mapsAt_of_elementwise issued ok pos le body fun P c' r e h tile here new => ?_
  have same : (fun v => c'.elem v w r e) = fun v => s.core.run.elem v w r e :=
    funext fun v => h.elem_of_not spans tile v here new
  rw [same]

end

/-! ## The forms of floating point (R262 to R264) -/

theorem State.serviceType_of {s : State} {t : Nat} (h : s.sys.reduced = true → t < 8 ∨ t = 10) : s.serviceType t = true := by
  unfold State.serviceType typeInt
  cases reduced : s.sys.reduced
  · rfl
  · rcases h reduced with int | f32
    · simp [int]
    · simp [f32]

theorem State.fpType_of {s : State} (lo : 8 ≤ s.core.run.ty) (hi : s.core.run.ty < 12)
    (reduced : s.sys.reduced = true → s.core.run.ty = 10) : s.fpType = true := by
  rw [State.fpType, State.serviceType_of fun h => .inr (reduced h)]
  simp [Coro.fpType, lo, hi]

section
variable {s : State} {i : Instr} {g : Guard} {d a b : Fin 64} {k : Fin 32} (F : Fmt → Rm → Nat → Nat → Nat × Flags)
  (fp : s.fpType = true)
include fp

theorem State.mapsAt_of_vfff (issued : s.issues [d, a, b] s.core.run.tyBytes) (body : exec i s = .next (s.vfff g d a b F)) :
    s.mapsAt i d s.core.run.tyBytes (s.does g) (fun r e => F (typeFmt s.core.run.ty) s.core.run.arithRm
      (s.core.run.elem a s.core.run.tyBytes r e) (s.core.run.elem b s.core.run.tyBytes r e)) :=
  State.mapsAt_of_pointwise (fun el => F (typeFmt s.core.run.ty) s.core.run.arithRm (el a) (el b)) issued fp
    s.core.run.tyBytes_pos le_rfl body

theorem State.mapsAt_of_vffs (issued : s.issues [d, a] s.core.run.tyBytes) (body : exec i s = .next (s.vffs g d a k F)) :
    s.mapsAt i d s.core.run.tyBytes (s.does g) (fun r e => F (typeFmt s.core.run.ty) s.core.run.arithRm
      (s.core.run.elem a s.core.run.tyBytes r e) ((s.reg k).toNat % 2 ^ (8 * s.core.run.tyBytes))) :=
  State.mapsAt_of_pointwise (fun el => F (typeFmt s.core.run.ty) s.core.run.arithRm (el a)
    ((s.reg k).toNat % 2 ^ (8 * s.core.run.tyBytes))) issued fp s.core.run.tyBytes_pos le_rfl body

omit F in
theorem State.mapsMasks_of_vfcmp {m : Fin 64} (cc : Nat) (issued : s.issues [a, b] s.core.run.tyBytes)
    (body : exec i s = .next (s.vfcmp g m a b cc)) :
    let r (r e : Nat) := (typeFmt s.core.run.ty).compare cc (s.core.run.elem a s.core.run.tyBytes r e)
      (s.core.run.elem b s.core.run.tyBytes r e)
    s.mapsMasks i g m (fun x e => (r x e).1) (fun x e => (r x e).2) :=
  State.mapsMasks_of_issues issued fp body fun P c' r e h => by simp only [h.elem]

omit F in
/-- The sign operations replace the top bit of the element of va. -/
theorem State.mapsAt_of_vfsign (sign : Bool → Bool → Bool) (issued : s.issues [d, a, b] s.core.run.tyBytes)
    (body : exec i s = .next (s.vfsign g d a b sign)) :
    let top := 8 * s.core.run.tyBytes - 1
    let x (v : Fin 64) (r e : Nat) := s.core.run.elem v s.core.run.tyBytes r e
    s.mapsAt i d s.core.run.tyBytes (s.does g) (fun r e => (x a r e % 2 ^ top +
      (if sign ((x a r e).testBit top) ((x b r e).testBit top) then 2 ^ top else 0), 0)) := by
  intro top x
  have bit (p : Bool) : bit01 p * 2 ^ top = if p then 2 ^ top else 0 := by cases p <;> simp [bit01]
  have result := State.mapsAt_of_pointwise
    (fun el => (el a % 2 ^ top + bit01 (sign (bitAt (el a) top) (bitAt (el b) top)) * 2 ^ top, 0))
    issued fp s.core.run.tyBytes_pos le_rfl body
  simpa only [bitAt_eq_testBit, bit] using result

end

theorem State.mapsAt_of_vsf {s : State} {i : Instr} {g : Guard} {d a : Fin 64} (F : Nat → Nat × Flags)
    (f32 : s.core.run.ty = 10) (issued : s.issues [d, a] s.core.run.tyBytes) (body : exec i s = .next (s.vsf g d a F)) :
    s.mapsAt i d s.core.run.tyBytes (s.does g) (fun r e => F (s.core.run.elem a s.core.run.tyBytes r e)) :=
  State.mapsAt_of_pointwise (fun el => F (el a)) issued (beq_iff_eq.2 f32) s.core.run.tyBytes_pos le_rfl body

/-- Settles O17. Every instruction gives each active element what its operation says of the elements of the same place; the compares
write masks. -/
theorem vectorFloatResults : Obligations.VectorFloatResults := by
  unfold Obligations.VectorFloatResults
  refine ⟨fun s g c d a b k => ?arithmetic, fun s g c d a b => ?others⟩
  case arithmetic =>
    intro w f rm x y z n issued lo hi reduced
    have fp := State.fpType_of lo hi reduced
    have two : s.issues [d, a] w := issued.sub (by simp) le_rfl
    exact ⟨State.mapsAt_of_vfff Fmt.add fp issued rfl, State.mapsAt_of_vfff Fmt.sub fp issued rfl,
      State.mapsAt_of_vfff Fmt.mul fp issued rfl, State.mapsAt_of_vfff Fmt.div fp issued rfl,
      State.mapsAt_of_vfff (fun f _ => f.minmax false) fp issued rfl,
      State.mapsAt_of_vfff (fun f _ => f.minmax true) fp issued rfl,
      State.mapsAt_of_pointwise (fun el => f.fma rm (el a) (el b) (el d)) issued fp s.core.run.tyBytes_pos le_rfl rfl,
      State.mapsAt_of_pointwise (fun el => f.sqrt rm (el a)) two fp s.core.run.tyBytes_pos le_rfl rfl,
      State.mapsAt_of_vffs Fmt.add fp two rfl, State.mapsAt_of_vffs Fmt.sub fp two rfl,
      State.mapsAt_of_vffs Fmt.mul fp two rfl, State.mapsAt_of_vffs Fmt.div fp two rfl,
      State.mapsAt_of_vffs (fun f _ => f.minmax false) fp two rfl,
      State.mapsAt_of_vffs (fun f _ => f.minmax true) fp two rfl,
      State.mapsAt_of_pointwise (fun el => f.fma rm (el a) n (el d)) two fp s.core.run.tyBytes_pos le_rfl rfl⟩
  case others =>
    intro w f x y top signed issued lo hi reduced
    have fp := State.fpType_of lo hi reduced
    have two : s.issues [d, a] w := issued.sub (by simp) le_rfl
    have operands : s.issues [a, b] w := issued.sub (by simp) le_rfl
    refine ⟨fun m => ⟨State.mapsMasks_of_vfcmp fp 0 operands rfl, State.mapsMasks_of_vfcmp fp 1 operands rfl,
        State.mapsMasks_of_vfcmp fp 2 operands rfl⟩,
      State.mapsAt_of_vfsign fp (fun _ y => y) issued rfl, State.mapsAt_of_vfsign fp (fun _ y => !y) issued rfl,
      State.mapsAt_of_vfsign fp (fun x y => x ^^ y) issued rfl,
      State.mapsAt_of_pointwise (fun el => (f.kindWord (el a), 0)) two fp s.core.run.tyBytes_pos le_rfl rfl,
      fun f32 => ⟨State.mapsAt_of_vsf sfExp2 f32 two rfl, State.mapsAt_of_vsf sfLog2 f32 two rfl,
        State.mapsAt_of_vsf sfRsqrt f32 two rfl, State.mapsAt_of_vsf sfRcp f32 two rfl⟩⟩

/-! ## Conversions (R266) -/

theorem asType_eq (t w x : Nat) : asType t w x = if 4 ≤ t ∧ t < 8 then (BitVec.ofNat (8 * w) x).toInt else (x : Int) := by
  simp only [asType, typeSigned, toSigned_eq_toInt, Bool.and_eq_true, decide_eq_true_eq]

/-- A value clamped to the range of a type is itself where it lies in the range. -/
theorem asType_clampTo_eq_iff {t w : Nat} (ht : t < 8) (hw : 0 < w) (i : Int) : asType t w (clampTo (typeSigned t) w i) = i ↔
    (if 4 ≤ t then -2 ^ (8 * w - 1) else 0) ≤ i ∧ i ≤ (if 4 ≤ t then 2 ^ (8 * w - 1) - 1 else 2 ^ (8 * w) - 1) := by
  have half : (0 : Int) < 2 ^ (8 * w - 1) := by positivity
  have whole : (0 : Int) < 2 ^ (8 * w) := by positivity
  rw [clampTo_eq ht, asType_toNat ht]
  split
  · rw [BitVec.toInt_ofInt_eq_self (by omega) (by omega) (by omega)]
    omega
  · rw [BitVec.toNat_ofInt, Int.toNat_of_nonneg (Int.emod_nonneg _ (by positivity)), Int.emod_eq_of_lt (by omega)
      (by push_cast; omega)]
    omega

section
variable {s : State} {i : Instr} {g : Guard} {d a : Fin 64} {t : Nat} {rel : Nat → Nat → Bool}

/-- A conversion gives each active element its value in the new type; `d` may be `a` where both types have one width. -/
theorem State.mapsAt_of_vconv (issued : s.issues [d, a] (max s.core.run.tyBytes (typeBytes t))) (hk : s.core.run.ty < 14)
    (ht : t < 14) (ne : t ≠ s.core.run.ty)
    (service : s.sys.reduced = true → (s.core.run.ty < 8 ∨ s.core.run.ty = 10) ∧ (t < 8 ∨ t = 10))
    (hrel : rel s.core.run.tyBytes (typeBytes t) = true) (apart : a ≠ d ∨ s.core.run.tyBytes = typeBytes t)
    (body : exec i s = .next (s.vconv g d a t rel)) :
    s.mapsAt i d (typeBytes t) (s.does g)
      (fun r e => convertElem s.core.run.ty t s.core.run.convRm (s.core.run.elem a s.core.run.tyBytes r e)) := by
  have pos := typeBytes_pos t
  have spans := State.spans_of_issues issued pos (le_max_right ..)
  refine State.mapsAt_of_elementwise issued ?ok pos (le_max_right ..) body fun P c' r e h tile here new => ?_
  case ok =>
    simp only [Coro.anyType_of_lt hk, ht, hrel, bne_iff_ne.2 ne, State.serviceType_of fun x => (service x).1,
      State.serviceType_of fun x => (service x).2, decide_true, Bool.and_self]
  have same : c'.elem a s.core.run.tyBytes r e = s.core.run.elem a s.core.run.tyBytes r e := by
    rcases apart with ne | eq
    · exact h.elem_of_ne ne _ r e
    · rw [eq]
      exact h.elem_of_not spans tile a here new
  simp only [same]

end

/-- A conversion by the types of its two sides. -/
theorem convertElem_eq (f t : Nat) (rm : Rm) (v : Nat) :
    let int : Int := if 4 ≤ f ∧ f < 8 then (BitVec.ofNat (8 * typeBytes f) v).toInt else v
    let low : Int := if 4 ≤ t then -2 ^ (8 * typeBytes t - 1) else 0
    let high : Int := if 4 ≤ t then 2 ^ (8 * typeBytes t - 1) - 1 else 2 ^ (8 * typeBytes t) - 1
    convertElem f t rm v =
      if f < 8 ∧ t < 8 then
        if typeBytes f < typeBytes t then ((BitVec.ofInt (8 * typeBytes t) int).toNat, 0)
        else ((BitVec.ofInt (8 * typeBytes t) (min high (max low int))).toNat, if low ≤ int ∧ int ≤ high then 0 else Flags.sat)
      else if f < 8 then (typeFmt t).ofInt rm int
      else if t < 8 then (typeFmt f).toInt rm (8 * typeBytes t) (decide (4 ≤ t)) v
      else (typeFmt f).toFmt (typeFmt t) rm v := by
  intro int low high
  have value : asType f (typeBytes f) v = int := asType_eq ..
  have kind (u : Nat) : (typeInt u = true) = (u < 8) := decide_eq_true_eq
  by_cases hf : f < 8 <;> by_cases ht : t < 8
  · simp only [convertElem, kind, value, hf, ht, and_self, if_true, wrap_eq_toNat_ofInt,
      asType_clampTo_eq_iff ht (typeBytes_pos t)]
    rw [clampTo_eq ht]
  · simp only [convertElem, kind, value, hf, ht, and_false, if_true, if_false]
  · simp only [convertElem, kind, hf, ht, false_and, if_true, if_false, typeSigned, decide_true, Bool.and_true]
  · simp only [convertElem, kind, hf, ht, and_self, if_false]

/-! ## Dequantisation (R269, R193, R194) -/

theorem e2m1Halves_eq_getD : ∀ i, i < 8 → e2m1Halves i = [0, 1, 2, 3, 4, 6, 8, 12].getD i 0 := by decide

theorem State.mapsAt_vdequant {s : State} {g : Guard} {c mx4 : Bool} {d a : Fin 64} {b : Fin 32}
    (issued : s.issues [d, a, b.castLE (by decide)] s.core.run.tyBytes) (da : d ≠ a) (db : d ≠ b.castLE (by decide))
    (lo : 8 ≤ s.core.run.ty) (hi : s.core.run.ty < 11) (full : s.sys.reduced = false) :
    s.mapsAt (.vdequant g c d a mx4 b) d s.core.run.tyBytes (s.does g) (fun r e =>
      dequantElem mx4 s.core.run.ty s.core.run.convRm (s.core.run.elem (b.castLE (by decide)) 1 r (e / 32))
        (s.core.run.code mx4 a r e)) := by
  have ok : s.mxType = true := by simp [State.mxType, Coro.mxType, lo, hi, full]
  refine State.mapsAt_of_elementwise issued ok s.core.run.tyBytes_pos le_rfl rfl fun P c' r e h tile here new => ?_
  have code : c'.code mx4 a r e = s.core.run.code mx4 a r e := by
    simp only [Coro.code, h.elem_of_ne da.symm]
  simp only [h.elem_of_ne db.symm, code]

/-- A NaN scale gives the NaN; any other the value of the code under it, with flags in FP16 alone. -/
theorem dequantElem_eq (mx4 : Bool) (t : Nat) (rm : Rm) {X : Nat} (hX : X < 255) (code : Nat) :
    let int : Int := if mx4 then 0 else (BitVec.ofNat 8 code).toInt
    let half : Nat := [0, 1, 2, 3, 4, 6, 8, 12].getD (code % 8) 0
    let r := if mx4 then (typeFmt t).round rm (code.testBit 3) half ((X : Int) - 128) false
      else (typeFmt t).round rm (decide (int < 0)) int.natAbs ((X : Int) - 133) false
    dequantElem mx4 t rm X code = (r.1, if t = 8 then r.2 else 0) := by
  intro int half r
  have halves : e2m1Halves (code % 8) = half := e2m1Halves_eq_getD _ (Nat.mod_lt _ (by decide))
  unfold dequantElem
  rw [if_neg (by omega), halves]
  cases mx4
  · simp only [toSigned_eq_toInt]
    rfl
  · simp only [bitAt_eq_testBit]
    rfl

/-- Settles O18. A conversion writes `convertElem` of the old element, whose cases are those of the two types; `vdequant` reads
registers that it does not write. -/
theorem vectorConversionResults : Obligations.VectorConversionResults := by
  unfold Obligations.VectorConversionResults
  refine ⟨fun s g c d a t => ?conversions, fun s g c mx4 d a b => ?dequant⟩
  case conversions =>
    intro k ws wd rm int low high conv issued hk ht ne service
    have all : ∀ v, conv v = convertElem k t rm v := fun v => (convertElem_eq k t rm v).symm
    simp only [all]
    refine ⟨fun eq => ?same, fun lt da => ?wider, fun lt da => ?narrower⟩
    case same =>
      exact State.mapsAt_of_vconv (rel := fun ws wd => wd == ws) issued hk ht ne service (beq_iff_eq.2 eq) (.inr eq.symm) rfl
    case wider =>
      exact State.mapsAt_of_vconv (rel := fun ws wd => decide (ws < wd)) issued hk ht ne service (decide_eq_true lt)
        (.inl da.symm) rfl
    case narrower =>
      exact State.mapsAt_of_vconv (rel := fun ws wd => decide (wd < ws)) issued hk ht ne service (decide_eq_true lt)
        (.inl da.symm) rfl
  case dequant =>
    intro vb w f rm issued da db lo hi full
    refine ⟨State.mapsAt_vdequant issued da db lo hi full, fun X code _ _ => ?_⟩
    intro int half r
    refine ⟨fun eq => if_pos eq, fun lt => dequantElem_eq mx4 _ rm lt code⟩

end Sys2Proof.Machine
end

section
/-! SUPPORT. Reductions of whole rows and of segments (spec/10 R270 and R272, spec/07 R200): the tree over an operation that is
associative and commutative gives what a fold in any order does, and the segments of a row are its stretches of equal count. -/

namespace Sys2Proof.Machine

/-! ## Operations with an identity, in any order -/

/-- An associative and commutative operation with an identity. -/
structure Combines {α : Type} (o : α → α → α) (z : α) : Prop where
  assoc : ∀ x y u, o (o x y) u = o x (o y u)
  comm : ∀ x y, o x y = o y x
  ident : ∀ x, o z x = x

section
variable {α : Type} {o : α → α → α} {z : α} (h : Combines o z)
include h

theorem Combines.foldr_append (l l' : List α) : (l ++ l').foldr o z = o (l.foldr o z) (l'.foldr o z) := by
  induction l with
  | nil => exact (h.ident _).symm
  | cons x l ih => rw [List.cons_append, List.foldr_cons, ih, List.foldr_cons, h.assoc]

theorem Combines.foldr_zipWith {l l' : List α} (len : l.length = l'.length) :
    (l.zipWith o l').foldr o z = o (l.foldr o z) (l'.foldr o z) := by
  induction l generalizing l' with
  | nil =>
    cases l' with
    | nil => exact (h.ident z).symm
    | cons y l' => cases len
  | cons x l ih =>
    cases l' with
    | nil => cases len
    | cons y l' =>
      rw [List.zipWith_cons_cons, List.foldr_cons, ih (Nat.succ.inj len), List.foldr_cons, List.foldr_cons, h.assoc, h.assoc,
        ← h.assoc y, h.comm y, h.assoc (l.foldr o z)]

theorem Combines.foldl_eq_foldr (x : α) (l : List α) : l.foldl o x = (x :: l).foldr o z := by
  induction l generalizing x with
  | nil => rw [List.foldr_cons, List.foldl_nil, List.foldr_nil, h.comm, h.ident]
  | cons y l ih => rw [List.foldl_cons, ih, List.foldr_cons, List.foldr_cons, List.foldr_cons, h.assoc]

/-- Elements that are left out combine as the identity does. -/
theorem Combines.foldr_filter {β : Type} (p : β → Bool) (e : β → α) (l : List β) :
    (l.map fun i => if p i then e i else z).foldr o z = ((l.filter p).map e).foldr o z := by
  induction l with
  | nil => rfl
  | cons i l ih =>
    rw [List.map_cons, List.foldr_cons, ih, List.filter_cons]
    split
    · rfl
    · exact h.ident _

end

/-- The least by a key that tells elements apart; the identity has the greatest key. -/
theorem combines_least {α β : Type} [LinearOrder β] {key : α → β} (inj : Function.Injective key) {z : α}
    (top : ∀ x, key x ≤ key z) : Combines (fun x y => if key x ≤ key y then x else y) z := by
  refine ⟨fun x y u => ?_, fun x y => ?_, fun x => ?_⟩
  · split_ifs <;> grind
  · split_ifs with le ge ge
    · exact inj (le_antisymm le ge)
    · rfl
    · rfl
    · order
  · split_ifs with le
    · exact inj (le_antisymm le (top x))
    · rfl

/-! ## The tree (R200) -/

section
variable {n : Nat} {f : Comb} {o : BitVec n → BitVec n → BitVec n}
  (value : ∀ x y : BitVec n, f x.toNat y.toNat = ((o x y).toNat, 0))

theorem noFlags_or : (0 : Flags) ||| 0 = 0 := by decide

/-- Words of a group as the tree holds them. -/
def groupNats {n : Nat} (l : List (BitVec n)) : List Nat := l.map BitVec.toNat

include value

theorem combGroups_toNat : ∀ l l' : List (BitVec n), combGroups f (groupNats l) (groupNats l') = (groupNats (l.zipWith o l'), 0)
  | [], l' => by cases l' <;> rfl
  | x :: l, [] => rfl
  | x :: l, y :: l' => by
    have rest := combGroups_toNat l l'
    simp only [groupNats, List.map_cons, List.zipWith_cons_cons] at rest ⊢
    rw [combGroups, value, rest]
    simp only [noFlags_or]

theorem foldGroup_toNat (x : BitVec n) (l : List (BitVec n)) :
    foldGroup f (groupNats (x :: l)) = ((l.foldl o x).toNat, 0) := by
  simp only [groupNats, List.map_cons, foldGroup]
  induction l generalizing x with
  | nil => rfl
  | cons y l ih =>
    rw [List.map_cons, List.foldl_cons, List.foldl_cons, ← ih (o x y)]
    simp only [value]
    rfl

variable {z : BitVec n} (h : Combines o z)
include h

/-- A level halves the groups and keeps what they combine to. -/
theorem treeLevel_toNat (per : Nat) : ∀ gs : List (List (BitVec n)), (∀ l ∈ gs, l.length = per) →
    ∃ hs : List (List (BitVec n)), treeLevel f (gs.map groupNats) = (hs.map groupNats, 0) ∧ (∀ l ∈ hs, l.length = per) ∧
      hs.length = (gs.length + 1) / 2 ∧ hs.flatten.foldr o z = gs.flatten.foldr o z
  | [], len => ⟨[], rfl, len, by simp, rfl⟩
  | [l], len => ⟨[l], rfl, len, by simp, rfl⟩
  | l :: l' :: gs, len => by
    obtain ⟨hs, level, lens, count, total⟩ := treeLevel_toNat per gs fun x hx => len x (by simp [hx])
    have equal : l.length = l'.length := (len l (by simp)).trans (len l' (by simp)).symm
    refine ⟨l.zipWith o l' :: hs, ?_, ?_, ?_, ?_⟩
    · rw [List.map_cons, List.map_cons, treeLevel, combGroups_toNat value, level]
      simp only [noFlags_or, List.map_cons]
    · rintro x (_ | ⟨_, hx⟩)
      · rw [List.length_zipWith, ← equal, Nat.min_self]
        exact len l (by simp)
      · exact lens x hx
    · simp only [List.length_cons, count]
      omega
    · rw [List.flatten_cons, h.foldr_append, total, h.foldr_zipWith equal, List.flatten_cons, List.flatten_cons,
        h.foldr_append, h.foldr_append, h.assoc]

/-- The levels leave one group. -/
theorem treeUp_toNat (per : Nat) : ∀ (fuel : Nat) (gs : List (List (BitVec n))), gs.length ≤ fuel → 0 < gs.length →
    (∀ l ∈ gs, l.length = per) →
    ∃ l : List (BitVec n), treeUp f fuel (gs.map groupNats) = ([groupNats l], 0) ∧ l.length = per ∧
      l.foldr o z = gs.flatten.foldr o z := by
  intro fuel
  induction fuel with
  | zero => intro gs le pos; omega
  | succ fuel ih =>
    intro gs le pos len
    rw [treeUp, List.length_map]
    split
    next one =>
      obtain ⟨l, rfl⟩ := List.length_eq_one_iff.1 (Nat.le_antisymm one pos)
      exact ⟨l, rfl, len l (by simp), by simp⟩
    next many =>
      obtain ⟨hs, level, lens, count, total⟩ := treeLevel_toNat value h per gs len
      obtain ⟨l, up, length, sum⟩ := ih hs (by omega) (by omega) lens
      refine ⟨l, ?_, length, sum.trans total⟩
      simp only [level, up]
      rfl

omit value h in
theorem flatten_groups {α : Type} (V : Nat → α) (per groups : Nat) :
    ((List.range groups).map fun g => (List.range per).map fun i => V (g * per + i)).flatten =
      (List.range (groups * per)).map V := by
  induction groups with
  | zero => simp
  | succ groups ih =>
    rw [List.range_succ, List.map_append, List.flatten_append, ih, Nat.succ_mul, List.range_add, List.map_append]
    simp [Function.comp_def]

theorem redTree_toNat {per groups : Nat} (hper : 0 < per) (hgroups : 0 < groups) (V : Nat → BitVec n) :
    redTree f per groups (fun i => (V i).toNat) = ((((List.range (groups * per)).map V).foldr o z).toNat, 0) := by
  obtain ⟨l, up, length, total⟩ := treeUp_toNat value h per groups
    ((List.range groups).map fun g => (List.range per).map fun i => V (g * per + i)) (by simp) (by simpa) (by simp)
  have words : ((List.range groups).map fun g => (List.range per).map fun i => (V (g * per + i)).toNat) =
      ((List.range groups).map fun g => (List.range per).map fun i => V (g * per + i)).map groupNats := by
    simp [groupNats, Function.comp_def]
  cases l with
  | nil => exact absurd length (by simp; omega)
  | cons x l =>
    rw [redTree, words, up]
    simp only [List.headD_cons, foldGroup_toNat value, h.foldl_eq_foldr x l, total, flatten_groups V]
    rfl

end

/-! ## The reduction of a stretch of a row (R200, R270) -/

theorem typeBytes_dvd (t : Nat) : typeBytes t ∣ 128 := by
  unfold typeBytes
  split <;> decide

theorem filter_lt_range {n N : Nat} (h : n ≤ N) (p : Nat → Bool) :
    (List.range N).filter (fun i => decide (i < n) && p i) = (List.range n).filter p := by
  obtain ⟨k, rfl⟩ := Nat.exists_eq_add_of_le h
  rw [List.range_add, List.filter_append]
  have beyond : ((List.range k).map (n + ·)).filter (fun i => decide (i < n) && p i) = [] := by
    simp [List.filter_eq_nil_iff]
  rw [beyond, List.append_nil]
  exact List.filter_congr fun i hi => by simp [List.mem_range.1 hi]

section
variable {s : State} {g : Guard} {a : Fin 64} {o : RedOp} {z : BitVec (8 * s.core.run.tyBytes)}
  {op : BitVec (8 * s.core.run.tyBytes) → BitVec (8 * s.core.run.tyBytes) → BitVec (8 * s.core.run.tyBytes)}

/-- The tree covers every element of the stretch, so its result is that of its active elements. -/
theorem State.reduceFrom_eq (wide : s.core.run.tyBytes ≤ s.core.run.wb) (h : Combines op z)
    (value : ∀ x y, o.comb s.core.run.ty s.core.run.arithRm x.toNat y.toNat = ((op x y).toNat, 0))
    (identity : o.identity s.core.run.ty = z.toNat) (r lo : Nat) {n : Nat} (hn : 0 < n) :
    s.core.run.reduceFrom o g a r lo n = (((((List.range n).filter fun i => s.core.run.active g r (lo + i)).map
      fun i => s.el a r (lo + i)).foldr op z).toNat, 0) := by
  have pos := s.core.run.tyBytes_pos
  obtain ⟨per, hper⟩ : s.core.run.tyBytes ∣ 128 := typeBytes_dvd _
  have quotient : 128 / s.core.run.tyBytes = per := by rw [hper, Nat.mul_div_cancel_left _ pos]
  have perPos : 0 < per := Nat.pos_of_ne_zero fun zero => by simp [zero] at hper
  have bytes : n * s.core.run.tyBytes ≤ n * s.core.run.wb := Nat.mul_le_mul_left n wide
  have bytesPos : 0 < n * s.core.run.tyBytes := Nat.mul_pos hn pos
  have covers : n * s.core.run.wb ≤ ceilDiv (n * s.core.run.wb) 128 * 128 := by
    unfold ceilDiv
    omega
  have groupsPos : 0 < ceilDiv (n * s.core.run.wb) 128 := Nat.pos_of_ne_zero fun zero => by
    rw [zero] at covers
    omega
  have all : n ≤ ceilDiv (n * s.core.run.wb) 128 * per := by
    refine Nat.le_of_mul_le_mul_right ?_ pos
    calc n * s.core.run.tyBytes ≤ ceilDiv (n * s.core.run.wb) 128 * 128 := bytes.trans covers
      _ = ceilDiv (n * s.core.run.wb) 128 * per * s.core.run.tyBytes := by rw [Nat.mul_assoc, Nat.mul_comm per, ← hper]
  have words : (fun i => if i < n && s.core.run.active g r (lo + i) then s.core.run.elem a s.core.run.tyBytes r (lo + i)
      else o.identity s.core.run.ty) =
      fun i => (if decide (i < n) && s.core.run.active g r (lo + i) then s.el a r (lo + i) else z).toNat := by
    funext i
    split <;> simp only [State.toNat_el, identity]
  simp only [Coro.reduceFrom]
  rw [quotient, words, redTree_toNat value h perPos groupsPos, h.foldr_filter, filter_lt_range all]

end

end Sys2Proof.Machine
end

section
/-! SUPPORT. The reductions as instructions (spec/10 R270 and R272): which elements they write, the segments of a row, and the
operations of the integer types. -/

namespace Sys2Proof.Machine

/-! ## The operations on integers (R270) -/

section
variable {t : Nat} (ht : t < 8) (rm : Rm) (x y : BitVec (8 * typeBytes t))
include ht

theorem RedOp.comb_sum : RedOp.comb .sum t rm x.toNat y.toNat = ((x + y).toNat, 0) := by
  rw [RedOp.comb, if_pos (typeInt_of_lt ht)]
  exact congrArg (·, 0) (elAdd_toNat t x y)

theorem RedOp.comb_and : RedOp.comb .and t rm x.toNat y.toNat = ((x &&& y).toNat, 0) := by
  rw [RedOp.comb, if_pos (typeInt_of_lt ht), BitVec.toNat_and]

theorem RedOp.comb_or : RedOp.comb .or t rm x.toNat y.toNat = ((x ||| y).toNat, 0) := by
  rw [RedOp.comb, if_pos (typeInt_of_lt ht), BitVec.toNat_or]

theorem RedOp.comb_xor : RedOp.comb .xor t rm x.toNat y.toNat = ((x ^^^ y).toNat, 0) := by
  rw [RedOp.comb, if_pos (typeInt_of_lt ht), BitVec.toNat_xor]

theorem RedOp.comb_min : RedOp.comb .min t rm x.toNat y.toNat =
    ((if 4 ≤ t then (if x.toInt ≤ y.toInt then x else y) else if x.toNat ≤ y.toNat then x else y).toNat, 0) := by
  rw [RedOp.comb, if_pos (typeInt_of_lt ht)]
  simp only [typeSigned, ht, decide_true, Bool.and_true, decide_eq_true_eq, elMin_toNat, elMinu_toNat]
  split <;> rfl

theorem RedOp.comb_max : RedOp.comb .max t rm x.toNat y.toNat =
    ((if 4 ≤ t then (if y.toInt ≤ x.toInt then x else y) else if y.toNat ≤ x.toNat then x else y).toNat, 0) := by
  rw [RedOp.comb, if_pos (typeInt_of_lt ht)]
  simp only [typeSigned, ht, decide_true, Bool.and_true, decide_eq_true_eq, elMax_toNat, elMaxu_toNat]
  split <;> rfl

end

/-- What a reduction of integers combines with, from which value: the operation on words is that of the type, and so is its
identity. -/
structure RedOp.Folds (o : RedOp) (t : Nat) (rm : Rm)
    (op : BitVec (8 * typeBytes t) → BitVec (8 * typeBytes t) → BitVec (8 * typeBytes t))
    (z : BitVec (8 * typeBytes t)) : Prop where
  combines : Combines op z
  value : ∀ x y, o.comb t rm x.toNat y.toNat = ((op x y).toNat, 0)
  identity : o.identity t = z.toNat

section
variable {t : Nat} (rm : Rm)

section
variable (ht : t < 8)
include ht

theorem RedOp.folds_sum : RedOp.Folds .sum t rm (· + ·) 0 where
  combines := ⟨BitVec.add_assoc, BitVec.add_comm, BitVec.zero_add⟩
  value := RedOp.comb_sum ht rm
  identity := by simp [RedOp.identity, typeInt, ht]

theorem RedOp.folds_and : RedOp.Folds .and t rm (· &&& ·) (BitVec.allOnes _) where
  combines := ⟨BitVec.and_assoc, BitVec.and_comm, fun _ => BitVec.allOnes_and⟩
  value := RedOp.comb_and ht rm
  identity := by rw [RedOp.identity, if_pos (typeInt_of_lt ht), BitVec.toNat_allOnes]

theorem RedOp.folds_or : RedOp.Folds .or t rm (· ||| ·) 0 where
  combines := ⟨BitVec.or_assoc, BitVec.or_comm, fun _ => BitVec.zero_or⟩
  value := RedOp.comb_or ht rm
  identity := by simp [RedOp.identity, typeInt, ht]

theorem RedOp.folds_xor : RedOp.Folds .xor t rm (· ^^^ ·) 0 where
  combines := ⟨BitVec.xor_assoc, BitVec.xor_comm, fun _ => BitVec.zero_xor⟩
  value := RedOp.comb_xor ht rm
  identity := by simp [RedOp.identity, typeInt, ht]

end

theorem RedOp.folds_minu (ht : t < 4) :
    RedOp.Folds .min t rm (fun x y => if x.toNat ≤ y.toNat then x else y) (BitVec.allOnes _) where
  combines := combines_least (key := BitVec.toNat) (fun _ _ => BitVec.eq_of_toNat_eq) fun x => by
    have := x.isLt
    rw [BitVec.toNat_allOnes]
    omega
  value x y := by rw [RedOp.comb_min (by omega), if_neg (by omega)]
  identity := by
    rw [RedOp.identity, if_pos (typeInt_of_lt (by omega)), BitVec.toNat_allOnes]
    simp [typeSigned, ht]

theorem RedOp.folds_maxu (ht : t < 4) :
    RedOp.Folds .max t rm (fun x y => if y.toNat ≤ x.toNat then x else y) 0 where
  combines := combines_least (key := fun x : BitVec (8 * typeBytes t) => OrderDual.toDual x.toNat)
    (fun _ _ => BitVec.eq_of_toNat_eq) fun x => Nat.zero_le x.toNat
  value x y := by rw [RedOp.comb_max (by omega), if_neg (by omega)]
  identity := by
    rw [RedOp.identity, if_pos (typeInt_of_lt (by omega))]
    simp [typeSigned, ht]

theorem RedOp.folds_min (lo : 4 ≤ t) (hi : t < 8) :
    RedOp.Folds .min t rm (fun x y => if x.toInt ≤ y.toInt then x else y) (BitVec.intMax _) where
  combines := combines_least (key := BitVec.toInt) (fun _ _ => BitVec.eq_of_toInt_eq) fun x => by
    have := BitVec.toInt_lt (x := x)
    rw [BitVec.toInt_intMax]
    omega
  value x y := by rw [RedOp.comb_min hi, if_pos lo]
  identity := by
    rw [RedOp.identity, if_pos (typeInt_of_lt hi)]
    simp [typeSigned, lo, hi]

theorem RedOp.folds_max (lo : 4 ≤ t) (hi : t < 8) :
    RedOp.Folds .max t rm (fun x y => if y.toInt ≤ x.toInt then x else y) (BitVec.intMin _) where
  combines := combines_least (key := fun x : BitVec (8 * typeBytes t) => OrderDual.toDual x.toInt)
    (fun _ _ => BitVec.eq_of_toInt_eq) fun x => BitVec.toInt_intMin_le x
  value x y := by rw [RedOp.comb_max hi, if_pos lo]
  identity := by
    have := typeBytes_pos t
    rw [RedOp.identity, if_pos (typeInt_of_lt hi), BitVec.toNat_intMin,
      Nat.mod_eq_of_lt (Nat.pow_lt_pow_right (by decide) (by omega))]
    simp [typeSigned, lo, hi]

end

/-! ## Reductions of whole rows (R270) -/

theorem State.redType_of {s : State} {ok : Coro → Bool} (accepts : ok s.core.run = true)
    (reduced : s.sys.reduced = true → s.core.run.ty = 10) : s.redType ok = true := by
  rw [State.redType, accepts, Bool.true_and]
  cases eq : s.sys.reduced
  · rfl
  · simp [reduced eq]

section
variable {s : State} {i : Instr} {g : Guard} {d a : Fin 64} {o : RedOp}

/-- The places that a reduction of whole rows writes. -/
theorem State.mapsAt_of_vreduce {ok : Coro → Bool} {f : Nat → Nat → Nat × Flags} (issued : s.issues [d, a] s.core.run.tyBytes)
    (accepts : s.redType ok = true) (body : exec i s = .next (s.vreduce g d a o ok))
    (value : ∀ r, 0 < s.core.run.vl.toNat → s.core.run.reduceFrom o g a r 0 s.core.run.vl.toNat = f r 0) :
    s.mapsAt i d s.core.run.tyBytes (fun _ e => e = 0) f := by
  refine State.mapsAt_of_crossSweep issued accepts s.core.run.tyBytes_pos le_rfl (fun _ _ => True)
    (step := fun c p => c.putFlagged d s.core.run.tyBytes p.1 p.2
      (s.core.run.reduceFrom o g a p.1 0 s.core.run.vl.toNat))
    (L := rowPlaces s.core.run.rc.toNat fun _ => min 1 s.core.run.vl.toNat)
    body ?all (nodup_rowPlaces ..) (fun (r, e) here => ?tile) (fun c' r e here => ?step) fun r e => ?places
  case all =>
    rw [foldl_rowPlaces]
    split
    next empty =>
      have zero : s.core.run.vl.toNat = 0 := by rw [empty]; rfl
      simp [zero, List.foldl_fixed]
    next some =>
      have one : min 1 s.core.run.vl.toNat = 1 := by
        have nonzero : s.core.run.vl.toNat ≠ 0 := fun eq => some (BitVec.eq_of_toNat_eq eq)
        omega
      simp only [one]
      rfl
  case tile =>
    obtain ⟨hr, he⟩ := mem_rowPlaces.1 here
    exact (s.core.run.mem_tile r e).2 ⟨hr, by omega⟩
  case step =>
    obtain ⟨-, he⟩ := mem_rowPlaces.1 here
    obtain rfl : e = 0 := by omega
    rw [if_pos trivial, ← value r (by omega)]
  case places =>
    rw [mem_rowPlaces, and_true, State.inTile]
    omega

end

/-! ## The segments of a row (R272) -/

section
variable (start : Nat → Bool)

theorem countP_range_succ (n : Nat) : (List.range (n + 1)).countP start =
    (List.range n).countP start + if start n then 1 else 0 := by
  rw [List.range_succ, List.countP_append, List.countP_singleton]

theorem countP_range_mono {n N : Nat} (h : n ≤ N) : (List.range n).countP start ≤ (List.range N).countP start := by
  obtain ⟨k, rfl⟩ := Nat.exists_eq_add_of_le h
  rw [List.range_add, List.countP_append]
  exact Nat.le_add_right ..

/-- Start `k` of those below `n` has `k` starts before it. -/
theorem getElem_filter_range {n k : Nat} (h : k < ((List.range n).filter start).length) :
    ((List.range n).filter start)[k] < n ∧ start ((List.range n).filter start)[k] = true ∧
      (List.range ((List.range n).filter start)[k]).countP start = k := by
  induction n with
  | zero => simp at h
  | succ n ih =>
    by_cases hit : start n = true
    · have split : (List.range (n + 1)).filter start = (List.range n).filter start ++ [n] := by
        simp [List.range_succ, hit]
      simp only [split, List.length_append, List.length_singleton] at h ⊢
      by_cases old : k < ((List.range n).filter start).length
      · rw [List.getElem_append_left old]
        obtain ⟨lt, hit, count⟩ := ih old
        exact ⟨lt.trans (Nat.lt_succ_self n), hit, count⟩
      · rw [List.getElem_append_right (Nat.le_of_not_lt old), List.getElem_singleton, List.countP_eq_length_filter]
        exact ⟨Nat.lt_succ_self n, hit, by omega⟩
    · have split : (List.range (n + 1)).filter start = (List.range n).filter start := by simp [List.range_succ, hit]
      simp only [split] at h ⊢
      obtain ⟨lt, hit, count⟩ := ih h
      exact ⟨lt.trans (Nat.lt_succ_self n), hit, count⟩

theorem filter_between {lo hi n : Nat} (h : lo ≤ hi) (le : hi ≤ n) :
    (List.range n).filter (fun e => decide (e < hi) && decide (lo ≤ e)) = List.range' lo (hi - lo) := by
  obtain ⟨len, rfl⟩ := Nat.exists_eq_add_of_le h
  rw [filter_lt_range le, List.range_add, List.filter_append, List.range'_eq_map_range, Nat.add_sub_cancel_left]
  have below : (List.range lo).filter (fun e => decide (lo ≤ e)) = [] := by
    simp [List.filter_eq_nil_iff]
  rw [below, List.nil_append, List.filter_eq_self]
  simp

/-- The stretches of `n` elements that each start begins: first element and length of each. -/
def stretches (n : Nat) : List (Nat × Nat) :=
  let starts := (List.range n).filter start
  (starts.zip (starts.drop 1 ++ [n])).map fun p => (p.1, p.2 - p.1)

theorem length_stretches (n : Nat) : (stretches start n).length = (List.range n).countP start := by
  simp only [stretches, List.length_map, List.length_zip, List.length_append, List.length_drop, List.length_singleton,
    List.countP_eq_length_filter]
  omega

/-- Stretch `k` holds the elements up to which there are `k + 1` starts. -/
theorem stretches_spec {n k : Nat} (h : k < (List.range n).countP start) : ∃ lo len,
    (stretches start n).getD k (0, 0) = (lo, len) ∧ 0 < len ∧
      (List.range n).filter (fun e => decide ((List.range (e + 1)).countP start = k + 1)) = List.range' lo len := by
  have inside : k < ((List.range n).filter start).length := by rwa [← List.countP_eq_length_filter]
  obtain ⟨ltn, hit, count⟩ := getElem_filter_range start inside
  set lo := ((List.range n).filter start)[k] with hlo
  obtain ⟨hi, get, countHi, next, le⟩ : ∃ hi, (((List.range n).filter start).drop 1 ++ [n])[k]? = some hi ∧
      (List.range hi).countP start = k + 1 ∧ (hi < n → start hi = true) ∧ hi ≤ n := by
    by_cases more : k + 1 < ((List.range n).filter start).length
    · obtain ⟨ltn', hit', count'⟩ := getElem_filter_range start more
      refine ⟨_, ?_, count', fun _ => hit', ltn'.le⟩
      rw [List.getElem?_append_left (by rw [List.length_drop]; omega), List.getElem?_drop, Nat.add_comm 1,
        List.getElem?_eq_getElem more]
    · have last : k + 1 = ((List.range n).filter start).length := by omega
      refine ⟨n, ?_, by rw [List.countP_eq_length_filter, last], fun lt => absurd lt (lt_irrefl n), le_rfl⟩
      rw [List.getElem?_append_right (by rw [List.length_drop]; omega), List.length_drop]
      simp [show k - (((List.range n).filter start).length - 1) = 0 by omega]
  have lt : lo < hi := by
    by_contra ge
    have := countP_range_mono start (Nat.le_of_not_lt ge)
    omega
  have countLo : (List.range (lo + 1)).countP start = k + 1 := by
    rw [countP_range_succ, if_pos hit, count]
  refine ⟨lo, hi - lo, ?_, by omega, ?_⟩
  · have zip : (((List.range n).filter start).zip (((List.range n).filter start).drop 1 ++ [n]))[k]? = some (lo, hi) :=
      List.getElem?_zip_eq_some.2 ⟨List.getElem?_eq_getElem inside, get⟩
    rw [stretches, List.getD_eq_getElem?_getD, List.getElem?_map, zip]
    rfl
  · rw [← filter_between lt.le le]
    refine List.filter_congr fun e he => Bool.eq_iff_iff.2 ?_
    rw [Bool.and_eq_true, decide_eq_true_eq, decide_eq_true_eq, decide_eq_true_eq]
    refine ⟨fun here => ⟨Nat.lt_of_not_le fun ge => ?_, Nat.le_of_not_lt fun before => ?_⟩, fun ⟨below, above⟩ => ?_⟩
    · have started := countP_range_succ start hi
      rw [if_pos (next (by have := List.mem_range.1 he; omega))] at started
      have := countP_range_mono start (Nat.add_le_add_right ge 1)
      omega
    · have := countP_range_mono start (show e + 1 ≤ lo from before)
      omega
    · have atLeast := countP_range_mono start (Nat.add_le_add_right above 1)
      have atMost := countP_range_mono start (show e + 1 ≤ hi from below)
      omega

end

/-! ## Segmented reductions (R272) -/

/-- A fold that numbers the entries of a list. -/
theorem foldl_numbering {σ β : Type} (step : σ → β → Nat → σ) (b : β) (x : σ) (l : List β) :
    l.foldl (fun (y : σ × Nat) p => (step y.1 p y.2, y.2 + 1)) (x, 0) =
      ((List.range l.length).foldl (fun y k => step y (l.getD k b) k) x, l.length) := by
  induction l using List.reverseRecOn with
  | nil => rfl
  | append_singleton l p ih =>
    rw [List.foldl_append, ih, List.length_append, List.length_singleton, List.range_succ, List.foldl_append]
    simp only [List.foldl_cons, List.foldl_nil, Prod.mk.injEq, and_true]
    have before : (List.range l.length).foldl (fun y k => step y ((l ++ [p]).getD k b) k) x =
        (List.range l.length).foldl (fun y k => step y (l.getD k b) k) x :=
      List.foldl_ext _ _ _ fun y k hk => by rw [List.getD_append _ _ _ _ (List.mem_range.1 hk)]
    rw [before]
    simp

section
variable {s : State} {i : Instr} {g : Guard} {d a : Fin 64} {o : RedOp} {m : Fin 8}

/-- Whether a segment begins at element `e` of row `r`. -/
def Coro.segStart (c : Coro) (m : Fin 8) (r e : Nat) : Bool := e == 0 || c.maskBit m r e

theorem Coro.segments_eq (c : Coro) (m : Fin 8) (r : Nat) : c.segments m r = stretches (c.segStart m r) c.vl.toNat := rfl

/-- The places that a segmented reduction writes. -/
theorem State.mapsAt_of_vsegReduce {f : Nat → Nat → Nat × Flags} (issued : s.issues [d, a] s.core.run.tyBytes)
    (accepts : s.redType Coro.sumType = true) (body : exec i s = .next (s.vsegReduce g d a m o))
    (value : ∀ r k lo len, 0 < len → (List.range s.core.run.vl.toNat).filter (fun e =>
        decide ((List.range (e + 1)).countP (s.core.run.segStart m r) = k + 1)) = List.range' lo len →
      s.core.run.reduceFrom o g a r lo len = f r k) :
    s.mapsAt i d s.core.run.tyBytes
      (fun r k => k < (List.range s.core.run.vl.toNat).countP (s.core.run.segStart m r)) f := by
  have few (r : Nat) : (List.range s.core.run.vl.toNat).countP (s.core.run.segStart m r) ≤ s.core.run.vl.toNat :=
    List.countP_le_length.trans_eq List.length_range
  refine State.mapsAt_of_crossSweep issued accepts s.core.run.tyBytes_pos le_rfl (fun _ _ => True)
    (step := fun c p => c.putFlagged d s.core.run.tyBytes p.1 p.2 (s.core.run.reduceFrom o g a p.1
      ((s.core.run.segments m p.1).getD p.2 (0, 0)).1 ((s.core.run.segments m p.1).getD p.2 (0, 0)).2))
    (L := rowPlaces s.core.run.rc.toNat fun r => (s.core.run.segments m r).length)
    body ?all (nodup_rowPlaces ..) (fun (r, k) here => ?tile) (fun c' r k here => ?step) fun r k => ?places
  case all =>
    rw [foldl_rowPlaces]
    refine List.foldl_ext _ _ _ fun y r _ => ?_
    have numbered := foldl_numbering (fun (y : Coro) (p : Nat × Nat) k =>
      y.putFlagged d s.core.run.tyBytes r k (s.core.run.reduceFrom o g a r p.1 p.2)) (0, 0) y (s.core.run.segments m r)
    exact congrArg Prod.fst numbered
  case tile =>
    obtain ⟨hr, hk⟩ := mem_rowPlaces.1 here
    rw [Coro.segments_eq, length_stretches] at hk
    exact (s.core.run.mem_tile r k).2 ⟨hr, hk.trans_le (few r)⟩
  case step =>
    obtain ⟨-, hk⟩ := mem_rowPlaces.1 here
    rw [Coro.segments_eq, length_stretches] at hk
    obtain ⟨lo, len, get, pos, stretch⟩ := stretches_spec _ hk
    simp only [if_true, Coro.segments_eq, get, value r k lo len pos stretch]
  case places =>
    rw [mem_rowPlaces, and_true, Coro.segments_eq, length_stretches]
    exact ⟨fun ⟨hr, hk⟩ => ⟨⟨hr, hk.trans_le (few r)⟩, hk⟩, fun ⟨⟨hr, _⟩, hk⟩ => ⟨hr, hk⟩⟩

end

/-! ## What each reduction writes -/

section
variable {s : State} {i : Instr} {g : Guard} {d a : Fin 64} {m : Fin 8} {o : RedOp} {z : BitVec (8 * s.core.run.tyBytes)}
  {op : BitVec (8 * s.core.run.tyBytes) → BitVec (8 * s.core.run.tyBytes) → BitVec (8 * s.core.run.tyBytes)}
  (issued : s.issues [d, a] s.core.run.tyBytes)
include issued

/-- Integers of a row, in any order. -/
theorem State.mapsAt_fold_of_vreduce {ok : Coro → Bool} (folds : o.Folds s.core.run.ty s.core.run.arithRm op z)
    (accepts : s.redType ok = true) (body : exec i s = .next (s.vreduce g d a o ok)) :
    s.mapsAt i d s.core.run.tyBytes (fun _ e => e = 0) (fun r _ =>
      (((((List.range s.core.run.vl.toNat).filter (s.core.run.active g r)).map (s.el a r)).foldr op z).toNat, 0)) := by
  obtain ⟨-, -, wide, -⟩ := id issued
  refine State.mapsAt_of_vreduce issued accepts body fun r hv => ?_
  rw [State.reduceFrom_eq wide folds.combines folds.value folds.identity r 0 hv]
  simp only [Nat.zero_add]

/-- Integers of a segment, in any order. -/
theorem State.mapsAt_fold_of_vsegReduce (folds : o.Folds s.core.run.ty s.core.run.arithRm op z)
    (accepts : s.redType Coro.sumType = true) (body : exec i s = .next (s.vsegReduce g d a m o)) :
    s.mapsAt i d s.core.run.tyBytes (fun r k => k < (List.range s.core.run.vl.toNat).countP (s.core.run.segStart m r))
      (fun r k => (((((List.range s.core.run.vl.toNat).filter fun e =>
        decide ((List.range (e + 1)).countP (s.core.run.segStart m r) = k + 1) && s.core.run.active g r e).map
          (s.el a r)).foldr op z).toNat, 0)) := by
  obtain ⟨-, -, wide, -⟩ := id issued
  refine State.mapsAt_of_vsegReduce issued accepts body fun r k lo len pos stretch => ?_
  rw [State.reduceFrom_eq wide folds.combines folds.value folds.identity r lo pos, List.filter_congr fun _ _ => Bool.and_comm ..,
    ← List.filter_filter, stretch, List.range'_eq_map_range, List.filter_map, List.map_map]
  rfl

/-- The tree of a segment. -/
theorem State.mapsAt_tree_of_vsegReduce (accepts : s.redType Coro.sumType = true)
    (body : exec i s = .next (s.vsegReduce g d a m o)) :
    let es (r k : Nat) := (List.range s.core.run.vl.toNat).filter fun e =>
      decide ((List.range (e + 1)).countP (s.core.run.segStart m r) = k + 1)
    s.mapsAt i d s.core.run.tyBytes (fun r k => k < (List.range s.core.run.vl.toNat).countP (s.core.run.segStart m r))
      (fun r k => s.core.run.reduceFrom o g a r ((es r k).headD 0) (es r k).length) := by
  intro es
  refine State.mapsAt_of_vsegReduce issued accepts body fun r k lo len pos stretch => ?_
  have stretch : es r k = List.range' lo len := stretch
  obtain ⟨len, rfl⟩ := Nat.exists_eq_succ_of_ne_zero pos.ne'
  rw [stretch, List.length_range', List.range'_succ]
  rfl

end

end Sys2Proof.Machine
end

section
/-! SUPPORT. Scans (spec/10 R271 and R272): the running value at each element of a row, and the sweep that carries it from element to
element and from row to row. -/

namespace Sys2Proof.Machine

/-! ## The running value -/

section
variable (c : Coro) (o : RedOp) (g : Guard) (a : Fin 64) (m : Option (Fin 8)) (r : Nat)

/-- Whether the running value returns to the identity at element `e` of row `r`. -/
def Coro.restarts (e : Nat) : Bool :=
  match m with
  | none => false
  | some i => c.segStart i r e

/-- The elements of row `r` from `lo` on, below `e`, that the scan combines. -/
def Coro.combined (lo e : Nat) : List Nat :=
  (List.range e).filter fun k => decide (lo ≤ k) && c.active g r k && c.notBefore (r, k)

/-- The running value after those, from `z` on. -/
def Coro.runningFrom (lo e z : Nat) : Nat :=
  (c.combined g r lo e).foldl (fun p k => (o.comb c.ty c.arithRm p (c.elem a c.tyBytes r k)).1) z

/-- The last restart below element `n`. -/
def Coro.lastRestart (n : Nat) : Option Nat :=
  ((List.range n).filter fun k => c.restarts m r k && c.notBefore (r, k)).getLast?

/-- The running value before element `e`, with the restarts below `n`. -/
def Coro.running (n e : Nat) : Nat :=
  match c.lastRestart m r n with
  | some lo => c.runningFrom o g a r lo e (o.identity c.ty)
  | none => c.runningFrom o g a r 0 e (c.scanStart o r)

theorem Coro.lastRestart_succ (n : Nat) : c.lastRestart m r (n + 1) =
    if c.restarts m r n && c.notBefore (r, n) then some n else c.lastRestart m r n := by
  rw [Coro.lastRestart, List.range_succ, List.filter_append, Coro.lastRestart]
  split
  next here => simp [here]
  next not => simp [not]

theorem Coro.le_of_lastRestart {n lo : Nat} (h : c.lastRestart m r n = some lo) : lo < n :=
  List.mem_range.1 (List.mem_of_mem_filter (List.mem_of_getLast? h))

variable {e : Nat}

theorem Coro.runningFrom_succ {lo : Nat} (le : lo ≤ e) (z : Nat) : c.runningFrom o g a r lo (e + 1) z =
    if c.active g r e && c.notBefore (r, e) then
      (o.comb c.ty c.arithRm (c.runningFrom o g a r lo e z) (c.elem a c.tyBytes r e)).1
    else c.runningFrom o g a r lo e z := by
  rw [Coro.runningFrom, Coro.combined, List.range_succ, List.filter_append, List.foldl_append]
  split
  next here => simp only [List.filter_singleton, le, decide_true, Bool.true_and, here]; rfl
  next not => simp only [List.filter_singleton, le, decide_true, Bool.true_and, not]; rfl

theorem Coro.runningFrom_self (z : Nat) : c.runningFrom o g a r e e z = z := by
  have none : c.combined g r e e = [] := List.filter_eq_nil_iff.2 fun k hk => by
    have := List.mem_range.1 hk
    simp [show ¬ e ≤ k by omega]
  rw [Coro.runningFrom, none]
  rfl

theorem Coro.running_zero : c.running o g a m r 0 0 = c.scanStart o r := rfl

/-- At an element that is processed the running value restarts or stays. -/
theorem Coro.running_restart (here : c.notBefore (r, e) = true) : c.running o g a m r (e + 1) e =
    if c.restarts m r e then o.identity c.ty else c.running o g a m r e e := by
  rw [Coro.running, Coro.lastRestart_succ, here, Bool.and_true]
  split
  next lo restart =>
    split at restart
    next at_ =>
      cases restart
      rw [if_pos at_, Coro.runningFrom_self]
    next not => rw [if_neg not, Coro.running, restart]
  next restart =>
    split at restart
    next => cases restart
    next not => rw [if_neg not, Coro.running, restart]

/-- An element that is processed and active joins the running value. -/
theorem Coro.running_join (here : c.notBefore (r, e) = true) : c.running o g a m r (e + 1) (e + 1) =
    if c.active g r e then (o.comb c.ty c.arithRm (c.running o g a m r (e + 1) e) (c.elem a c.tyBytes r e)).1
    else c.running o g a m r (e + 1) e := by
  simp only [Coro.running]
  split
  next lo restart =>
    rw [Coro.runningFrom_succ _ _ _ _ _ (Nat.le_of_lt_succ (c.le_of_lastRestart m r restart)), here, Bool.and_true]
  next => rw [Coro.runningFrom_succ _ _ _ _ _ (Nat.zero_le e), here, Bool.and_true]

theorem Coro.running_skip (before : c.notBefore (r, e) = false) :
    c.running o g a m r (e + 1) (e + 1) = c.running o g a m r e e := by
  have same : c.lastRestart m r (e + 1) = c.lastRestart m r e := by
    rw [Coro.lastRestart_succ, before, Bool.and_false]
    rfl
  simp only [Coro.running, same]
  split
  next lo restart =>
    rw [Coro.runningFrom_succ _ _ _ _ _ (c.le_of_lastRestart m r restart).le, before, Bool.and_false]
    rfl
  next =>
    rw [Coro.runningFrom_succ _ _ _ _ _ (Nat.zero_le e), before, Bool.and_false]
    rfl

/-- What a scan gives element `e` of row `r`. -/
def Coro.scanned (e : Nat) : Nat × Flags :=
  o.comb c.ty c.arithRm (c.running o g a m r (e + 1) e) (c.elem a c.tyBytes r e)

end

/-! ## The sweep of a scan -/

/-- The running value with which a scan in progress goes on in row `r`. -/
def Scan.carries (x : Scan) (c : Coro) (o : RedOp) (r : Nat) : Nat :=
  if x.row = some r then x.acc else c.scanStart o r

theorem Coro.scanStep_eq (c : Coro) (o : RedOp) (g : Guard) (d a : Fin 64) (m : Option (Fin 8)) (x : Scan) (r e : Nat) :
    c.scanStep o g d a m x (r, e) =
      let acc := if x.c.restarts m r e then o.identity c.ty else x.carries c o r
      if x.c.active g r e then
        let y := o.comb c.ty c.arithRm acc (x.c.elem a c.tyBytes r e)
        ⟨x.c.putFlagged d c.tyBytes r e y, some r, y.1⟩
      else ⟨x.c, some r, acc⟩ := by
  cases m <;> rfl

section
variable {c : Coro} {o : RedOp} {g : Guard} {d a : Fin 64} {m : Option (Fin 8)}

/-- The elements that a scan has written before it comes to (r, e). -/
def Coro.ScannedBefore (c : Coro) (g : Guard) (r e r' e' : Nat) : Prop :=
  ((r', e') ∈ c.todo ∧ c.active g r' e' = true) ∧ (r' < r ∨ r' = r ∧ e' < e)

/-- A scan before element (r, e): the elements before that one are written, and the running value of the row is carried. -/
structure Coro.Scanning (c : Coro) (o : RedOp) (g : Guard) (d a : Fin 64) (m : Option (Fin 8)) (r e : Nat) (x : Scan) : Prop where
  wrote : c.Wrote d c.tyBytes (c.ScannedBefore g r e) (c.scanned o g a m) x.c
  row : ∀ r', x.row = some r' → r' ≤ r
  acc : x.carries c o r = c.running o g a m r e e

theorem Coro.Scanning.start (x : Nat) : c.Scanning o g d a m 0 0 ⟨c, none, x⟩ where
  wrote := (Coro.Wrote.none c d c.tyBytes _).congr (by simp [Coro.ScannedBefore])
  row := fun _ none => nomatch none
  acc := (c.running_zero o g a m 0).symm

section
variable {r e : Nat} {x : Scan}

theorem Coro.Scanning.nextRow (h : c.Scanning o g d a m r c.vl.toNat x) : c.Scanning o g d a m (r + 1) 0 x where
  wrote := h.wrote.congr fun r' e' => and_congr_right fun ⟨todo, _⟩ => by
    obtain ⟨-, he⟩ := (c.mem_tile r' e').1 (List.mem_of_mem_filter todo)
    omega
  row := fun r' eq => (h.row r' eq).trans (Nat.le_succ r)
  acc := by
    rw [Scan.carries, if_neg fun eq => Nat.not_succ_le_self r (h.row _ eq), Coro.running_zero]

variable (h : c.Scanning o g d a m r e x)
include h

theorem Coro.Scanning.wrote_skip (no : ¬ ((r, e) ∈ c.todo ∧ c.active g r e = true)) :
    c.Wrote d c.tyBytes (c.ScannedBefore g r (e + 1)) (c.scanned o g a m) x.c := by
  refine h.wrote.congr fun r' e' => and_congr_right fun yes => ?_
  have : ¬ (r' = r ∧ e' = e) := by
    rintro ⟨rfl, rfl⟩
    exact no yes
  omega

/-- An element before VSTART is passed over. -/
theorem Coro.Scanning.pass (before : ¬ c.notBefore (r, e) = true) : c.Scanning o g d a m r (e + 1) x := by
  refine ⟨h.wrote_skip fun both => before ((c.mem_todo r e).1 both.1).2, h.row, ?_⟩
  rw [h.acc, Coro.running_skip _ _ _ _ _ _ (Bool.eq_false_iff.2 before)]

/-- Any other goes on with the running value, and receives it where it is active. -/
theorem Coro.Scanning.step (spans : c.Spans c.tyBytes) (here : (r, e) ∈ c.tile) (from_ : c.notBefore (r, e) = true) :
    c.Scanning o g d a m r (e + 1) (c.scanStep o g d a m x (r, e)) := by
  have tile : ∀ r' e', c.ScannedBefore g r e r' e' → (r', e') ∈ c.tile :=
    fun _ _ ⟨⟨todo, _⟩, _⟩ => List.mem_of_mem_filter todo
  have todo : (r, e) ∈ c.todo := (c.mem_todo r e).2 ⟨here, from_⟩
  have new : ¬ c.ScannedBefore g r e r e := fun ⟨_, place⟩ => by omega
  have restarts : x.c.restarts m r e = c.restarts m r e := by
    cases m with
    | none => rfl
    | some i => simp only [Coro.restarts, Coro.segStart, h.wrote.maskBit]
  rw [Coro.scanStep_eq, h.acc, restarts, h.wrote.active, h.wrote.elem_of_not spans tile a here new,
    ← Coro.running_restart _ _ _ _ _ _ from_]
  have join := c.running_join o g a m r from_
  split
  next act =>
    rw [if_pos act] at join
    refine ⟨(h.wrote.put spans tile here new).congr fun r' e' => ?_, fun r' eq => (Option.some.inj eq).symm.le,
      (if_pos rfl).trans join.symm⟩
    constructor
    · rintro (⟨done, place⟩ | eq)
      · exact ⟨done, by omega⟩
      · cases eq
        exact ⟨⟨todo, act⟩, .inr ⟨rfl, Nat.lt_succ_self e⟩⟩
    · rintro ⟨done, place⟩
      by_cases last : r' = r ∧ e' = e
      · exact .inr (by rw [last.1, last.2])
      · exact .inl ⟨done, by omega⟩
  next inact =>
    rw [if_neg inact] at join
    exact ⟨h.wrote_skip fun both => inact both.2, fun r' eq => (Option.some.inj eq).symm.le, (if_pos rfl).trans join.symm⟩

theorem Coro.Scanning.nextElem (spans : c.Spans c.tyBytes) (here : (r, e) ∈ c.tile) :
    c.Scanning o g d a m r (e + 1) (if c.notBefore (r, e) then c.scanStep o g d a m x (r, e) else x) := by
  split
  next from_ => exact h.step spans here from_
  next before => exact h.pass before

end

theorem foldl_range_induction {σ : Type} {step : σ → Nat → σ} (M : Nat → σ → Prop) {N : Nat} {x : σ} (start : M 0 x)
    (next : ∀ n y, n < N → M n y → M (n + 1) (step y n)) : M N ((List.range N).foldl step x) := by
  induction N with
  | zero => exact start
  | succ N ih =>
    rw [List.range_succ, List.foldl_append]
    exact next N _ (Nat.lt_succ_self N) (ih fun n y hn => next n y (hn.trans (Nat.lt_succ_self N)))

/-- A scan of the whole tile gives each active element from VSTART on its running value. -/
theorem Coro.wrote_of_scan (spans : c.Spans c.tyBytes) : c.Wrote d c.tyBytes
    (fun r e => (r, e) ∈ c.todo ∧ c.active g r e = true) (c.scanned o g a m)
    (c.todo.foldl (c.scanStep o g d a m) ⟨c, none, 0⟩).c := by
  rw [Coro.todo, List.foldl_filter, Coro.tile_eq_rowPlaces, foldl_rowPlaces]
  have all := foldl_range_induction (fun r x => c.Scanning o g d a m r 0 x) (Coro.Scanning.start 0) fun r x hr h =>
    (foldl_range_induction (fun e x => c.Scanning o g d a m r e x) h fun e y he hy =>
      hy.nextElem spans ((c.mem_tile r e).2 ⟨hr, he⟩)).nextRow
  refine all.wrote.congr fun r e => and_iff_left_of_imp fun done => ?_
  exact .inl ((c.mem_tile r e).1 (List.mem_of_mem_filter done.1)).1

end

/-! ## The results -/

theorem State.sumType_of {s : State} (ht : s.core.run.ty < 12)
    (reduced : s.sys.reduced = true → s.core.run.ty < 8 ∨ s.core.run.ty = 10) : s.sumType = true := by
  rw [State.sumType, State.serviceType_of reduced, Bool.and_true]
  exact decide_eq_true ht

section
variable {s : State} {i : Instr} {g : Guard} {d a : Fin 64} {o : RedOp} {m : Option (Fin 8)}

theorem State.mapsInto_of_vscanOp (issued : s.issues [d, a] s.core.run.tyBytes) (accepts : s.sumType = true)
    (body : exec i s = .next (s.vscanOp g d a o m)) :
    s.mapsInto i { s.core.run.finishV with vcarry := 0 } d s.core.run.tyBytes (s.does g) (s.core.run.scanned o g a m) := by
  have spans := State.spans_of_issues issued s.core.run.tyBytes_pos le_rfl
  have wrote := Coro.wrote_of_scan (o := o) (g := g) (d := d) (a := a) (m := m) spans
  set x := s.core.run.todo.foldl (s.core.run.scanStep o g d a m) ⟨s.core.run, none, 0⟩ with hx
  have flight : x.c.flight = s.core.run.flight := by rw [wrote.frame]
  have next : s.vscanOp g d a o m = s.withRun ({ x.c with vcarry := 0 } : Coro).finishV :=
    State.sweep_of_issues issued accepts flight
  refine State.mapsInto_of_wrote (body.trans (congrArg _ next)) ?_ wrote spans fun r e => ?_
  · conv_lhs => rw [wrote.frame]
    rfl
  · rw [Coro.mem_todo, State.inTile_iff_mem, State.does, and_assoc, and_comm (a := s.core.run.notBefore _ = _)]

end

/-! ## Scans in the terms of the statement -/

theorem elMaxu_eq (t w x y : Nat) : elMaxu t w x y = if x < y then y else x := by
  rw [elMaxu, Nat.max_def]
  split_ifs <;> omega

section
variable (t : Nat) (rm : Rm) (p q : Nat)

theorem RedOp.comb_sum_eq : RedOp.comb .sum t rm p q =
    if t < 8 then ((p + q) % 2 ^ (8 * typeBytes t), 0) else (typeFmt t).add rm p q := by
  by_cases ht : t < 8 <;> simp [RedOp.comb, typeInt, ht, elAdd]

theorem RedOp.comb_max_eq :
    let int (p : Nat) : Int := if 4 ≤ t then (BitVec.ofNat (8 * typeBytes t) p).toInt else p
    RedOp.comb .max t rm p q =
      if t < 8 then (if int p < int q then q else p, 0) else (typeFmt t).minmax true p q := by
  intro int
  by_cases ht : t < 8
  · by_cases signed : 4 ≤ t
    · simp [RedOp.comb, typeInt, typeSigned, ht, signed, elMax, toSigned_eq_toInt, int]
    · simp [RedOp.comb, typeInt, typeSigned, ht, signed, elMaxu_eq, int]
  · simp [RedOp.comb, typeInt, ht]

theorem RedOp.identity_sum : RedOp.identity .sum t = if t < 8 then 0 else (typeFmt t).sign true := by
  simp [RedOp.identity, typeInt]

theorem RedOp.identity_max : RedOp.identity .max t = if t < 4 then 0 else if t < 8 then 2 ^ (8 * typeBytes t - 1)
    else (typeFmt t).sign true + (typeFmt t).infinity := by
  by_cases ht : t < 8
  · by_cases signed : 4 ≤ t
    · simp [RedOp.identity, typeInt, typeSigned, ht, signed, Nat.not_lt.2 signed]
    · simp [RedOp.identity, typeInt, typeSigned, ht, signed, Nat.lt_of_not_le signed]
  · simp [RedOp.identity, typeInt, ht, show ¬ t < 4 by omega]

end

theorem Coro.scanStart_eq (c : Coro) (o : RedOp) (r : Nat) : c.scanStart o r =
    if c.vs ≠ ⟨0, 0⟩ ∧ r = c.vs.row.toNat then c.vcarry.toNat % 2 ^ (8 * c.tyBytes) else o.identity c.ty := by
  simp only [Coro.scanStart, Bool.and_eq_true, bne_iff_ne, beq_iff_eq]

theorem Coro.scanned_none (c : Coro) (o : RedOp) (g : Guard) (a : Fin 64) (r e : Nat) : c.scanned o g a none r e =
    o.comb c.ty c.arithRm (c.runningFrom o g a r 0 e (c.scanStart o r)) (c.elem a c.tyBytes r e) := by
  have never : c.lastRestart none r (e + 1) = none := by
    simp [Coro.lastRestart, Coro.restarts]
  simp only [Coro.scanned, Coro.running, never]

/-- Settles O20. A reduction writes what `Coro.reduceFrom` gives of each row or segment, which for integers is a fold in any order;
a scan writes the running value of its row. -/
theorem reductionAndScanResults : Obligations.ReductionAndScanResults := by
  unfold Obligations.ReductionAndScanResults
  refine ⟨fun s g c d a => ?rows, fun s g c d a m => ?segments, fun s g c d a m => ?scans⟩
  case rows =>
    intro w t n row first fold tree issued
    have sums (ht : t < 12) : s.core.run.sumType = true := decide_eq_true ht
    have full {ok : Coro → Bool} (accepts : ok s.core.run = true) (h : s.sys.reduced = false) : s.redType ok = true :=
      State.redType_of accepts fun x => absurd (h.symm.trans x) Bool.false_ne_true
    refine ⟨fun h ht => ?_, fun h ht => ?_, fun h lo hi => ?_, fun lo hi h => ?_⟩
    · have int := Coro.intType_of_lt (c := s.core.run) ht
      exact ⟨State.mapsAt_fold_of_vreduce issued (RedOp.folds_sum _ ht) (full (sums (by omega)) h) rfl,
        State.mapsAt_fold_of_vreduce issued (RedOp.folds_and _ ht) (full int h) rfl,
        State.mapsAt_fold_of_vreduce issued (RedOp.folds_or _ ht) (full int h) rfl,
        State.mapsAt_fold_of_vreduce issued (RedOp.folds_xor _ ht) (full int h) rfl⟩
    · exact ⟨State.mapsAt_fold_of_vreduce issued (RedOp.folds_minu _ ht) (full (sums (by omega)) h) rfl,
        State.mapsAt_fold_of_vreduce issued (RedOp.folds_maxu _ ht) (full (sums (by omega)) h) rfl⟩
    · exact ⟨State.mapsAt_fold_of_vreduce issued (RedOp.folds_min _ lo hi) (full (sums (by omega)) h) rfl,
        State.mapsAt_fold_of_vreduce issued (RedOp.folds_max _ lo hi) (full (sums (by omega)) h) rfl⟩
    · have accepts := State.redType_of (ok := Coro.sumType) (sums hi) h
      exact ⟨State.mapsAt_of_vreduce issued accepts rfl fun _ _ => rfl, State.mapsAt_of_vreduce issued accepts rfl fun _ _ => rfl,
        State.mapsAt_of_vreduce issued accepts rfl fun _ _ => rfl⟩
  case segments =>
    intro w t n start segments inSeg row fold tree counted issued _
    have sums (ht : t < 12) : s.core.run.sumType = true := decide_eq_true ht
    have full (ht : t < 12) (h : s.sys.reduced = false) : s.redType Coro.sumType = true :=
      State.redType_of (sums ht) fun x => absurd (h.symm.trans x) Bool.false_ne_true
    refine ⟨fun h ht => ?_, fun h ht => ?_, fun h lo hi => ?_, fun lo hi h => ?_⟩
    · exact State.mapsAt_fold_of_vsegReduce issued (RedOp.folds_sum _ ht) (full (by omega) h) rfl
    · exact ⟨State.mapsAt_fold_of_vsegReduce issued (RedOp.folds_minu _ ht) (full (by omega) h) rfl,
        State.mapsAt_fold_of_vsegReduce issued (RedOp.folds_maxu _ ht) (full (by omega) h) rfl⟩
    · exact ⟨State.mapsAt_fold_of_vsegReduce issued (RedOp.folds_min _ lo hi) (full (by omega) h) rfl,
        State.mapsAt_fold_of_vsegReduce issued (RedOp.folds_max _ lo hi) (full (by omega) h) rfl⟩
    · have accepts := State.redType_of (ok := Coro.sumType) (sums hi) h
      exact ⟨State.mapsAt_tree_of_vsegReduce issued accepts rfl, State.mapsAt_tree_of_vsegReduce issued accepts rfl,
        State.mapsAt_tree_of_vsegReduce issued accepts rfl⟩
  case scans =>
    intro w t f rm x add int larger vs resumed begins before scan none0 least begun k issued ht reduced
    have accepts := State.sumType_of ht reduced
    have sum : add = RedOp.comb .sum t rm := funext₂ fun p q => (RedOp.comb_sum_eq t rm p q).symm
    have max : larger = RedOp.comb .max t rm := funext₂ fun p q => (RedOp.comb_max_eq t rm p q).symm
    have zero : none0 = RedOp.identity .sum t := (RedOp.identity_sum t).symm
    have low : least = RedOp.identity .max t := (RedOp.identity_max t).symm
    have starts (o : RedOp) (r : Nat) : begins (o.identity t) r = s.core.run.scanStart o r := (s.core.run.scanStart_eq o r).symm
    have scanSum := State.mapsInto_of_vscanOp (i := .vscan g c d a) issued accepts rfl
    have scanMax := State.mapsInto_of_vscanOp (i := .vscanmax g c d a) issued accepts rfl
    have scanSeg := State.mapsInto_of_vscanOp (i := .vsscan g c d a m) issued accepts rfl
    rw [sum, max, zero, low]
    simp only [starts]
    refine ⟨?_, ?_, ?_⟩
    · rwa [show s.core.run.scanned .sum g a none = fun r e => scan (RedOp.comb .sum t rm) (s.core.run.scanStart .sum r) r 0 e from
        funext₂ fun r e => s.core.run.scanned_none .sum g a r e] at scanSum
    · rwa [show s.core.run.scanned .max g a none = fun r e => scan (RedOp.comb .max t rm) (s.core.run.scanStart .max r) r 0 e from
        funext₂ fun r e => s.core.run.scanned_none .max g a r e] at scanMax
    · rw [show s.core.run.scanned .sum g a (some m) = fun r e => match begun r e with
          | some lo => scan (RedOp.comb .sum t rm) (RedOp.identity .sum t) r lo e
          | none => scan (RedOp.comb .sum t rm) (s.core.run.scanStart .sum r) r 0 e from ?segmented] at scanSeg
      case segmented =>
        funext r e
        have last : s.core.run.lastRestart (some m) r (e + 1) = begun r e := rfl
        simp only [Coro.scanned, Coro.running, last]
        cases begun r e <;> rfl
      exact scanSeg

end Sys2Proof.Machine
end
